-- ==== Sys2Proof/Word.lean ====
section
/-!
DEFINITION. Sys2Proof/Word.lean: the bit-vector widths of the device and the keyed tables the state is made of.
Bit 0 is the least significant bit of every word (R6).
-/
namespace Sys2Proof

abbrev Byte := BitVec 8
abbrev Half := BitVec 16
abbrev Word := BitVec 32
abbrev DWord := BitVec 64
abbrev Quad := BitVec 128

/-- A table of values by key: an absent key stands for the default value the reader gives. -/
abbrev KV (κ α : Type) := List (κ × α)

/-- The value at key `k`, or `d` where the table has none. -/
def KV.get {κ α : Type} [DecidableEq κ] : KV κ α → κ → α → α
  | [], _, d => d
  | (k', v) :: t, k, d => if k' = k then v else KV.get t k d

/-- Set the value at key `k`: the first entry of that key is replaced, or a new entry is appended. -/
def KV.set {κ α : Type} [DecidableEq κ] : KV κ α → κ → α → KV κ α
  | [], k, v => [(k, v)]
  | (k', v') :: t, k, v => if k' = k then (k, v) :: t else (k', v') :: KV.set t k v

/-- Remove every entry of key `k`, so that its default stands again. -/
def KV.del {κ α : Type} [DecidableEq κ] (t : KV κ α) (k : κ) : KV κ α :=
  t.filter (fun e => decide (e.1 ≠ k))

/-- Change the value at key `k` by `f`. -/
def KV.upd {κ α : Type} [DecidableEq κ] (t : KV κ α) (k : κ) (d : α) (f : α → α) : KV κ α :=
  t.set k (f (t.get k d))

/-- A Bool as a number, 1 for true. -/
def b2n (b : Bool) : Nat := if b then 1 else 0

end Sys2Proof
end

