-- ==== Sys2Proof/Types.lean ====
section
/-!
DEFINITION. Sys2Proof/Types.lean: the kinds of operand that commands carry: who performs a register access, the issue
context of a hook instruction, sizes, formats, address specifiers, findings of the environment.
-/
namespace Sys2Proof

/-- The three order codes (R1); `beds` is the enabled-bed limit. -/
inductive OrderCode where
  | ug6128 | ug6096 | ug6064
  deriving DecidableEq, Repr, Inhabited

/-- Who performs a register access: a hook thread with the permissions of the capability it used (R339), a host function
(R471: 0 PF0, 1 to 8 virtual functions, 9 to 11 further links), the boot ROM, JTAG, or firmware acting for the dictionary. -/
inductive Who where
  | hook (core thr : Nat) (perms : BitVec 13)
  | host (fn : Nat)
  | bootRom
  | jtag
  | firmware
  deriving DecidableEq, Repr, Inhabited

/-- The path of a dictionary request (R28). -/
inductive Path where
  | plc | host
  deriving DecidableEq, Repr, Inhabited

/-- The issue context of a hook-core instruction: its core and thread, its length in bytes (R301), whether it stands in
slot B of its issue group (R280), which the frame's CAUSE records (R350), and the wait states before its issue (R295). -/
structure HI where
  core : Nat
  thr : Nat
  len : Nat
  slotB : Bool
  waits : Nat
  deriving DecidableEq, Repr, Inhabited

/-- Element sizes .B .H .W .D (R302). -/
inductive Sz where
  | b | h | w | d
  deriving DecidableEq, Repr, Inhabited

/-- Floating-point formats, coded as ESZ (R302, R258). -/
inductive Fmt where
  | fp16 | bf16 | fp32 | fp64
  deriving DecidableEq, Repr, Inhabited

/-- Vector lengths VL of the vector prefix (R302). -/
inductive VLen where
  | v4096 | v2048 | v1024 | v512
  deriving DecidableEq, Repr, Inhabited

/-- The form of an address specifier (R306). -/
inductive AForm where
  | base | index | postInc | preDec
  deriving DecidableEq, Repr, Inhabited

/-- A memory operand: capability register, form, displacement (sign-extended), scale (0 to 3 for 1, 2, 4, 8) and index
register (R306). -/
structure MOp where
  cap : Nat
  form : AForm
  disp : BitVec 64
  scale : Nat
  index : Nat
  deriving DecidableEq, Repr, Inhabited

/-- The register pairs that MOV accepts (R314). -/
inductive MovKind where
  | gg | gw | wg | gf | fg | ff | cc
  deriving DecidableEq, Repr, Inhabited

/-- The repeat prefix of a block-repeat instruction (R302, R326). -/
inductive Rpt where
  | none | rpt | eq | ne
  deriving DecidableEq, Repr, Inhabited

/-- The opcodes that accept the vector prefix and are neither loads nor stores (R302, R366). -/
inductive VOp where
  | add | sub | neg | abs | mul | mulh | mulhu | div | divu | rem | remu
  | min | max | minu | maxu | and | or | xor | andn | not | shl | shr | sar | rol | ror | popc | clz
  | qadd | qaddu | qsub | qsubu
  | fadd | fsub | fmul | fdiv | fsqrt | fma | fms | fnma | fmin | fmax
  deriving DecidableEq, Repr, Inhabited

/-- The system registers of R322. -/
inductive SReg where
  | pcap | stat | sscap | vtab | sstat | slink | wspc
  | gateC (n : Nat)
  | gateD (n : Nat)
  deriving DecidableEq, Repr, Inhabited

/-- A stream step: the ply queue, whether it acts on the younger instance (R228), the instruction slot, the logical position
that acts, and the most elements it issues in this step. -/
structure SI where
  q : Nat
  young : Bool
  slot : Nat
  pos : Nat
  n : Nat
  deriving DecidableEq, Repr, Inhabited

/-- What the check bits of a read find (R123, R124, R132): nothing, a corrected error, an uncorrectable error. -/
inductive Ecc where
  | clean | corrected | uncorrectable
  deriving DecidableEq, Repr, Inhabited

/-- The supplies of R519 that a monitor or the sequencer watches (R526). -/
inductive Supply where
  | vaonCore | vaonIo | vddCore | corePg | vddqDdr | vddaDdr | vddSerdes | vddhSerdes | vioGen | vioSb | vioMii
  deriving DecidableEq, Repr, Inhabited

/-- What SFDP announces (R402). -/
inductive FlashMode where
  | none | quad | octal
  deriving DecidableEq, Repr, Inhabited

/-- What the CRC check of a stream packet finds; `later` where the check ends after the course's release (R97). -/
inductive PktCrc where
  | ok | bad | later
  deriving DecidableEq, Repr, Inhabited

/-- A capability: its 128 bits and its tag (R333). -/
structure CapV where
  bits : Quad
  tag : Bool
  deriving DecidableEq, Repr, Inhabited

/-- What a measurement of a bed finds (R493, R499): the lowest passing voltage at each F_k, the junction T_m in 0.1 °C, the needles
that fail, and the ring-oscillator count. -/
structure BedMeas where
  bed : Nat
  lows : List Nat
  tm : Int
  needles : List Nat
  ring : Nat
  deriving DecidableEq, Repr, Inhabited

/-- The trigger codes of TMO_RCAUSE. -/
inductive Trig where
  | powerOn | sysrst | dictionary | tmo | thermal | noMajority | threadWatchdog | stageWatchdog | safeCommand | restartFailed
  | refck
  deriving DecidableEq, Repr, Inhabited

end Sys2Proof
end

