-- ==== Sys2Proof/Syntax.lean ====
section
/-!
DEFINITION. Sys2Proof/Syntax.lean: the commands, one constructor per row of spec/opcode_table.json, in the table's order. The
table gives no row a bit layout, so operands are plain data: indices, values, and what the environment finds or brings.
-/
namespace Sys2Proof

/-- A command to the device or an event of it. -/
inductive Instr where
  /-- REGISTER_WRITE (R545). A write to a control register that has no row of its own; out-of-range, reserved-
  code or wrong-state fields stay unchanged and the other fields take effect. -/
  | registerWrite (who : Who) (addr : Nat) (v : Word)
  /-- PAIR_HI_WRITE (R547). A write of HI of a writable LO/HI pair loads HI together with the held LO in one
  step. -/
  | pairHiWrite (who : Who) (addr : Nat) (v : Word)
  /-- PAIR_LO_READ (R547). A read of LO of a LO/HI pair latches HI so that the 64-bit read is consistent. -/
  | pairLoRead (who : Who) (addr : Nat)
  /-- RSC_READ (R461). A read of an rsc counter register returns its value and clears it in the same access. -/
  | rscRead (who : Who) (addr : Nat)
  /-- DC_COMPARISON (R33). Every 1 ms the time base compares itself with EtherCAT system time and updates LOCKED
  and its discipline. -/
  | dcComparison (dt : Nat) (sys : DWord)
  /-- PPS_EDGE (R33). An active 1PPS edge is compared with the nearest whole second to discipline the time base.
  -/
  | ppsEdge (dt : Nat) (rising : Bool)
  /-- TB_SOURCE_LOST (R35). Loss of the time-base source puts the time base into holdover on the reference. -/
  | tbSourceLost (dt : Nat)
  /-- TBS_SET_WRITE (R36). A write of TBS_SET_HI loads the time base, or is ignored with SET_REFUSED while any
  channel is in RUN. -/
  | tbsSetWrite (who : Who) (v : Word)
  /-- ENCODER_TRANSITION (R37). A transition of encoder phases A or B is decoded x4, counted, timestamped and
  used for speed and projections. -/
  | encoderTransition (dt : Nat) (e : Nat) (a : Bool) (b : Bool)
  /-- ENCODER_STALL (R40). No count for ENCn_CTRL.STALL makes the speed read 0 and sets STOPPED. -/
  | encoderStall (dt : Nat) (e : Nat)
  /-- ENCODER_ENABLE (R37). Setting TIO_ENCn_CTRL.EN to 1 takes the present phase levels as the decoder's
  starting state and restarts speed. -/
  | encoderEnable (who : Who) (e : Nat) (v : Word)
  /-- COURSE_BOUNDARY (R42). A course boundary of a channel in RUN advances the row counter and latches the
  stitch marker. -/
  | courseBoundary (dt : Nat) (n : Nat)
  /-- CHANNEL_ENTER_RUN (R42). A channel enters RUN, latching P0 or T0 and, under encoder or fixed-period
  source, making the boundary of row R0. -/
  | channelEnterRun (dt : Nat) (n : Nat)
  /-- SCHEDULER_SCAN (R59). Every 64 ns the scheduler scans each queue and loads the earliest projected edge
  into the edge timer. -/
  | schedulerScan (dt : Nat) (o : Nat)
  /-- OUTPUT_EVENT_DUE (R63). The edge timer of an output expires and the due event is applied to the output's
  state. -/
  | outputEventDue (dt : Nat) (o : Nat)
  /-- TIME_EVENT_DUE (R62). A TIME event falls due at the first tick at which the time base reaches DUE. -/
  | timeEventDue (dt : Nat) (o : Nat)
  /-- PULSE_END (R63). A PULSE in progress ends ARG ns after its due time. -/
  | pulseEnd (dt : Nat) (o : Nat)
  /-- WINDOW_END (R63). A WINDOW ends when the reference web position reaches its start position plus ARG. -/
  | windowEnd (dt : Nat) (o : Nat)
  /-- PIN_HOLD_END (R64). At the end of the 20 ns hold the pin takes the level the output state then calls for.
  -/
  | pinHoldEnd (dt : Nat) (o : Nat)
  /-- COMMIT_HORIZON (R66). A tentative event reaching its commit horizon is removed or committed according to
  HPOL. -/
  | commitHorizon (dt : Nat) (o : Nat)
  /-- ARM_REQ (R70). A write of TIO_ARM.ARM_REQ with Arm in a voted complex sets ARMED, otherwise raises a
  capability fault. -/
  | armReq (who : Who)
  /-- DISARM (R71). A write of TIO_ARM.DISARM clears ARMED, empties every output queue and drives the safe
  levels. -/
  | disarm (who : Who)
  /-- OUTPUT_BINDOFF (R73). Writing an output's EN to 0 starts its bind-off, refusing new events and removing or
  keeping queued ones. -/
  | outputBindoff (who : Who) (o : Nat)
  /-- OUTPUT_BINDOFF_COMPLETE (R73). When the queue is empty and no PULSE or WINDOW runs, the output bind-off
  completes and the safe level is driven. -/
  | outputBindoffComplete (o : Nat)
  /-- OUTPUT_BINDOFF_TIMEOUT (R73). The bind-off timeout removes every queued event of the output and cuts any
  PULSE or WINDOW. -/
  | outputBindoffTimeout (o : Nat)
  /-- CAPTURE_EDGE (R74). A selected edge on a capture input records time, row and encoder position into its
  FIFO or is lost. -/
  | captureEdge (dt : Nat) (n : Nat) (rising : Bool)
  /-- CAPTURE_POP (R74). A read of CAPn_POS_HI removes the head entry of the capture FIFO. -/
  | capturePop (who : Who) (n : Nat)
  /-- EVIN_WRITE (R76). A write to TIO_OUTn_EVIN advances the writer's entry, and the fourth write enters a
  committed event. -/
  | evinWrite (who : Who) (o : Nat) (v : Word)
  /-- DISCOVERY_ATTEMPT (R105). Every 100 ms after a link went down the device starts a discovery attempt and
  counts it. -/
  | discoveryAttempt (dt : Nat) (l : Nat)
  /-- LINK_UP (R105). A discovery attempt completes at the configured speed and the link comes up. -/
  | linkUp (l : Nat)
  /-- LINK_LOCK_LOSS (R105). A link loses lock and goes down, failing pending lines with LINK_DOWN. -/
  | linkLockLoss (l : Nat)
  /-- CODE_ERROR_THRESHOLD (R105). More than CODE_THR code errors within 1 ms take the link down. -/
  | codeErrorThreshold (l : Nat) (errs : Nat)
  /-- LINE_HEADER (R84). An arriving stream line header is paired with a pending row by its tag, or discarded as
  AHEAD or STALE. -/
  | lineHeader (dt : Nat) (l : Nat) (tag : Half) (fmt : Nat) (width : Nat) (height : Nat)
  /-- STREAM_PACKET (R90). A stream packet passes the line buffer and its wale data is written into the ring
  slot. -/
  | streamPacket (l : Nat) (first : Nat) (px : List Word) (crc : PktCrc) (last : Bool) (overflow : Bool)
  /-- CRC_RESOLUTION (R97). CRC resolution of a speculatively released course rewrites its marker COMPLETE or
  DROPPED and commits or frogs its lifeline. -/
  | crcResolution (n : Nat) (row : Nat) (ok : Bool)
  /-- COURSE_RELEASE (R93). A course is released to its consumers in row order once every older row has been
  released or dropped. -/
  | courseRelease (n : Nat)
  /-- COURSE_WATCHDOG (R98). Expiry of a row's course watchdog declares its pending lines missing and finishes
  the course. -/
  | courseWatchdog (dt : Nat) (n : Nat)
  /-- HEARTBEAT_PACKET (R106). A heartbeat packet on a camera's master link restores a lost camera, which then
  rebases. -/
  | heartbeatPacket (l : Nat)
  /-- HEARTBEAT_TIMEOUT (R106). No heartbeat for HBTO ms makes the camera lost and fails its pending lines with
  HEARTBEAT. -/
  | heartbeatTimeout (l : Nat)
  /-- EVENT_PACKET (R111). A CXP event packet is placed in the shared event FIFO, truncated or lost when full.
  -/
  | eventPacket (dt : Nat) (l : Nat) (data : List Byte)
  /-- EVENT_FIFO_POP (R111). A read of 0x607C pops the head entry of the CXP event FIFO. -/
  | eventFifoPop (who : Who)
  /-- MAILBOX_GO (R109). Writing CXP_MBXk_CMD.GO sends the control request as a tagged control packet, or sets
  REFUSED while BUSY. -/
  | mailboxGo (who : Who) (k : Nat) (v : Word)
  /-- MAILBOX_ANSWER (R109). The camera's answer arrives and sets DONE with its acknowledge code. -/
  | mailboxAnswer (k : Nat) (ok : Bool) (ack : Nat) (data : List Byte)
  /-- MAILBOX_WAIT_ACK (R109). A wait acknowledgement restarts the mailbox timer, up to 8 times per request. -/
  | mailboxWaitAck (k : Nat)
  /-- MAILBOX_TIMEOUT (R109). A request with no answer within CXP_MBXk_TO fails with TIMEOUT. -/
  | mailboxTimeout (k : Nat)
  /-- RELEASE_ROW_WRITE (R91). A firmware or host consumer's write of CXP_CHn_RELk_HI sets its release row,
  ignored if lower or for a ply-queue consumer. -/
  | releaseRowWrite (who : Who) (n : Nat) (k : Nat) (v : Word)
  /-- DROP_LOG_POP (R101). A read of CXP_CHn_DLOG_HI pops the head entry of the drop log. -/
  | dropLogPop (who : Who) (n : Nat)
  /-- INGEST_BINDOFF (R108). Writing ICTRL.EN to 0 starts the channel's ingest bind-off, admitting no row from
  the next boundary. -/
  | ingestBindoff (who : Who) (n : Nat) (v : Word)
  /-- INGEST_BINDOFF_END (R108). Once every row is released or dropped the ingest bind-off completes. -/
  | ingestBindoffEnd (n : Nat)
  /-- STASH_REQUEST (R115). A port's stash request enters the queues of its banks, or waits in the fabric when a
  queue is full. -/
  | stashRequest (port : Nat) (id : Nat) (off : Nat) (line : Bool) (wr : Bool) (data : List Byte) (be : DWord) (epoch : Half) (plq : Nat)
  /-- BANK_GRANT (R117). In each stash cycle a bank grants its oldest request with its merge set under the same-
  word rules. -/
  | bankGrant (bank : Nat) (dc : Nat) (eccLo : Ecc) (eccHi : Ecc)
  /-- ARBITRATION_TIMEOUT (R121). A request waiting STH_ARB_TO stash cycles is granted next, counted in
  STH_STARVE and reported. -/
  | arbitrationTimeout (bank : Nat) (dc : Nat)
  /-- DEMAND_WRITEBACK (R123). A corrected stash word is written back in an unclaimed cycle within 64 stash
  cycles, or abandoned. -/
  | demandWriteback (off : Nat)
  /-- BANK_TEST_SLOT (R125). A 2 ms bank-test slot starts for the next physical bank, reserving a spare and
  starting the copy. -/
  | bankTestSlot
  /-- BANK_TEST_COPY_END (R126). The copy to the spare ends and requests are redirected to the spare within one
  stash cycle. -/
  | bankTestCopyEnd
  /-- BANK_TEST_COPY_ABANDON (R126). A copy incomplete at 600 µs is abandoned, the spare freed and SKIP counted.
  -/
  | bankTestCopyAbandon
  /-- BANK_TEST_RESULT (R126). At 1,400 µs the March C- and retention test ends and a failed bank is retired to
  the spare. -/
  | bankTestResult (pass : Bool)
  /-- BANK_TEST_COPY_BACK_END (R126). The copy back ends, the redirect is removed and the spare freed. -/
  | bankTestCopyBackEnd
  /-- DDR_REQUEST (R135). A DDR request enters its subchannel queue, or waits in the fabric when the queue is
  full. -/
  | ddrRequest (port : Nat) (id : Nat) (addr : Nat) (wr : Bool) (data : List Byte) (be : DWord) (drained : Nat)
  /-- DDR_READ_RETURN (R132). A DDR read completes, corrected, poisoned or clean, with logging and write-back as
  required. -/
  | ddrReadReturn (c : Nat) (sub : Nat) (id : Nat) (ecc : Ecc) (dimm : Nat) (rank : Nat) (dev : Nat)
  /-- DDR_REQUEST_TIMEOUT (R136). A DDR request not completed within DDR_CHc_TO starts recovery of that channel.
  -/
  | ddrRequestTimeout (c : Nat)
  /-- DDR_FAST_PATH_END (R136). The fast recovery path ends: frozen writes are poisoned and reported and the
  channel goes ONLINE. -/
  | ddrFastPathEnd (c : Nat) (ok : Bool)
  /-- DDR_FULL_PATH (R136). A failed self-refresh entry or retraining takes the full path, resetting the DIMMs
  and losing contents. -/
  | ddrFullPath (c : Nat)
  /-- DDR_FILL_END (R136). The zero fill of a channel ends and LOST clears. -/
  | ddrFillEnd (c : Nat)
  /-- PATROL_SCRUB (R133). The controller reads the next line of its channel in an unclaimed command slot for
  patrol scrub. -/
  | patrolScrub (c : Nat) (ecc : Ecc) (dimm : Nat) (rank : Nat) (dev : Nat)
  /-- SPD_THERMAL_READ (R134). Every 16 ms the controller reads the SPD hub sensors and sets refresh rate and
  HOT. -/
  | spdThermalRead (c : Nat) (temp : Byte)
  /-- PMIC_ERROR (R134). A PMIC error reported over the sideband sets PMIC_ERR and starts channel recovery. -/
  | pmicError (c : Nat)
  /-- DDR_RECOVER_COMMAND (R136). Writing DDR_CHc_CTRL.RECOVER starts channel recovery as if timed out. -/
  | ddrRecoverCommand (who : Who) (c : Nat)
  /-- PLY_SUBMIT (R146). The write of offset 0x3C of PLQ_q_SUB enqueues a submission entry, or is refused with
  16 held. -/
  | plySubmit (who : Who) (q : Nat) (v : Word)
  /-- PLY_START (R143). A bed set starts the next ready ply of its highest-priority unpinned queue. -/
  | plyStart (n : Nat)
  /-- PIN_ENABLE (R144). Writing PLQ_q_CTRL.PIN_EN to 1 pins the queue, refused unless firmware-owned and a
  consumer of its channel. -/
  | pinEnable (who : Who) (q : Nat)
  /-- SUSPEND_COMPLETE (R145). Once every issued element has committed the suspended ply's progress registers
  are recorded. -/
  | suspendComplete (n : Nat)
  /-- PLY_FAULTED (R150). After in-flight elements commit the queue posts a FAULT record and enters FAULTED. -/
  | plyFaulted (q : Nat) (young : Bool)
  /-- RESUME (R150). PLQ_q_CMD.RESUME tinks every unfinished instruction of the FAULTED ply from its progress
  registers. -/
  | resume (who : Who) (q : Nat)
  /-- ABORT (R150). PLQ_q_CMD.ABORT discards the FAULTED ply and posts an ABORTED record. -/
  | abort (who : Who) (q : Nat)
  /-- PLY_RETIRE (R149). A ply whose instructions have all finished retires and posts a DONE completion record.
  -/
  | plyRetire (q : Nat)
  /-- COMPLETION_POP (R149). A read of the word at 0x1C of PLQ_q_CPL pops the head completion record. -/
  | completionPop (who : Who) (q : Nat)
  /-- INSTRUCTION_WATCHDOG (R167). An instruction exceeding its watchdog faults with cause WATCHDOG at the
  progress reached. -/
  | instructionWatchdog (q : Nat) (young : Bool) (k : Nat)
  /-- EPOCH_RAISE (R142). Writing PLQ_q_BIND.RAISE increments the queue's epoch modulo 65,536. -/
  | epochRaise (who : Who) (q : Nat)
  /-- BED_REQUEST_RETURN (R164). Data or acknowledgement of a bed line request returns, freeing a place in the
  256-request window. -/
  | bedRequestReturn (b : Nat) (epoch : Half)
  /-- HAZARD_WAIT_END (R158). An instruction held by an extent overlap issues when the earlier instruction
  finishes. -/
  | hazardWaitEnd (a : SI)
  /-- SPEC_BUFFER_FREE (R221). A bed stopped on a full speculation buffer resumes issue when an entry frees. -/
  | specBufferFree (b : Nat)
  /-- MIGRATION_GO (R235). PLQ_q_MIG.GO starts migration of a logical position to NEWBED: epoch raised,
  lifelines frogged, old bed fenced, rebind and tink. -/
  | migrationGo (who : Who) (q : Nat) (lpos : Nat) (nb : Nat)
  /-- MIGRATION_DRAIN_END (R237). The old bed acknowledges no outstanding request and the migration ends. -/
  | migrationDrainEnd (n : Nat)
  /-- MIGRATION_DRAIN_TIMEOUT (R237). The drain timeout ends the migration with DRAIN_TO and the old bed is
  reset. -/
  | migrationDrainTimeout (n : Nat)
  /-- GAUGE_SWAP (R21). At a gap between courses the gauge swaps a bed of a latency-qualified set with its
  standby bed. -/
  | gaugeSwap (n : Nat) (lpos : Nat)
  /-- QUEUE_BINDOFF (R240). EN = 0, or a change of set or owner, starts a queue's bind-off, aborting waiting
  entries. -/
  | queueBindoff (who : Who) (q : Nat)
  /-- QUEUE_BINDOFF_END (R240). When no instance remains the queue bind-off ends and BINDOFF clears. -/
  | queueBindoffEnd (q : Nat)
  /-- BINDOFF_CUT (R241). The bind-off timeout cuts each remaining instance and posts a CUT record. -/
  | bindoffCut (q : Nat)
  /-- CHANNEL_BINDOFF (R242). A channel bind-off starts ingest's and the pinned queue's bind-off under one
  timer. -/
  | channelBindoff (n : Nat)
  /-- STREAM_MOV (R177). Stream MOV copies A to D per element. -/
  | streamMov (a : SI)
  /-- CVT (R182). Stream CVT converts each element of A to OT. -/
  | cvt (a : SI)
  /-- GATH (R184). Stream GATH reads A through its INDEX skein. -/
  | gath (a : SI)
  /-- SCAT (R185). Stream SCAT writes D through its INDEX skein. -/
  | scat (a : SI)
  /-- LUT (R187). Stream LUT looks up each element of A in table B. -/
  | lut (a : SI)
  /-- STREAM_ADD (R177). Stream ADD computes A + B per element. -/
  | streamAdd (a : SI)
  /-- STREAM_SUB (R177). Stream SUB computes A - B per element. -/
  | streamSub (a : SI)
  /-- STREAM_MUL (R177). Stream MUL computes A x B per element. -/
  | streamMul (a : SI)
  /-- STREAM_MULH (R180). Stream MULH returns the high half of the exact product. -/
  | streamMulh (a : SI)
  /-- STREAM_FMA (R177). Stream FMA computes A x B + C with one rounding. -/
  | streamFma (a : SI)
  /-- STREAM_FMS (R177). Stream FMS computes A x B - C with one rounding. -/
  | streamFms (a : SI)
  /-- STREAM_FNMA (R177). Stream FNMA computes -(A x B) + C with one rounding. -/
  | streamFnma (a : SI)
  /-- STREAM_MIN (R179). Stream MIN computes the minimum per element. -/
  | streamMin (a : SI)
  /-- STREAM_MAX (R179). Stream MAX computes the maximum per element. -/
  | streamMax (a : SI)
  /-- STREAM_ABS (R177). Stream ABS computes |A| per element. -/
  | streamAbs (a : SI)
  /-- STREAM_NEG (R177). Stream NEG computes -A per element. -/
  | streamNeg (a : SI)
  /-- ABSD (R180). Stream ABSD computes |A - B| per element. -/
  | absd (a : SI)
  /-- DOT4 (R180). Stream DOT4 adds the four byte products of A and B to C. -/
  | dot4 (a : SI)
  /-- CLAMP (R177). Stream CLAMP computes MIN(MAX(A, B), C) per element. -/
  | clamp (a : SI)
  /-- STREAM_DIV (R177). Stream DIV divides A by B per element on the D pipe. -/
  | streamDiv (a : SI)
  /-- STREAM_REM (R177). Stream REM computes the integer remainder per element. -/
  | streamRem (a : SI)
  /-- SQRT (R177). Stream SQRT computes the square root per element. -/
  | sqrt (a : SI)
  /-- STREAM_AND (R177). Stream AND computes A & B. -/
  | streamAnd (a : SI)
  /-- STREAM_OR (R177). Stream OR computes A | B. -/
  | streamOr (a : SI)
  /-- STREAM_XOR (R177). Stream XOR computes A ^ B. -/
  | streamXor (a : SI)
  /-- STREAM_ANDN (R177). Stream ANDN computes A & ~B. -/
  | streamAndn (a : SI)
  /-- STREAM_NOT (R177). Stream NOT computes ~A. -/
  | streamNot (a : SI)
  /-- STREAM_SHL (R250). Stream SHL shifts A left by B. -/
  | streamShl (a : SI)
  /-- STREAM_SHR (R250). Stream SHR shifts A right logically by B. -/
  | streamShr (a : SI)
  /-- STREAM_SAR (R250). Stream SAR shifts A right arithmetically by B. -/
  | streamSar (a : SI)
  /-- STREAM_ROL (R250). Stream ROL rotates A left by B. -/
  | streamRol (a : SI)
  /-- STREAM_ROR (R250). Stream ROR rotates A right by B. -/
  | streamRor (a : SI)
  /-- STREAM_POPC (R177). Stream POPC counts the 1 bits of A. -/
  | streamPopc (a : SI)
  /-- STREAM_CLZ (R177). Stream CLZ counts the leading 0 bits of A. -/
  | streamClz (a : SI)
  /-- STREAM_CMP (R181). Stream CMP writes the condition of MOD[2:0] on A and B to a MASK. -/
  | streamCmp (a : SI)
  /-- CMPR (R181). Stream CMPR writes B <= A <= C to a MASK. -/
  | cmpr (a : SI)
  /-- SEL (R177). Stream SEL selects A or B by the MASK C. -/
  | sel (a : SI)
  /-- RSUM (R190). Stream RSUM sums A per course or in total in the fixed combine order. -/
  | rsum (a : SI)
  /-- RMIN (R189). Stream RMIN finds the minimum per course or in total. -/
  | rmin (a : SI)
  /-- RMAX (R189). Stream RMAX finds the maximum per course or in total. -/
  | rmax (a : SI)
  /-- RMINX (R189). Stream RMINX finds the index of the minimum. -/
  | rminx (a : SI)
  /-- RMAXX (R189). Stream RMAXX finds the index of the maximum. -/
  | rmaxx (a : SI)
  /-- RANY (R189). Stream RANY gives 1 if any MASK element is 1. -/
  | rany (a : SI)
  /-- RALL (R189). Stream RALL gives 1 if every MASK element is 1. -/
  | rall (a : SI)
  /-- RCNT (R189). Stream RCNT counts the MASK elements that are 1. -/
  | rcnt (a : SI)
  /-- SCAN (R192). Stream SCAN writes the prefix operation along each course. -/
  | scan (a : SI)
  /-- CMPS (R193). Stream CMPS compresses the active elements of each course and writes their count. -/
  | cmps (a : SI)
  /-- EXPD (R193). Stream EXPD expands elements of A to the active positions of D. -/
  | expd (a : SI)
  /-- HIST (R194). Stream HIST counts A into the bins of D, written once when the instruction finishes. -/
  | hist (a : SI)
  /-- RLE (R195). Stream RLE writes run records of 1s in each course and their count. -/
  | rle (a : SI)
  /-- CONVW (R196). Stream CONVW convolves across wales with kernel SB. -/
  | convw (a : SI)
  /-- CONVC (R197). Stream CONVC convolves along courses, looking upstream. -/
  | convc (a : SI)
  /-- MARK (R199). Stream MARK enters one output event per active source element. -/
  | mark (a : SI)
  /-- LIFE (R203). LIFE opens an explicit lifeline once every earlier instruction has finished. -/
  | life (a : SI)
  /-- COMMIT (R224). COMMIT commits the innermost lifeline, relabelling or releasing its held state. -/
  | commit (a : SI)
  /-- FROG (R225). FROG frogs the innermost lifeline and every lifeline nested within it. -/
  | frog (a : SI)
  /-- RESOLV (R203). RESOLV commits the innermost lifeline if A is non-zero and frogs it otherwise. -/
  | resolv (a : SI)
  /-- BRC (R204). BRC branches forward on A, or follows its likely side under a branch lifeline. -/
  | brc (a : SI)
  /-- BRANCH_LIFELINE_RESOLVE (R231). When A of a speculative BRC is written the branch lifeline commits or
  frogs. -/
  | branchLifelineResolve (q : Nat) (young : Bool)
  /-- SYNC (R205). SYNC acts as barrier, release or acquire per MOD. -/
  | sync (a : SI)
  /-- SYNC_ACQUIRE_MET (R205). A SYNC acquire ends when its polled element reaches IMM. -/
  | syncAcquireMet (a : SI)
  /-- WROW (R206). WROW waits for a row of a channel and writes its status. -/
  | wrow (a : SI)
  /-- WROW_ROW_READY (R206). The awaited row is released or dropped and WROW writes its status and completes. -/
  | wrowRowReady (a : SI)
  /-- LOAD_DATA_ARRIVAL (R283). A hook load's data arrives and is written into its destination register. -/
  | loadDataArrival (core : Nat) (thr : Nat) (k : Nat)
  /-- STORE_BUFFER_DRAIN (R292). The oldest store-buffer entry of a thread drains to its target. -/
  | storeBufferDrain (core : Nat) (thr : Nat)
  /-- SWI_WRITE (R297). A write of HKC_SWI sets the pending bit of vector 64-255. -/
  | swiWrite (who : Who) (c : Nat) (v : Word)
  /-- INTERRUPT_ENTRY (R298). A pending enabled request above the thread's level is entered: bank switch, frame
  push, vector fetch. -/
  | interruptEntry (core : Nat) (thr : Nat) (abandoned : Bool)
  /-- FAULT_ENTRY (R347). A synchronous fault is entered at the level at which it arose, pushing a frame through
  c15. -/
  | faultEntry (core : Nat) (thr : Nat)
  /-- LIFELINE_ENTRY (R355). An escalation enters the lifeline handler at level 8 in the lifeline bank. -/
  | lifelineEntry (core : Nat) (thr : Nat)
  /-- THREAD_RUN (R278). Writing HKC_Tt_CTRL.RUN = 1 starts a stopped thread at vector 0, level 0. -/
  | threadRun (who : Who) (c : Nat) (t : Nat)
  /-- UNDEFINED_INSTRUCTION (R301). An undefined byte string raises the undefined-instruction fault with no
  effect. -/
  | undefinedInstruction (a : HI)
  /-- NOP (R314). NOP does nothing for one thread-cycle. -/
  | hNop (a : HI)
  /-- ADD (R314). Hook ADD adds two g registers and sets N, Z, C, V. -/
  | hAdd (a : HI) (z : Sz) (rd : Nat) (ra : Nat) (rb : Nat)
  /-- SUB (R314). Hook SUB subtracts two g registers and sets the flags. -/
  | hSub (a : HI) (z : Sz) (rd : Nat) (ra : Nat) (rb : Nat)
  /-- CMP (R314). Hook CMP compares two g registers and sets the flags. -/
  | hCmp (a : HI) (z : Sz) (ra : Nat) (rb : Nat)
  /-- NEG (R247). Hook NEG computes 0 - A. -/
  | hNeg (a : HI) (z : Sz) (rd : Nat) (ra : Nat)
  /-- ABS (R247). Hook ABS computes |A|. -/
  | hAbs (a : HI) (z : Sz) (rd : Nat) (ra : Nat)
  /-- MUL (R315). Hook MUL keeps the low half of the product. -/
  | hMul (a : HI) (z : Sz) (rd : Nat) (ra : Nat) (rb : Nat)
  /-- MULH (R315). Hook MULH returns the signed high half of the product. -/
  | hMulh (a : HI) (z : Sz) (rd : Nat) (ra : Nat) (rb : Nat)
  /-- MULHU (R315). Hook MULHU returns the unsigned high half of the product. -/
  | hMulhu (a : HI) (z : Sz) (rd : Nat) (ra : Nat) (rb : Nat)
  /-- DIV (R248). Hook DIV divides signed, truncating toward zero. -/
  | hDiv (a : HI) (z : Sz) (rd : Nat) (ra : Nat) (rb : Nat)
  /-- DIVU (R248). Hook DIVU divides unsigned. -/
  | hDivu (a : HI) (z : Sz) (rd : Nat) (ra : Nat) (rb : Nat)
  /-- REM (R248). Hook REM returns the signed remainder. -/
  | hRem (a : HI) (z : Sz) (rd : Nat) (ra : Nat) (rb : Nat)
  /-- REMU (R248). Hook REMU returns the unsigned remainder. -/
  | hRemu (a : HI) (z : Sz) (rd : Nat) (ra : Nat) (rb : Nat)
  /-- MIN (R314). Hook MIN returns the signed minimum. -/
  | hMin (a : HI) (z : Sz) (rd : Nat) (ra : Nat) (rb : Nat)
  /-- MAX (R314). Hook MAX returns the signed maximum. -/
  | hMax (a : HI) (z : Sz) (rd : Nat) (ra : Nat) (rb : Nat)
  /-- MINU (R314). Hook MINU returns the unsigned minimum. -/
  | hMinu (a : HI) (z : Sz) (rd : Nat) (ra : Nat) (rb : Nat)
  /-- MAXU (R314). Hook MAXU returns the unsigned maximum. -/
  | hMaxu (a : HI) (z : Sz) (rd : Nat) (ra : Nat) (rb : Nat)
  /-- AND (R314). Hook AND of two g registers. -/
  | hAnd (a : HI) (z : Sz) (rd : Nat) (ra : Nat) (rb : Nat)
  /-- OR (R314). Hook OR of two g registers. -/
  | hOr (a : HI) (z : Sz) (rd : Nat) (ra : Nat) (rb : Nat)
  /-- XOR (R314). Hook XOR of two g registers. -/
  | hXor (a : HI) (z : Sz) (rd : Nat) (ra : Nat) (rb : Nat)
  /-- ANDN (R314). Hook ANDN computes A & ~B. -/
  | hAndn (a : HI) (z : Sz) (rd : Nat) (ra : Nat) (rb : Nat)
  /-- NOT (R314). Hook NOT inverts A and leaves the flags unchanged. -/
  | hNot (a : HI) (z : Sz) (rd : Nat) (ra : Nat)
  /-- SHL (R250). Hook SHL shifts left by a register count. -/
  | hShl (a : HI) (z : Sz) (rd : Nat) (ra : Nat) (rb : Nat)
  /-- SHR (R250). Hook SHR shifts right logically by a register count. -/
  | hShr (a : HI) (z : Sz) (rd : Nat) (ra : Nat) (rb : Nat)
  /-- SAR (R250). Hook SAR shifts right arithmetically by a register count. -/
  | hSar (a : HI) (z : Sz) (rd : Nat) (ra : Nat) (rb : Nat)
  /-- ROL (R250). Hook ROL rotates left by a register count. -/
  | hRol (a : HI) (z : Sz) (rd : Nat) (ra : Nat) (rb : Nat)
  /-- ROR (R250). Hook ROR rotates right by a register count. -/
  | hRor (a : HI) (z : Sz) (rd : Nat) (ra : Nat) (rb : Nat)
  /-- POPC (R314). Hook POPC counts 1 bits. -/
  | hPopc (a : HI) (z : Sz) (rd : Nat) (ra : Nat)
  /-- CLZ (R314). Hook CLZ counts leading 0 bits. -/
  | hClz (a : HI) (z : Sz) (rd : Nat) (ra : Nat)
  /-- QADD (R245). Hook QADD adds with signed saturation. -/
  | hQadd (a : HI) (z : Sz) (rd : Nat) (ra : Nat) (rb : Nat)
  /-- QADDU (R245). Hook QADDU adds with unsigned saturation. -/
  | hQaddu (a : HI) (z : Sz) (rd : Nat) (ra : Nat) (rb : Nat)
  /-- QSUB (R245). Hook QSUB subtracts with signed saturation. -/
  | hQsub (a : HI) (z : Sz) (rd : Nat) (ra : Nat) (rb : Nat)
  /-- QSUBU (R245). Hook QSUBU subtracts with unsigned saturation. -/
  | hQsubu (a : HI) (z : Sz) (rd : Nat) (ra : Nat) (rb : Nat)
  /-- ADDI (R314). Hook ADDI adds an immediate. -/
  | hAddi (a : HI) (z : Sz) (rd : Nat) (ra : Nat) (imm : DWord)
  /-- CMPI (R314). Hook CMPI compares with an immediate. -/
  | hCmpi (a : HI) (z : Sz) (ra : Nat) (imm : DWord)
  /-- ANDI (R314). Hook ANDI ANDs with an immediate. -/
  | hAndi (a : HI) (z : Sz) (rd : Nat) (ra : Nat) (imm : DWord)
  /-- ORI (R314). Hook ORI ORs with an immediate. -/
  | hOri (a : HI) (z : Sz) (rd : Nat) (ra : Nat) (imm : DWord)
  /-- XORI (R314). Hook XORI XORs with an immediate. -/
  | hXori (a : HI) (z : Sz) (rd : Nat) (ra : Nat) (imm : DWord)
  /-- SHLI (R250). Hook SHLI shifts left by an immediate. -/
  | hShli (a : HI) (z : Sz) (rd : Nat) (ra : Nat) (n : Nat)
  /-- SHRI (R250). Hook SHRI shifts right logically by an immediate. -/
  | hShri (a : HI) (z : Sz) (rd : Nat) (ra : Nat) (n : Nat)
  /-- SARI (R250). Hook SARI shifts right arithmetically by an immediate. -/
  | hSari (a : HI) (z : Sz) (rd : Nat) (ra : Nat) (n : Nat)
  /-- ROLI (R250). Hook ROLI rotates left by an immediate. -/
  | hRoli (a : HI) (z : Sz) (rd : Nat) (ra : Nat) (n : Nat)
  /-- RORI (R250). Hook RORI rotates right by an immediate. -/
  | hRori (a : HI) (z : Sz) (rd : Nat) (ra : Nat) (n : Nat)
  /-- MULI (R315). Hook MULI multiplies by an immediate. -/
  | hMuli (a : HI) (z : Sz) (rd : Nat) (ra : Nat) (imm : DWord)
  /-- MOVI (R314). Hook MOVI loads an immediate into a g register. -/
  | hMovi (a : HI) (z : Sz) (rd : Nat) (imm : DWord)
  /-- MOV (R314). Hook MOV copies between register pairs, tag included for c-c. -/
  | hMov (a : HI) (k : MovKind) (d : Nat) (n : Nat)
  /-- CSEL (R320). Hook CSEL selects one of two registers by a condition. -/
  | hCsel (a : HI) (z : Sz) (rd : Nat) (ra : Nat) (rb : Nat) (cc : Nat)
  /-- SEXT (R314). Hook SEXT sign-extends from size s to 64 bits. -/
  | hSext (a : HI) (z : Sz) (rd : Nat) (ra : Nat)
  /-- ZEXT (R314). Hook ZEXT zero-extends from size s to 64 bits. -/
  | hZext (a : HI) (z : Sz) (rd : Nat) (ra : Nat)
  /-- LD (R310). Hook LD loads s bytes zero-extended, after the checks of R308. -/
  | hLd (a : HI) (z : Sz) (rd : Nat) (m : MOp)
  /-- LDS (R310). Hook LDS loads s bytes sign-extended. -/
  | hLds (a : HI) (z : Sz) (rd : Nat) (m : MOp)
  /-- ST (R310). Hook ST stores the low s bytes through the store buffer. -/
  | hSt (a : HI) (z : Sz) (rs : Nat) (m : MOp)
  /-- STI (R310). Hook STI stores an immediate. -/
  | hSti (a : HI) (z : Sz) (m : MOp) (imm : DWord)
  /-- LDF (R310). Hook LDF loads a floating-point value into an f register. -/
  | hLdf (a : HI) (z : Sz) (fd : Nat) (m : MOp)
  /-- STF (R310). Hook STF stores a floating-point value. -/
  | hStf (a : HI) (z : Sz) (fs : Nat) (m : MOp)
  /-- LDC (R311). Hook LDC loads 16 bytes and the tag. -/
  | hLdc (a : HI) (cd : Nat) (m : MOp)
  /-- STC (R311). Hook STC stores 16 bytes and the tag. -/
  | hStc (a : HI) (cs : Nat) (m : MOp)
  /-- LEA (R310). Hook LEA sets a capability's address to EA without access. -/
  | hLea (a : HI) (cd : Nat) (m : MOp)
  /-- LDV (R369). Hook LDV loads VL bits into a register vector. -/
  | hLdv (a : HI) (vl : VLen) (vd : Nat) (m : MOp)
  /-- STV (R369). Hook STV stores VL bits of a register vector. -/
  | hStv (a : HI) (vl : VLen) (vs : Nat) (m : MOp)
  /-- GATHV (R370). Hook GATHV gathers elements into a staging buffer and writes the vector when all arrive. -/
  | hGathv (a : HI) (z : Sz) (vl : VLen) (vd : Nat) (m : MOp) (vx : Nat)
  /-- CAS (R312). Hook CAS performs an indivisible compare and swap on TCM or working SRAM. -/
  | hCas (a : HI) (z : Sz) (rd : Nat) (rs : Nat) (m : MOp)
  /-- BR (R319). Hook BR branches unconditionally. -/
  | hBr (a : HI) (rel : DWord)
  /-- BCC (R319). Hook Bcc branches on a condition. -/
  | hBcc (a : HI) (cc : Nat) (rel : DWord)
  /-- CALL (R320). Hook CALL writes c14 and pushes the return address through SSCAP. -/
  | hCall (a : HI) (rel : DWord)
  /-- CALLR (R320). Hook CALLR calls through a c register and pushes the return address. -/
  | hCallr (a : HI) (cn : Nat)
  /-- JR (R319). Hook JR installs a c register as PCAP. -/
  | hJr (a : HI) (cn : Nat)
  /-- RET (R320). Hook RET pops and compares the shadow return address, raising control flow on mismatch. -/
  | hRet (a : HI)
  /-- CBZ (R319). Hook CBZ branches when a g register is zero. -/
  | hCbz (a : HI) (rn : Nat) (rel : DWord)
  /-- CBNZ (R319). Hook CBNZ branches when a g register is non-zero. -/
  | hCbnz (a : HI) (rn : Nat) (rel : DWord)
  /-- CGETA (R338). Hook CGETA reads a capability's address. -/
  | hCgeta (a : HI) (rd : Nat) (cs : Nat)
  /-- CGETB (R338). Hook CGETB reads a capability's base. -/
  | hCgetb (a : HI) (rd : Nat) (cs : Nat)
  /-- CGETL (R338). Hook CGETL reads a capability's length. -/
  | hCgetl (a : HI) (rd : Nat) (cs : Nat)
  /-- CGETP (R338). Hook CGETP reads a capability's permissions. -/
  | hCgetp (a : HI) (rd : Nat) (cs : Nat)
  /-- CGETT (R338). Hook CGETT reads a capability's tag. -/
  | hCgett (a : HI) (rd : Nat) (cs : Nat)
  /-- CSETA (R337). Hook CSETA sets a capability's address under the address-setting rule. -/
  | hCseta (a : HI) (cd : Nat) (cs : Nat) (rg : Nat)
  /-- CINC (R337). Hook CINC adds to a capability's address. -/
  | hCinc (a : HI) (cd : Nat) (cs : Nat) (rg : Nat)
  /-- CSETB (R338). Hook CSETB sets rounded bounds from a capability's address. -/
  | hCsetb (a : HI) (cd : Nat) (cs : Nat) (rg : Nat)
  /-- CANDP (R338). Hook CANDP ANDs a capability's permissions. -/
  | hCandp (a : HI) (cd : Nat) (cs : Nat) (rg : Nat)
  /-- CSEAL (R338). Hook CSEAL seals a capability with an object type. -/
  | hCseal (a : HI) (cd : Nat) (cs : Nat) (ct : Nat)
  /-- CUNSEAL (R338). Hook CUNSEAL unseals a capability. -/
  | hCunseal (a : HI) (cd : Nat) (cs : Nat) (ct : Nat)
  /-- CCLRT (R338). Hook CCLRT copies a capability with tag 0. -/
  | hCclrt (a : HI) (cd : Nat) (cs : Nat)
  /-- CTEST (R338). Hook CTEST tests whether one capability is a subset of another. -/
  | hCtest (a : HI) (rd : Nat) (ca : Nat) (cb : Nat)
  /-- FADD (R316). Hook FADD adds floating-point values. -/
  | hFadd (a : HI) (m : Fmt) (fd : Nat) (fa : Nat) (fb : Nat)
  /-- FSUB (R316). Hook FSUB subtracts floating-point values. -/
  | hFsub (a : HI) (m : Fmt) (fd : Nat) (fa : Nat) (fb : Nat)
  /-- FMUL (R316). Hook FMUL multiplies floating-point values. -/
  | hFmul (a : HI) (m : Fmt) (fd : Nat) (fa : Nat) (fb : Nat)
  /-- FDIV (R316). Hook FDIV divides floating-point values. -/
  | hFdiv (a : HI) (m : Fmt) (fd : Nat) (fa : Nat) (fb : Nat)
  /-- FSQRT (R316). Hook FSQRT takes the floating-point square root. -/
  | hFsqrt (a : HI) (m : Fmt) (fd : Nat) (fa : Nat)
  /-- FMA (R316). Hook FMA computes A x B + C with one rounding. -/
  | hFma (a : HI) (m : Fmt) (fd : Nat) (fa : Nat) (fb : Nat) (fc : Nat)
  /-- FMS (R316). Hook FMS computes A x B - C with one rounding. -/
  | hFms (a : HI) (m : Fmt) (fd : Nat) (fa : Nat) (fb : Nat) (fc : Nat)
  /-- FNMA (R316). Hook FNMA computes -(A x B) + C with one rounding. -/
  | hFnma (a : HI) (m : Fmt) (fd : Nat) (fa : Nat) (fb : Nat) (fc : Nat)
  /-- FMIN (R316). Hook FMIN returns minimumNumber. -/
  | hFmin (a : HI) (m : Fmt) (fd : Nat) (fa : Nat) (fb : Nat)
  /-- FMAX (R316). Hook FMAX returns maximumNumber. -/
  | hFmax (a : HI) (m : Fmt) (fd : Nat) (fa : Nat) (fb : Nat)
  /-- FCMP (R252). Hook FCMP compares quietly and sets Z, N, C, V. -/
  | hFcmp (a : HI) (m : Fmt) (fa : Nat) (fb : Nat)
  /-- FCMPS (R252). Hook FCMPS compares signalling and sets Z, N, C, V. -/
  | hFcmps (a : HI) (m : Fmt) (fa : Nat) (fb : Nat)
  /-- FCVT (R271). Hook FCVT converts between floating-point formats. -/
  | hFcvt (a : HI) (m : Fmt) (fd : Nat) (fa : Nat) (g : Fmt)
  /-- FCVTI (R272). Hook FCVTI converts floating point to an integer. -/
  | hFcvti (a : HI) (rd : Nat) (fa : Nat) (g : Fmt) (z : Sz) (sg : Bool) (sat : Bool)
  /-- ICVTF (R273). Hook ICVTF converts an integer to floating point. -/
  | hIcvtf (a : HI) (m : Fmt) (fd : Nat) (ra : Nat) (z : Sz) (sg : Bool)
  /-- FSGN (R316). Hook FSGN copies, negates or takes the absolute value. -/
  | hFsgn (a : HI) (m : Fmt) (fd : Nat) (fa : Nat) (mode : Nat)
  /-- BMOV (R326). Hook BMOV moves elements upward, repeated under RPT. -/
  | hBmov (a : HI) (z : Sz) (rep : Rpt) (cap : Nat) (steps : Nat)
  /-- BFILL (R326). Hook BFILL fills elements with g4. -/
  | hBfill (a : HI) (z : Sz) (rep : Rpt) (cap : Nat) (steps : Nat)
  /-- BCMP (R326). Hook BCMP compares elements of two ranges. -/
  | hBcmp (a : HI) (z : Sz) (rep : Rpt) (cap : Nat) (steps : Nat)
  /-- BSCAN (R326). Hook BSCAN compares elements against g4. -/
  | hBscan (a : HI) (z : Sz) (rep : Rpt) (cap : Nat) (steps : Nat)
  /-- BMOVD (R326). Hook BMOVD moves elements downward. -/
  | hBmovd (a : HI) (z : Sz) (rep : Rpt) (cap : Nat) (steps : Nat)
  /-- QMUL (R245). Hook QMUL multiplies with signed saturation. -/
  | hQmul (a : HI) (z : Sz) (rd : Nat) (ra : Nat) (rb : Nat)
  /-- QMULU (R245). Hook QMULU multiplies with unsigned saturation. -/
  | hQmulu (a : HI) (z : Sz) (rd : Nat) (ra : Nat) (rb : Nat)
  /-- QNEG (R247). Hook QNEG negates with signed saturation. -/
  | hQneg (a : HI) (z : Sz) (rd : Nat) (ra : Nat)
  /-- QNEGU (R247). Hook QNEGU negates with unsigned saturation. -/
  | hQnegu (a : HI) (z : Sz) (rd : Nat) (ra : Nat)
  /-- QABS (R247). Hook QABS takes the absolute value with saturation. -/
  | hQabs (a : HI) (z : Sz) (rd : Nat) (ra : Nat)
  /-- QDIV (R248). Hook QDIV divides with saturation. -/
  | hQdiv (a : HI) (z : Sz) (rd : Nat) (ra : Nat) (rb : Nat)
  /-- PDADD (R254). Hook PDADD adds packed decimals. -/
  | hPdadd (a : HI) (rd : Nat) (ra : Nat) (rb : Nat)
  /-- PDSUB (R254). Hook PDSUB subtracts packed decimals. -/
  | hPdsub (a : HI) (rd : Nat) (ra : Nat) (rb : Nat)
  /-- REGISTER_VECTOR_INSTRUCTION (R367). An instruction with the vector prefix operates on VL bits and writes
  its destination in its last thread-cycle. -/
  | registerVectorInstruction (a : HI) (op : VOp) (z : Sz) (vl : VLen) (vd : Nat) (va : Nat) (vb : Nat) (vc : Nat)
  /-- IFENCE (R321). IFENCE waits for the store buffer to drain and refetches from the next instruction. -/
  | hIfence (a : HI)
  /-- FENCE (R321). FENCE waits until every buffered store has reached its target. -/
  | hFence (a : HI)
  /-- WOPEN (R286). WOPEN opens a register window, spilling the oldest when RES = 5. -/
  | hWopen (a : HI)
  /-- WCLOSE (R286). WCLOSE closes a register window, filling the caller's when RES = 1. -/
  | hWclose (a : HI)
  /-- MFS (R322). MFS reads a system register. -/
  | hMfs (a : HI) (d : Nat) (r : SReg)
  /-- MTS (R323). MTS writes a system register, effective for its next use. -/
  | hMts (a : HI) (r : SReg) (n : Nat)
  /-- RETX (R354). RETX checks the frame and returns from an exception, or raises Return Integrity. -/
  | hRetx (a : HI)
  /-- SCALL (R359). SCALL enters gate n, lending its code and data capabilities. -/
  | hScall (a : HI) (n : Nat)
  /-- SRET (R361). SRET returns from a gate call and withdraws the data capability. -/
  | hSret (a : HI)
  /-- WAIT (R324). WAIT makes the thread idle until an interrupt above its level is pending. -/
  | hWait (a : HI)
  /-- SPLIT (R325). SPLIT is a barrier across the four threads that splits the voted complex. -/
  | hSplit (a : HI)
  /-- SPLIT_COMPLETE (R386). 16 thread-cycles after the fourth arrival the split completes and cores 1 and 2
  start at their gates. -/
  | splitComplete
  /-- MERGE (R325). MERGE is a barrier across all twelve threads of the split cores. -/
  | hMerge (a : HI)
  /-- MERGE_COMPLETE (R387). 4,096 hook cycles after the twelfth arrival the cores are merged with core 0's
  state and voting resumes. -/
  | mergeComplete
  /-- BRK (R321). BRK raises the breakpoint exception. -/
  | hBrk (a : HI) (imm : Nat)
  /-- FPST_READ (R373). A thread's load of its own HKC_Tt_FPST waits for outstanding f and v loads. -/
  | fpstRead (a : HI) (rd : Nat) (m : MOp)
  /-- DIRTY_CLEAR (R372). A write of 1 to DIRTY bits of HKC_Tt_FPST clears them when it reaches the register. -/
  | dirtyClear (who : Who) (c : Nat) (t : Nat) (v : Byte)
  /-- DROPPED_STITCH (R380). A minority core's disagreement is discarded, recorded and resynchronisation starts.
  -/
  | droppedStitch (core : Nat) (point : Nat) (thr : Nat) (addr : Nat)
  /-- RESYNC_SWEEP_END (R380). The register sweep from core M to the minority core completes. -/
  | resyncSweepEnd
  /-- RESYNC_JOIN (R380). Each thread of the minority core joins and the core re-enters the vote. -/
  | resyncJoin
  /-- RESYNC_TIMEOUT (R381). A resynchronisation not ended within 2,048 hook cycles holds the core in reset and
  sets DEGRADED. -/
  | resyncTimeout
  /-- NO_MAJORITY (R382). A disagreement without majority performs no commit, clears ARMED and resets the hook
  complex. -/
  | noMajority (point : Nat) (thr : Nat) (addr : Nat)
  /-- VOTER_SELF_TEST (R383). Writing VOT_STEST.GO runs the 18 voter self-test cases. -/
  | voterSelfTest (who : Who)
  /-- RESYNC_COMMAND (R381). Writing VOT_CMD.RESYNC starts resynchronisation of the held core. -/
  | resyncCommand (who : Who)
  /-- CHECKED_MISMATCH (R390). A failed pair compare frogs lifelines, re-pairs beds by migration and tinks. -/
  | checkedMismatch (q : Nat) (young : Bool) (k : Nat) (pos : Nat) (elem : Nat)
  /-- CHECK_MARK_EXPIRY (R391). The mark of a mismatched bed clears VOT_CHKWIN seconds later. -/
  | checkMarkExpiry (b : Nat)
  /-- DROPPED_STITCH_POP (R392). A read of VOT_DS_POP returns the entry count and pops the head record. -/
  | droppedStitchPop (who : Who)
  /-- CAST_ON_STAGE_0 (R393). Stage 0: supplies good, reference locked, fuses sensed, Kethar self-test. -/
  | castOnStage0 (ok : Bool)
  /-- CAST_ON_STAGE_1 (R393). Stage 1: boot ROM starts, voter self-test, TCM and working SRAM cleared. -/
  | castOnStage1 (sramOk : Bool) (fail : Option Nat)
  /-- CAST_ON_STAGE_2 (R393). Stage 2: boot flash reset, SFDP read, headers read. -/
  | castOnStage2 (mode : FlashMode) (size : Nat) (erase : Nat) (image : Option (List (Nat × Byte)))
  /-- CAST_ON_STAGE_3 (R393). Stage 3: firmware image read and verified, with fallback to the other header. -/
  | castOnStage3
  /-- CAST_ON_STAGE_4 (R393). Stage 4: repair map applied and repaired elements tested. -/
  | castOnStage4 (fails : List (Nat × Nat × Nat))
  /-- CAST_ON_STAGE_5 (R417). Stage 5: microcode patch verified and decrypted into the shadow, then LOCK set. -/
  | castOnStage5
  /-- CAST_ON_STAGE_6 (R393). Stage 6: DDR sideband read, population checked, channels trained. -/
  | castOnStage6 (refused : Bool) (mask : Nat) (untrained : Nat) (dpc : Nat) (speed : Nat) (x4 : Bool) (capacity : Nat)
  /-- CAST_ON_STAGE_7 (R393). Stage 7: beds and stash leave reset, patch copied, initial gauge. -/
  | castOnStage7 (ms : List BedMeas) (stash : Nat) (extra : Nat) (slack : List (Nat × Nat))
  /-- CAST_ON_STAGE_8 (R393). Stage 8: hand-over to firmware, which brings up the dictionary and network. -/
  | castOnStage8
  /-- STAGE_WATCHDOG (R395). A stage watchdog expiry resets the hook complex and restarts cast-on, or ends in
  SAFE on a second expiry. -/
  | stageWatchdog
  /-- CASTON_DONE (R393). Firmware writes TMO_CASTON.DONE, ending stage 8 and cast-on in IDLE. -/
  | castonDone (who : Who)
  /-- MICROCODE_FAULT (R414). A microcode fault stops the bed and starts a hardware migration as a bed request
  timeout. -/
  | microcodeFault (b : Nat) (uaddr : Nat)
  /-- BED_WAKE (R483). A gated bed is woken from clock or power gating. -/
  | bedWake (b : Nat)
  /-- CLOCK_GATE (R483). A set idle for 64 bed cycles is clock-gated. -/
  | clockGate (n : Nat)
  /-- UC_LOCK (R417). Writing BED_UC_CTRL.LOCK locks the patch shadow. -/
  | ucLock (who : Who)
  /-- REMAP_SET (R464). A System store of MTX_REMAP.REMAP = 1 maps working SRAM at address 0. -/
  | remapSet (who : Who)
  /-- FOE_WRITE (R462). An FoE write to a program slot is held and verified, or stored to flash in SAFE. -/
  | foeWrite (file : Nat) (data : List Byte)
  /-- FOE_READ (R444). An FoE read returns a program slot's image. -/
  | foeRead (file : Nat)
  /-- VERIFY_PLY (R425). The Kethar operation verifies a ply container and extends measurement register 3. -/
  | verifyPly (who : Who)
  /-- VERIFY_DOMAIN (R425). The Kethar operation verifies a DOMAIN container and extends measurement register 6.
  -/
  | verifyDomain (who : Who)
  /-- ATTEST (R439). The Kethar operation signs an attestation report under the open level-1 tree. -/
  | attest (who : Who)
  /-- SIGN (R435). The Kethar operation signs a firmware digest with a level-1 leaf. -/
  | sign (who : Who)
  /-- SIGN_REPAIR (R436). The Kethar operation signs a field repair container with the device identity. -/
  | signRepair (who : Who)
  /-- OPEN (R429). The Kethar operation burns a boot-counter bit and opens a level-1 tree. -/
  | kthOpen (who : Who)
  /-- REKEY (R434). The Kethar operation opens a new level-1 tree while the old one keeps signing. -/
  | rekey (who : Who)
  /-- TREE_GENERATION_END (R431). Background level-1 tree generation ends and the path check and level-0
  signature follow. -/
  | treeGenerationEnd
  /-- CHALLENGE (R441). The Kethar operation writes a fresh unlock challenge to KTH_CHAL. -/
  | challenge (who : Who)
  /-- UNLOCK (R441). The Kethar operation checks an unlock response and opens debug scope, consuming the
  challenge. -/
  | unlock (who : Who)
  /-- KEYOP (R424). The Kethar operation programs or revokes a key slot fuse. -/
  | keyop (who : Who)
  /-- PATH_DONE (R438). The Kethar operation takes the written KTH_PATH nodes for the pending leaf. -/
  | pathDone (who : Who)
  /-- KETHAR_TIMEOUT (R443). An operation exceeding its timeout is abandoned with error TIMEOUT. -/
  | ketharTimeout
  /-- JTAG_KUNLOCK (R441). An unlock response arrives through the KUNLOCK JTAG data register. -/
  | jtagKunlock (bs : List Byte)
  /-- ATTESTATION_COMMAND (R440). Command 1 of 0x2800:05 requests an attestation report. -/
  | attestationCommand (path : Path)
  /-- REKEY_COMMAND (R434). Command 2 of 0x2800:05 requests a REKEY. -/
  | rekeyCommand (path : Path)
  /-- CHALLENGE_COMMAND (R441). Command 3 of 0x2800:05 requests a new challenge. -/
  | challengeCommand (path : Path)
  /-- UNLOCK_RESPONSE (R441). A write of 0x2800:0A delivers an unlock response. -/
  | unlockResponse (path : Path) (data : List Byte)
  /-- SDO_DOWNLOAD (R453). A dictionary write is checked in order and applied or aborted. -/
  | sdoDownload (path : Path) (idx : Nat) (sub : Nat) (ca : Bool) (data : List Byte)
  /-- SDO_UPLOAD (R452). A dictionary read request returns the object's value. -/
  | sdoUpload (path : Path) (idx : Nat) (sub : Nat) (ca : Bool)
  /-- HOST_MAILBOX_GO (R452). Setting PCI_DMB_CMD.GO submits a host dictionary request, or sets REFUSED while
  BUSY. -/
  | hostMailboxGo (who : Who) (v : Word)
  /-- PDO_MAP_WRITE (R449). A PDO map or assignment write in PREOP is checked and applied. -/
  | pdoMapWrite (path : Path) (idx : Nat) (sub : Nat) (ca : Bool) (data : List Byte)
  /-- INIT_TO_PREOP (R446). The ESM moves to PREOP and CoE and FoE are served. -/
  | initToPreop (smOk : Bool)
  /-- PREOP_TO_SAFEOP (R446). The ESM moves to SAFEOP after checking maps, and enabled channels enter RUN. -/
  | preopToSafeop (dcOk : Bool)
  /-- SAFEOP_TO_OP (R446). The ESM moves to OP, RxPDO takes effect and outputs may be armed. -/
  | safeopToOp
  /-- OP_TO_SAFEOP (R446). A requested fall to SAFEOP holds RxPDO values and optionally disarms. -/
  | opToSafeop
  /-- SM2_WATCHDOG (R446). The SM2 watchdog drops the ESM to SAFEOP and each channel applies its fieldbus-loss
  policy. -/
  | sm2Watchdog
  /-- DEVICE_BINDOFF (R446). A fall to PREOP or INIT binds off every channel and output, then disarms. -/
  | deviceBindoff (t : Nat)
  /-- DEVICE_BINDOFF_END (R446). The device bind-off ends and the AL state changes. -/
  | deviceBindoffEnd
  /-- INIT_TO_BOOT (R446). The ESM moves to BOOT in SAFE, else is refused. -/
  | initToBoot
  /-- INPUT_LATCH (R450). Inputs are latched into the TxPDO and result words copied. -/
  | inputLatch
  /-- SM2_EVENT (R29). At the SM2 event received PDO data takes effect. -/
  | sm2Event (data : List Byte)
  /-- DEVICE_BINDOFF_COMMAND (R447). Command 1 of 0x2000:02 starts a device bind-off without an ESM change. -/
  | deviceBindoffCommand (path : Path)
  /-- COLD_RESET_COMMAND (R509). Command 2 of 0x2000:02 starts a cold reset. -/
  | coldResetCommand (path : Path)
  /-- WARM_RESET_COMMAND (R509). Command 3 of 0x2000:02 starts a warm reset. -/
  | warmResetCommand (path : Path)
  /-- ARM_COMMAND (R446). Command 4 of 0x2000:02 arms the outputs under the SAFEOP to OP conditions. -/
  | armCommand (path : Path)
  /-- DISARM_COMMAND (R446). Command 5 of 0x2000:02 disarms the outputs. -/
  | disarmCommand (path : Path)
  /-- CHANNEL_ENABLE (R458). A write of 0x2100+n:01 runs the channel checks and enables or binds off the
  channel. -/
  | channelEnable (path : Path) (n : Nat) (v : Nat)
  /-- CAMERA_MAP_WRITE (R459). Writing a camera map programs the camera entries it names. -/
  | cameraMapWrite (path : Path) (n : Nat) (data : List Byte)
  /-- BED_MAP_WRITE (R460). A bed-set map write applies at once or starts a migration. -/
  | bedMapWrite (path : Path) (b : Nat) (v : Nat)
  /-- QUEUE_ENTRY_WRITE (R30). A 0x2240 write binds off the queue and applies its new entry. -/
  | queueEntryWrite (path : Path) (q : Nat) (v : Nat)
  /-- GAUGE_BED_COMMAND (R494). Command 1 of 0x2300:03 measures the selected bed now. -/
  | gaugeBedCommand (path : Path)
  /-- REPLAN_BED (R493). Command 1 of 0x2310:04 re-plans one bed. -/
  | replanBed (path : Path)
  /-- REPLAN_ALL (R493). Command 2 of 0x2310:04 re-plans all beds. -/
  | replanAll (path : Path)
  /-- RECORD_FIELD_REPAIRS (R502). Command 1 of 0x2320:06 builds, signs and stores a field repair record. -/
  | recordFieldRepairs (path : Path)
  /-- DISCARD_FIELD_RECORDS (R502). Command 2 of 0x2320:06 stores a header without field records. -/
  | discardFieldRecords (path : Path)
  /-- ENTER_STANDBY (R484). Command 1 of 0x2700:02 enters standby from device IDLE. -/
  | enterStandby (path : Path)
  /-- RETURN_TO_SERVICE (R486). Command 2 of 0x2700:02 leaves standby. -/
  | returnToService (path : Path)
  /-- CLEAR_COUNTERS (R461). Writing 1 to 0x2900:20 clears every counter. -/
  | clearCounters (path : Path)
  /-- COUNTER_POLL (R461). Firmware reads the rsc registers at least every 100 ms into the 0x2900 counters. -/
  | counterPoll
  /-- SLOT_IMAGE_WRITE (R462). A DOMAIN download to 0x3000+s:01 is held and verified. -/
  | slotImageWrite (path : Path) (k : Nat) (data : List Byte)
  /-- VERIFY_AGAIN (R462). Command 1 of a program slot verifies its image again. -/
  | verifyAgain (path : Path) (k : Nat)
  /-- STORE_TO_FLASH (R404). Command 2 of a program slot stores a verified image to flash. -/
  | storeToFlash (path : Path) (k : Nat)
  /-- CLEAR_SLOT (R462). Command 3 of a program slot clears it. -/
  | clearSlot (path : Path) (k : Nat)
  /-- HOST_BAR0_WRITE (R471). A host BAR0 write is performed if in the host write set, else discarded and
  counted. -/
  | hostBar0Write (fn : Nat) (off : Nat) (v : Word) (full : Bool)
  /-- HOST_BAR0_READ (R471). A host BAR0 read returns a register, or 0 with no effect for side-effect registers.
  -/
  | hostBar0Read (fn : Nat) (off : Nat) (full : Bool)
  /-- HOST_BAR2_ACCESS (R470). A host BAR2 access reaches the stash under the BAR2 handle's checks. -/
  | hostBar2Access (off : Nat) (n : Nat) (wr : Bool) (data : List Byte)
  /-- HOST_BAR4_ACCESS (R470). A host BAR4 access reaches DDR under the BAR4 handle's checks. -/
  | hostBar4Access (fn : Nat) (off : Nat) (n : Nat) (wr : Bool) (data : List Byte)
  /-- DMA_TAIL_WRITE (R476). Advancing PCI_DMAc_TAIL gives the channel descriptors to process. -/
  | dmaTailWrite (who : Who) (c : Nat) (v : Word)
  /-- DMA_DESCRIPTOR_DONE (R476). A DMA descriptor ends with a status, HEAD is written back and the channel may
  halt. -/
  | dmaDescriptorDone (c : Nat) (d : List Byte) (data : List Byte) (ok : Bool)
  /-- DMA_HALT_CLEAR (R476). Clearing PCI_DMAc_STAT.HALT resumes the channel at the next descriptor. -/
  | dmaHaltClear (who : Who) (c : Nat)
  /-- HANDLE_FENCE (R475). Writing PCI_HFENCE.GO starts dropping cached handle entries. -/
  | handleFence (who : Who)
  /-- HANDLE_FENCE_DONE (R475). The handle fence completes and FDONE reads 1. -/
  | handleFenceDone
  /-- RESULT_RECORD_COPY (R477). After an instance's writes are acknowledged its result entry is copied to the
  host ring. -/
  | resultRecordCopy (r : Nat)
  /-- RESULT_RING_CONS_WRITE (R478). A host write of PCI_RRr_CONS frees host ring entries for held rows. -/
  | resultRingConsWrite (who : Who) (r : Nat) (v : Word)
  /-- MSIX_UNMASK (R473). Unmasking a vector with its pending bit set signals it. -/
  | msixUnmask (who : Who) (k : Nat)
  /-- FUNCTION_LEVEL_RESET (R480). A function-level reset cuts the function's host queues and resets its
  resources. -/
  | functionLevelReset (fn : Nat)
  /-- PCIE_PERST (R536). PCIE_PERST_L low holds every function as after a function-level reset. -/
  | pciePerst
  /-- CONTROL_BUS_TIMEOUT (R467). A control-bus transaction reaching its timeout completes with a fault, discard
  or all ones. -/
  | controlBusTimeout (who : Who) (a : Nat) (wr : Bool)
  /-- PCIE_COMPLETION_TIMEOUT (R503). A PCIe completion timeout completes the request in error and halts the DMA
  channel. -/
  | pcieCompletionTimeout (c : Nat) (d : List Byte) (data : List Byte)
  /-- JUNCTION_READ (R491). Every 1 ms each junction sensor is read and band caps updated. -/
  | junctionRead (ts : List (Nat × Int))
  /-- THERMAL_RESTART (R492). When the island's sensor reads below 140 C the device restarts with a cold reset.
  -/
  | thermalRestart
  /-- POWER_CAP_STEP (R496). Every 100 µs package power is computed and F_set lowered or raised by 10 MHz. -/
  | powerCapStep (p : Nat)
  /-- GAUGE_MEASUREMENT (R494). The gauge takes the next bed out of its set and starts its measurement. -/
  | gaugeMeasurement (rings : List (Nat × Nat))
  /-- GAUGE_MEASUREMENT_END (R495). A measurement ends: the bed returns to service or is retired. -/
  | gaugeMeasurementEnd (lows : List Nat) (tm : Int) (needles : List Nat) (ring : Nat)
  /-- GAUGE_GO (R494). Writing GAU_CTRL.GO measures the selected bed next. -/
  | gaugeGo (who : Who) (b : Nat)
  /-- WEB_STOPPED_ENTRY (R484). After the web-stopped delay the device enters web-stopped. -/
  | webStoppedEntry
  /-- WEB_STOPPED_EXIT (R485). A count edge, RUN entry, submission or DDR access starts the wake from web-
  stopped. -/
  | webStoppedExit
  /-- WAKE_COMPLETE (R485). At 5 µs the device is running again and WAKING clears. -/
  | wakeComplete
  /-- STBY (R484). Writing PWR_CTRL.STBY enters standby from device IDLE. -/
  | stby (who : Who)
  /-- WAKE (R486). Writing PWR_CTRL.WAKE starts leaving standby. -/
  | wake (who : Who)
  /-- STANDBY_EXIT_DONE (R486). The return from standby completes and the device is IDLE. -/
  | standbyExitDone (ms : List BedMeas) (stash : Nat) (extra : Nat) (slack : List (Nat × Nat))
  /-- AVS_TRANSACTION_FAIL (R522). Three failed AVSBus transactions set AVSFAIL and hold the rail. -/
  | avsTransactionFail
  /-- AVS_RETRY (R522). Every 100 ms a failed AVSBus transaction is tried again. -/
  | avsRetry (ok : Bool)
  /-- BED_REQUEST_TIMEOUT (R505). A bed request timeout fences the bed and starts a hardware migration. -/
  | bedRequestTimeout (b : Nat)
  /-- THREAD_WATCHDOG (R507). A thread watchdog expiry resets the thread, or the hook complex on a repeat within
  1 s. -/
  | threadWatchdog (core : Nat) (thr : Nat)
  /-- WATCHDOG_KICK (R506). A write of TMO_KICK restarts the writing thread's watchdog. -/
  | watchdogKick (who : Who) (v : Word)
  /-- COLD (R509). TMO_RESET.COLD starts a cold reset. -/
  | cold (who : Who)
  /-- WARM (R509). TMO_RESET.WARM starts a warm reset. -/
  | warm (who : Who)
  /-- HOOK (R509). TMO_RESET.HOOK starts a hook complex reset. -/
  | hook (who : Who)
  /-- CHGO (R512). TMO_RESET.CHGO resets channel CHAN. -/
  | chgo (who : Who) (n : Nat)
  /-- POWER_ON_RESET (R510). A power-on reset reinitialises everything and starts cast-on. -/
  | powerOnReset
  /-- COLD_RESET (R510). A cold reset reinitialises all but the always-on island and starts cast-on. -/
  | coldReset (t : Trig)
  /-- WARM_RESET (R510). A warm reset drains DDR writes into self-refresh and starts cast-on. -/
  | warmReset (t : Trig)
  /-- HOOK_COMPLEX_RESET (R511). A hook complex reset restarts firmware while every other block runs on. -/
  | hookComplexReset (t : Trig)
  /-- CHANNEL_RESET (R512). A channel reset binds off the channel and re-enters RUN with unchanged
  configuration. -/
  | channelReset (n : Nat)
  /-- BED_RESET (R513). BED_b_CTRL.RESET migrates and clears one bed and copies the patch again. -/
  | bedReset (who : Who) (b : Nat)
  /-- THREAD_RESET (R514). A thread reset drains its stores and restarts it at vector 0. -/
  | threadReset (core : Nat) (thr : Nat)
  /-- PORST_L (R526). PORST_L low starts a power-on reset. -/
  | porstL
  /-- SYSRST_L (R526). SYSRST_L low starts a cold reset. -/
  | sysrstL
  /-- SUPPLY_BELOW_THRESHOLD (R526). A supply below its threshold for 2 µs starts a power-on or cold reset. -/
  | supplyBelowThreshold (x : Supply)
  /-- REFCK_LOSS (R527). REFCK absent for 16 periods of 32.768 kHz drives safe levels and starts a cold reset.
  -/
  | refckLoss
  /-- REFCK_RETURN (R527). REFCK present for 1 ms lets cast-on stage 0 start. -/
  | refckReturn
  /-- CORE_EN_RISE (R523). 100 µs after PORST_L rises the device drives CORE_EN high. -/
  | coreEnRise
  /-- SUPPLY_TIMEOUT (R524). A supply not in range 50 ms after CORE_EN drives CORE_EN low and records it. -/
  | supplyTimeout (missing : List Supply)
  /-- CORE_EN_RETRY (R524). 100 ms after a supply timeout CORE_EN is driven high again. -/
  | coreEnRetry
  /-- RECEIVER_LOCKS_AGAIN (R105). A CXP receiver of a down link regains lock, so LOCK reads 1 while the link
  stays down until the next discovery attempt completes. -/
  | receiverLocksAgain (l : Nat)
  /-- KETHAR_OPERATION_END (R419). A Kethar verification, signing, key or challenge operation ends, clearing
  BUSY and setting DONE with ERR, and raising vector 183 or 184. -/
  | ketharOperationEnd (rs : List (Bool × Bool)) (ok : Bool)
  /-- CORE_OVERVOLTAGE (R527). VDD_CORE above 0.90 V for 2 us sets CORE_OV, drives CORE_EN low and starts a cold
  reset. -/
  | coreOvervoltage
  /-- PCIE_LINK_DOWN (R14). The PCI Express link leaves L0, setting LINK_DOWN, stopping host-owned queues and
  raising vector 186. -/
  | pcieLinkDown
  /-- PCIE_LINK_UP (R468). The PCI Express link trains to L0 at a negotiated rate and width, setting UP and
  raising vector 186. -/
  | pcieLinkUp (rate : Nat) (width : Nat)
  /-- PCIE_PERST_RELEASE (R536). PCIE_PERST_L rises, and the functions answer configuration requests with
  Configuration Request Retry Status until PCI_CTRL.EN is set. -/
  | pciePerstRelease
  /-- CONFIGURATION_REQUEST (R536). A host configuration request is answered with Retry Status while EN = 0, or
  performed on the function's configuration space. -/
  | configurationRequest (fn : Nat) (w : Nat) (wr : Bool) (v : Word)
  /-- JTAG_DEBUG_ACCESS (R466). An unlocked JTAG debug access reaches a target within its SCOPE, discarded for
  the boot ROM or the protected firmware window. -/
  | jtagDebugAccess (a : Nat) (n : Nat) (wr : Bool) (data : List Byte)
  /-- DC_SYNC_EVENT (R444). A distributed-clock SYNC0 or SYNC1 pulse raises vector 189 or 190 and updates the
  sync error counts that lead to emergency 0x8700. -/
  | dcSyncEvent (k : Nat) (missed : Bool)
  /-- MAILBOX_PROTOCOL_UNSUPPORTED (R445). A mailbox request of an unsupported protocol is answered with the
  mailbox error protocol not supported. -/
  | mailboxProtocolUnsupported (typ : Nat)
  /-- ECT_PORT_LINK_CHANGE (R444). An EtherCAT port's PHY LINK input changes, and the port opens or closes into
  loopback. -/
  | ectPortLinkChange (port : Nat) (up : Bool)
  /-- INGEST_BINDOFF_TIMEOUT (R108). The bind-off timeout ends a channel's ingest bind-off and finishes every
  row still pending as DROPPED with cause BINDOFF. -/
  | ingestBindoffTimeout (n : Nat)
  /-- RESET_INPUT_RELEASE (R536). PORST_L or SYSRST_L rises after a valid low pulse, the bifurcation straps are
  sampled and the reset hold ends. -/
  | resetInputRelease (por : Bool) (straps : Nat)
  deriving DecidableEq, Repr, Inhabited

end Sys2Proof
end

