-- ==== Sys2Proof/Decode.lean ====
section
/-!
DEFINITION. Sys2Proof/Decode.lean: the command that a word spells. spec/opcode_table.json gives no row any bits, so no word
spells a command. (A ply's 128-bit words are data that admission decodes: Sys2Proof/Machine/Admit.lean.)
-/
namespace Sys2Proof

/-- The command spelled by an `nbits`-bit word: none, for the table gives no row a bit layout. -/
def decodeTableWord (nbits w : Nat) : Option Instr :=
  match nbits, w with
  | _, _ => none

end Sys2Proof
end

