-- ==== Sys2Proof/RegKind.lean ====
section
/-!
DEFINITION. Sys2Proof/RegKind.lean: the kinds of memory-mapped register, one constructor per register name of the register
tables of chapters 02 to 20 of spec/ (a name with an index stands for all its instances), and the shape of a register table.
-/
namespace Sys2Proof

/-- The blocks of the control window, by their prefix (00_scope.md, R463). -/
inductive Block where
  | MTX | TMO | PWR | GAU | RPR | TBS | TIO | STH | DDR | CXP | HKC | VOT | KTH | ECT | BED | PCI | PLQ
  deriving DecidableEq, Repr, Inhabited

/-- A kind of register. -/
inductive RegKind where
  | TBS_CTRL | TBS_STAT | TBS_TIME_LO | TBS_TIME_HI | TBS_OFFSET | TBS_SLEW | TBS_STEP_THR | TBS_SET_LO | TBS_SET_HI
  | TIO_ARM | TIO_ENC_CTRL | TIO_ENC_STAT | TIO_ENC_POS_LO | TIO_ENC_POS_HI | TIO_ENC_SPEED | TIO_CH_CTRL
  | TIO_CH_ROW_LO | TIO_CH_ROW_HI | TIO_CH_DIV | TIO_CH_PERIOD | TIO_CH_SCALE | TIO_CH_PITCH | TIO_CH_OFFSET_LO
  | TIO_CH_OFFSET_HI | TIO_CAP_CTRL | TIO_CAP_STAT | TIO_CAP_TIME_LO | TIO_CAP_TIME_HI | TIO_CAP_ROW_LO
  | TIO_CAP_ROW_HI | TIO_CAP_POS_LO | TIO_CAP_POS_HI | TIO_OUT_CTRL | TIO_OUT_STAT | TIO_OUT_STATION | TIO_OUT_SKEW
  | TIO_OUT_CNT | TIO_OUT_CNT2 | TIO_OUT_EVIN | CXP_LNK_CTRL | CXP_LNK_STAT | CXP_LNK_DELAY | CXP_LNK_HBTO
  | CXP_LNK_ERRS | CXP_LNK_CNT | CXP_CAM_CTRL | CXP_CAM_LINKS | CXP_CAM_TRIG | CXP_CAM_WIDTH | CXP_CAM_TRIM
  | CXP_CAM_DEST | CXP_CAM_TAG | CXP_CH_ICTRL | CXP_CH_ISTAT | CXP_CH_RING_BASE | CXP_CH_RING_SIZE | CXP_CH_WALES
  | CXP_CH_NSLOTS | CXP_CH_CWD | CXP_CH_CONS | CXP_CH_REL_LO | CXP_CH_REL_HI | CXP_CH_DLOG_LO | CXP_CH_DLOG_HI
  | CXP_CH_DLOG_CAUSE | CXP_CH_CNT | CXP_MBX_CMD | CXP_MBX_STAT | CXP_MBX_ADDR | CXP_MBX_TO | CXP_MBX_DATA
  | CXP_EVT_STAT | CXP_EVT_HEAD | STH_CTRL | STH_STAT | STH_ARB_TO | STH_TEST_GAP | STH_TEST_POS | STH_TEST_CNT
  | STH_ECC_CNT | STH_ECC_ADDR | STH_STARVE | STH_SLICE_SPARE | STH_CONFL_LO | STH_CONFL_HI | DDR_CTRL | DDR_CFG
  | DDR_SCRUB_PER | DDR_TOP_LO | DDR_TOP_HI | DDR_CH_CTRL | DDR_CH_STAT | DDR_CH_TO | DDR_CH_ECC | DDR_CH_ELOG_LO
  | DDR_CH_ELOG_HI | DDR_CH_EINFO | DDR_CH_CNT | DDR_CH_TEMP | BED_STALE_LO | BED_STALE_HI | BED_LIMIT | BED_CTRL
  | BED_STAT | BED_WSTALL | BED_SSTALL | PLQ_CTRL | PLQ_STAT | PLQ_BIND | PLQ_WD | PLQ_CMD | PLQ_CNT | PLQ_SUB
  | PLQ_PIN | PLQ_CPL | PLQ_PRG | PLQ_LIFE | PLQ_MIG | PLQ_SCNT | PLQ_PRGR | HKC_ID | HKC_SWI | HKC_T_CTRL
  | HKC_T_STAT | HKC_T_TCYC_LO | HKC_T_TCYC_HI | HKC_T_WAIT_LO | HKC_T_WAIT_HI | HKC_T_WCNT | HKC_T_EVCNT | HKC_T_LVL
  | HKC_T_HALT | HKC_T_HALTA_LO | HKC_T_HALTA_HI | HKC_T_EXC | HKC_T_FPST | HKC_T_FPCNT | HKC_IRQ_CFG | HKC_IPEND
  | VOT_STAT | VOT_CMD | VOT_STEST | VOT_CNT | VOT_TCMFIX | VOT_CHKWIN | VOT_DS_INFO | VOT_DS_TIME_LO
  | VOT_DS_TIME_HI | VOT_DS_ADDR_LO | VOT_DS_ADDR_HI | VOT_DS_POP | BED_UC_CTRL | BED_UC_STAT | BED_UC_VER
  | BED_UCFAULT | TMO_CASTON | KTH_CMD | KTH_STAT | KTH_BOOTCNT | KTH_TREE | KTH_SLOTS | KTH_POLICY | KTH_CNT
  | KTH_SRC_LO | KTH_SRC_HI | KTH_LEN | KTH_DST_LO | KTH_DST_HI | KTH_TO_VER | KTH_TO_SIGN | KTH_TO_GEN | KTH_MEAS
  | KTH_NONCE | KTH_CHAL | KTH_PATH | PCI_DMB_CMD | PCI_DMB_STAT | PCI_DMB_LEN | PCI_DMB_OFF | PCI_DMB_ABORT
  | PCI_DMB_DATA | PCI_CTRL | PCI_STAT | PCI_ERR | PCI_HTAB_BASE_LO | PCI_HTAB_BASE_HI | PCI_HTAB_N | PCI_HOTYPE
  | PCI_HFENCE | PCI_BAR2_H | PCI_BAR4_H | PCI_BAR4_OFF_LO | PCI_BAR4_OFF_HI | PCI_LNK_BAR4_H | PCI_LNK_BAR4_OFF_LO
  | PCI_LNK_BAR4_OFF_HI | PCI_QFN | PCI_DMA_CTRL | PCI_DMA_RING_LO | PCI_DMA_RING_HI | PCI_DMA_SIZE | PCI_DMA_TAIL
  | PCI_DMA_HEAD | PCI_DMA_WB_LO | PCI_DMA_WB_HI | PCI_DMA_STAT | PCI_RR_CTRL | PCI_RR_H | PCI_RR_HOST_LO
  | PCI_RR_HOST_HI | PCI_RR_HSIZE | PCI_RR_CONS | PCI_RR_PROD | PCI_RR_WB_LO | PCI_RR_WB_HI | PCI_RR_CNT
  | PCI_MSIX_TABLE | PCI_MSIX_PBA | MTX_REMAP | MTX_CNT | MTX_LASTTO | MTX_FWBASE | MTX_FWLEN | PWR_CTRL | PWR_STAT
  | PWR_WSDLY | PWR_PKG | PWR_CNT | PWR_SUPMON | PWR_DOM | GAU_CTRL | GAU_STAT | GAU_INTERVAL | GAU_GUARD
  | GAU_MARGIN | GAU_FMIN | GAU_ROTHR | GAU_STHF | GAU_CNT | GAU_RETIRE | GAU_DOM_SLACK | GAU_B_FREQ | GAU_B_TJ
  | GAU_B_VF | RPR_STAT | RPR_NEED | RPR_SLICE | RPR_BEDF | RPR_BEDR | TMO_BEDREQ | TMO_DRAIN | TMO_CBUS
  | TMO_BINDOFF | TMO_TWD | TMO_TWD_EN | TMO_KICK | TMO_RESET | TMO_CNT0 | TMO_CNT1 | TMO_RCAUSE | TMO_RTIME_LO
  | TMO_RTIME_HI | TMO_RENC_LO | TMO_RENC_HI
  deriving DecidableEq, Repr, Inhabited

/-- One register: its kind and its indices (0 where a kind has none). -/
structure Reg where
  kind : RegKind
  i : Nat
  j : Nat
  deriving DecidableEq, Repr, Inhabited

/-- The access codes of 00_scope.md; `res` is a reserved field (R8). -/
inductive Acc where
  | r | rw | w | w1c | rsc | res
  deriving DecidableEq, Repr, Inhabited

/-- The state in which alone a field can be written, where its table names one (R545). -/
inductive WCond where
  | always | chIdle | camIdle | outNotBindoff | system | plqIdle | pinDisabled | pinQueue | setOnly | preDone | bootRom | pow2
  deriving DecidableEq, Repr, Inhabited

/-- One row of a register table: bits [hi:lo], access, reset value, the range [rlo, rhi] of writable values, the codes the
table lists as reserved without an effect, the condition of writing, and whether the always-on island holds it (R75). -/
structure Field where
  hi : Nat
  lo : Nat
  acc : Acc
  reset : Nat
  rlo : Nat := 0
  rhi : Nat := 4294967295
  bad : List Nat := []
  cond : WCond := .always
  aon : Bool := false
  deriving DecidableEq, Repr, Inhabited

/-- A register table: block, offset of instance 0, the strides and counts of its two indices, the first index, its fields. -/
structure RegInfo where
  block : Block
  off : Nat
  stride : Nat := 0
  count : Nat := 1
  stride2 : Nat := 0
  count2 : Nat := 1
  first : Nat := 0
  fields : List Field
  deriving DecidableEq, Repr, Inhabited

/-- A field of a register kind, by which meanings name it. -/
structure Fld where
  k : RegKind
  hi : Nat
  lo : Nat
  deriving DecidableEq, Repr, Inhabited

end Sys2Proof
end

