-- ==== Sys2Proof/Machine/Fields.lean ====
section
/-!
DEFINITION. Sys2Proof/Machine/Fields.lean: a name for each field of the register tables of spec/, <register>_<field>; a field
the tables list without a name has the number of its lowest bit.
-/
namespace Sys2Proof.F

def TBS_CTRL_PPSPOL : Fld := ⟨.TBS_CTRL, 3, 3⟩
def TBS_CTRL_DISCEN : Fld := ⟨.TBS_CTRL, 2, 2⟩
def TBS_CTRL_SRC : Fld := ⟨.TBS_CTRL, 1, 0⟩
def TBS_STAT_SETREFUSED : Fld := ⟨.TBS_STAT, 4, 4⟩
def TBS_STAT_STEPPED : Fld := ⟨.TBS_STAT, 3, 3⟩
def TBS_STAT_SRCLOST : Fld := ⟨.TBS_STAT, 2, 2⟩
def TBS_STAT_HOLDOVER : Fld := ⟨.TBS_STAT, 1, 1⟩
def TBS_STAT_LOCKED : Fld := ⟨.TBS_STAT, 0, 0⟩
def TBS_TIME_LO : Fld := ⟨.TBS_TIME_LO, 31, 0⟩
def TBS_TIME_HI : Fld := ⟨.TBS_TIME_HI, 31, 0⟩
def TBS_OFFSET : Fld := ⟨.TBS_OFFSET, 31, 0⟩
def TBS_SLEW : Fld := ⟨.TBS_SLEW, 31, 0⟩
def TBS_STEP_THR : Fld := ⟨.TBS_STEP_THR, 31, 0⟩
def TBS_SET_LO : Fld := ⟨.TBS_SET_LO, 31, 0⟩
def TBS_SET_HI : Fld := ⟨.TBS_SET_HI, 31, 0⟩
def TIO_ARM_DISARM : Fld := ⟨.TIO_ARM, 2, 2⟩
def TIO_ARM_ARMREQ : Fld := ⟨.TIO_ARM, 1, 1⟩
def TIO_ARM_ARMED : Fld := ⟨.TIO_ARM, 0, 0⟩
def TIO_ENC_CTRL_STALL : Fld := ⟨.TIO_ENC_CTRL, 23, 8⟩
def TIO_ENC_CTRL_FILTER : Fld := ⟨.TIO_ENC_CTRL, 5, 4⟩
def TIO_ENC_CTRL_DIRINV : Fld := ⟨.TIO_ENC_CTRL, 1, 1⟩
def TIO_ENC_CTRL_EN : Fld := ⟨.TIO_ENC_CTRL, 0, 0⟩
def TIO_ENC_STAT_PHASEERRS : Fld := ⟨.TIO_ENC_STAT, 31, 16⟩
def TIO_ENC_STAT_STOPPED : Fld := ⟨.TIO_ENC_STAT, 3, 3⟩
def TIO_ENC_STAT_DIR : Fld := ⟨.TIO_ENC_STAT, 2, 2⟩
def TIO_ENC_STAT_OVERSPEED : Fld := ⟨.TIO_ENC_STAT, 1, 1⟩
def TIO_ENC_STAT_PHASEERR : Fld := ⟨.TIO_ENC_STAT, 0, 0⟩
def TIO_ENC_POS_LO : Fld := ⟨.TIO_ENC_POS_LO, 31, 0⟩
def TIO_ENC_POS_HI : Fld := ⟨.TIO_ENC_POS_HI, 31, 0⟩
def TIO_ENC_SPEED : Fld := ⟨.TIO_ENC_SPEED, 31, 0⟩
def TIO_CH_CTRL_ENCVALID : Fld := ⟨.TIO_CH_CTRL, 17, 17⟩
def TIO_CH_CTRL_REVHOLD : Fld := ⟨.TIO_CH_CTRL, 16, 16⟩
def TIO_CH_CTRL_TRIGEN : Fld := ⟨.TIO_CH_CTRL, 15, 15⟩
def TIO_CH_CTRL_LOCKEN : Fld := ⟨.TIO_CH_CTRL, 14, 14⟩
def TIO_CH_CTRL_LEADER : Fld := ⟨.TIO_CH_CTRL, 13, 10⟩
def TIO_CH_CTRL_LINK : Fld := ⟨.TIO_CH_CTRL, 9, 5⟩
def TIO_CH_CTRL_ENC : Fld := ⟨.TIO_CH_CTRL, 4, 2⟩
def TIO_CH_CTRL_BSRC : Fld := ⟨.TIO_CH_CTRL, 1, 0⟩
def TIO_CH_ROW_LO : Fld := ⟨.TIO_CH_ROW_LO, 31, 0⟩
def TIO_CH_ROW_HI : Fld := ⟨.TIO_CH_ROW_HI, 31, 0⟩
def TIO_CH_DIV : Fld := ⟨.TIO_CH_DIV, 31, 0⟩
def TIO_CH_PERIOD : Fld := ⟨.TIO_CH_PERIOD, 31, 0⟩
def TIO_CH_SCALE : Fld := ⟨.TIO_CH_SCALE, 31, 0⟩
def TIO_CH_PITCH : Fld := ⟨.TIO_CH_PITCH, 31, 0⟩
def TIO_CH_OFFSET_LO : Fld := ⟨.TIO_CH_OFFSET_LO, 31, 0⟩
def TIO_CH_OFFSET_HI : Fld := ⟨.TIO_CH_OFFSET_HI, 31, 0⟩
def TIO_CAP_CTRL_CHAN : Fld := ⟨.TIO_CAP_CTRL, 7, 4⟩
def TIO_CAP_CTRL_EDGE : Fld := ⟨.TIO_CAP_CTRL, 2, 1⟩
def TIO_CAP_CTRL_EN : Fld := ⟨.TIO_CAP_CTRL, 0, 0⟩
def TIO_CAP_STAT_LOST : Fld := ⟨.TIO_CAP_STAT, 31, 16⟩
def TIO_CAP_STAT_LEVEL : Fld := ⟨.TIO_CAP_STAT, 3, 0⟩
def TIO_CAP_TIME_LO : Fld := ⟨.TIO_CAP_TIME_LO, 31, 0⟩
def TIO_CAP_TIME_HI : Fld := ⟨.TIO_CAP_TIME_HI, 31, 0⟩
def TIO_CAP_ROW_LO : Fld := ⟨.TIO_CAP_ROW_LO, 31, 0⟩
def TIO_CAP_ROW_HI : Fld := ⟨.TIO_CAP_ROW_HI, 31, 0⟩
def TIO_CAP_POS_LO : Fld := ⟨.TIO_CAP_POS_LO, 31, 0⟩
def TIO_CAP_POS_HI : Fld := ⟨.TIO_CAP_POS_HI, 31, 0⟩
def TIO_OUT_CTRL_CHAN : Fld := ⟨.TIO_OUT_CTRL, 15, 12⟩
def TIO_OUT_CTRL_EN : Fld := ⟨.TIO_OUT_CTRL, 11, 11⟩
def TIO_OUT_CTRL_BOKEEPT : Fld := ⟨.TIO_OUT_CTRL, 10, 10⟩
def TIO_OUT_CTRL_BODROP : Fld := ⟨.TIO_OUT_CTRL, 9, 9⟩
def TIO_OUT_CTRL_LPOL : Fld := ⟨.TIO_OUT_CTRL, 8, 8⟩
def TIO_OUT_CTRL_HPOL : Fld := ⟨.TIO_OUT_CTRL, 7, 7⟩
def TIO_OUT_CTRL_OD : Fld := ⟨.TIO_OUT_CTRL, 4, 4⟩
def TIO_OUT_CTRL_POL : Fld := ⟨.TIO_OUT_CTRL, 3, 3⟩
def TIO_OUT_CTRL_SAFE : Fld := ⟨.TIO_OUT_CTRL, 1, 0⟩
def TIO_OUT_STAT_DEPTH : Fld := ⟨.TIO_OUT_STAT, 15, 10⟩
def TIO_OUT_STAT_BINDOFF : Fld := ⟨.TIO_OUT_STAT, 2, 2⟩
def TIO_OUT_STAT_TENT : Fld := ⟨.TIO_OUT_STAT, 1, 1⟩
def TIO_OUT_STAT_LEVEL : Fld := ⟨.TIO_OUT_STAT, 0, 0⟩
def TIO_OUT_STATION : Fld := ⟨.TIO_OUT_STATION, 31, 0⟩
def TIO_OUT_SKEW : Fld := ⟨.TIO_OUT_SKEW, 31, 0⟩
def TIO_OUT_CNT_FULL : Fld := ⟨.TIO_OUT_CNT, 31, 24⟩
def TIO_OUT_CNT_LATE : Fld := ⟨.TIO_OUT_CNT, 23, 16⟩
def TIO_OUT_CNT_HDROP : Fld := ⟨.TIO_OUT_CNT, 15, 8⟩
def TIO_OUT_CNT_HFIRE : Fld := ⟨.TIO_OUT_CNT, 7, 0⟩
def TIO_OUT_CNT2_FLUSHED : Fld := ⟨.TIO_OUT_CNT2, 31, 24⟩
def TIO_OUT_CNT2_REFUSED : Fld := ⟨.TIO_OUT_CNT2, 23, 16⟩
def TIO_OUT_CNT2_DROPCOMMIT : Fld := ⟨.TIO_OUT_CNT2, 15, 8⟩
def TIO_OUT_CNT2_FIREFROG : Fld := ⟨.TIO_OUT_CNT2, 7, 0⟩
def TIO_OUT_EVIN : Fld := ⟨.TIO_OUT_EVIN, 31, 0⟩
def CXP_LNK_CTRL_CODETHR : Fld := ⟨.CXP_LNK_CTRL, 15, 8⟩
def CXP_LNK_CTRL_SPEED : Fld := ⟨.CXP_LNK_CTRL, 3, 1⟩
def CXP_LNK_CTRL_EN : Fld := ⟨.CXP_LNK_CTRL, 0, 0⟩
def CXP_LNK_STAT_CURSPEED : Fld := ⟨.CXP_LNK_STAT, 7, 5⟩
def CXP_LNK_STAT_HBLOST : Fld := ⟨.CXP_LNK_STAT, 4, 4⟩
def CXP_LNK_STAT_WENTDOWN : Fld := ⟨.CXP_LNK_STAT, 3, 3⟩
def CXP_LNK_STAT_HBOK : Fld := ⟨.CXP_LNK_STAT, 2, 2⟩
def CXP_LNK_STAT_UP : Fld := ⟨.CXP_LNK_STAT, 1, 1⟩
def CXP_LNK_STAT_LOCK : Fld := ⟨.CXP_LNK_STAT, 0, 0⟩
def CXP_LNK_DELAY : Fld := ⟨.CXP_LNK_DELAY, 31, 0⟩
def CXP_LNK_HBTO : Fld := ⟨.CXP_LNK_HBTO, 31, 0⟩
def CXP_LNK_ERRS_16 : Fld := ⟨.CXP_LNK_ERRS, 31, 16⟩
def CXP_LNK_ERRS_0 : Fld := ⟨.CXP_LNK_ERRS, 15, 0⟩
def CXP_LNK_CNT_24 : Fld := ⟨.CXP_LNK_CNT, 31, 24⟩
def CXP_LNK_CNT_16 : Fld := ⟨.CXP_LNK_CNT, 23, 16⟩
def CXP_LNK_CNT_8 : Fld := ⟨.CXP_LNK_CNT, 15, 8⟩
def CXP_LNK_CNT_0 : Fld := ⟨.CXP_LNK_CNT, 7, 0⟩
def CXP_CAM_CTRL_FLIP : Fld := ⟨.CXP_CAM_CTRL, 17, 17⟩
def CXP_CAM_CTRL_FMT : Fld := ⟨.CXP_CAM_CTRL, 16, 14⟩
def CXP_CAM_CTRL_MASTER : Fld := ⟨.CXP_CAM_CTRL, 13, 9⟩
def CXP_CAM_CTRL_CHAN : Fld := ⟨.CXP_CAM_CTRL, 4, 1⟩
def CXP_CAM_CTRL_EN : Fld := ⟨.CXP_CAM_CTRL, 0, 0⟩
def CXP_CAM_LINKS : Fld := ⟨.CXP_CAM_LINKS, 31, 0⟩
def CXP_CAM_TRIG : Fld := ⟨.CXP_CAM_TRIG, 31, 0⟩
def CXP_CAM_WIDTH : Fld := ⟨.CXP_CAM_WIDTH, 31, 0⟩
def CXP_CAM_TRIM_16 : Fld := ⟨.CXP_CAM_TRIM, 31, 16⟩
def CXP_CAM_TRIM_0 : Fld := ⟨.CXP_CAM_TRIM, 15, 0⟩
def CXP_CAM_DEST : Fld := ⟨.CXP_CAM_DEST, 31, 0⟩
def CXP_CAM_TAG_16 : Fld := ⟨.CXP_CAM_TAG, 31, 16⟩
def CXP_CAM_TAG_0 : Fld := ⟨.CXP_CAM_TAG, 15, 0⟩
def CXP_CH_ICTRL_FILL : Fld := ⟨.CXP_CH_ICTRL, 31, 24⟩
def CXP_CH_ICTRL_UMARKEN : Fld := ⟨.CXP_CH_ICTRL, 3, 3⟩
def CXP_CH_ICTRL_PARTPOL : Fld := ⟨.CXP_CH_ICTRL, 2, 2⟩
def CXP_CH_ICTRL_SPEC : Fld := ⟨.CXP_CH_ICTRL, 1, 1⟩
def CXP_CH_ICTRL_EN : Fld := ⟨.CXP_CH_ICTRL, 0, 0⟩
def CXP_CH_ISTAT_DLOGOVF : Fld := ⟨.CXP_CH_ISTAT, 5, 5⟩
def CXP_CH_ISTAT_RINGSHORT : Fld := ⟨.CXP_CH_ISTAT, 4, 4⟩
def CXP_CH_ISTAT_OVERFLOWED : Fld := ⟨.CXP_CH_ISTAT, 3, 3⟩
def CXP_CH_ISTAT_BINDOFF : Fld := ⟨.CXP_CH_ISTAT, 2, 2⟩
def CXP_CH_ISTAT_SPECOPEN : Fld := ⟨.CXP_CH_ISTAT, 1, 1⟩
def CXP_CH_ISTAT_RUN : Fld := ⟨.CXP_CH_ISTAT, 0, 0⟩
def CXP_CH_RING_BASE : Fld := ⟨.CXP_CH_RING_BASE, 31, 16⟩
def CXP_CH_RING_SIZE : Fld := ⟨.CXP_CH_RING_SIZE, 31, 16⟩
def CXP_CH_WALES : Fld := ⟨.CXP_CH_WALES, 31, 0⟩
def CXP_CH_NSLOTS : Fld := ⟨.CXP_CH_NSLOTS, 31, 0⟩
def CXP_CH_CWD : Fld := ⟨.CXP_CH_CWD, 31, 0⟩
def CXP_CH_CONS_28 : Fld := ⟨.CXP_CH_CONS, 31, 28⟩
def CXP_CH_CONS_24 : Fld := ⟨.CXP_CH_CONS, 27, 24⟩
def CXP_CH_CONS_20 : Fld := ⟨.CXP_CH_CONS, 23, 20⟩
def CXP_CH_CONS_16 : Fld := ⟨.CXP_CH_CONS, 19, 16⟩
def CXP_CH_CONS_15 : Fld := ⟨.CXP_CH_CONS, 15, 15⟩
def CXP_CH_CONS_13 : Fld := ⟨.CXP_CH_CONS, 14, 13⟩
def CXP_CH_CONS_11 : Fld := ⟨.CXP_CH_CONS, 11, 11⟩
def CXP_CH_CONS_9 : Fld := ⟨.CXP_CH_CONS, 10, 9⟩
def CXP_CH_CONS_7 : Fld := ⟨.CXP_CH_CONS, 7, 7⟩
def CXP_CH_CONS_5 : Fld := ⟨.CXP_CH_CONS, 6, 5⟩
def CXP_CH_CONS_3 : Fld := ⟨.CXP_CH_CONS, 3, 3⟩
def CXP_CH_CONS_1 : Fld := ⟨.CXP_CH_CONS, 2, 1⟩
def CXP_CH_REL_LO : Fld := ⟨.CXP_CH_REL_LO, 31, 0⟩
def CXP_CH_REL_HI : Fld := ⟨.CXP_CH_REL_HI, 31, 0⟩
def CXP_CH_DLOG_LO : Fld := ⟨.CXP_CH_DLOG_LO, 31, 0⟩
def CXP_CH_DLOG_HI : Fld := ⟨.CXP_CH_DLOG_HI, 31, 0⟩
def CXP_CH_DLOG_CAUSE_8 : Fld := ⟨.CXP_CH_DLOG_CAUSE, 15, 8⟩
def CXP_CH_DLOG_CAUSE_0 : Fld := ⟨.CXP_CH_DLOG_CAUSE, 3, 0⟩
def CXP_CH_CNT_16 : Fld := ⟨.CXP_CH_CNT, 31, 16⟩
def CXP_CH_CNT_0 : Fld := ⟨.CXP_CH_CNT, 15, 0⟩
def CXP_MBX_CMD_GO : Fld := ⟨.CXP_MBX_CMD, 31, 31⟩
def CXP_MBX_CMD_OP : Fld := ⟨.CXP_MBX_CMD, 30, 30⟩
def CXP_MBX_CMD_LEN : Fld := ⟨.CXP_MBX_CMD, 21, 16⟩
def CXP_MBX_CMD_OWNER : Fld := ⟨.CXP_MBX_CMD, 0, 0⟩
def CXP_MBX_STAT_ACK : Fld := ⟨.CXP_MBX_STAT, 15, 8⟩
def CXP_MBX_STAT_REFUSED : Fld := ⟨.CXP_MBX_STAT, 4, 4⟩
def CXP_MBX_STAT_TIMEOUT : Fld := ⟨.CXP_MBX_STAT, 3, 3⟩
def CXP_MBX_STAT_ERR : Fld := ⟨.CXP_MBX_STAT, 2, 2⟩
def CXP_MBX_STAT_DONE : Fld := ⟨.CXP_MBX_STAT, 1, 1⟩
def CXP_MBX_STAT_BUSY : Fld := ⟨.CXP_MBX_STAT, 0, 0⟩
def CXP_MBX_ADDR : Fld := ⟨.CXP_MBX_ADDR, 31, 0⟩
def CXP_MBX_TO : Fld := ⟨.CXP_MBX_TO, 31, 0⟩
def CXP_MBX_DATA : Fld := ⟨.CXP_MBX_DATA, 31, 0⟩
def CXP_EVT_STAT_16 : Fld := ⟨.CXP_EVT_STAT, 31, 16⟩
def CXP_EVT_STAT_0 : Fld := ⟨.CXP_EVT_STAT, 6, 0⟩
def CXP_EVT_HEAD : Fld := ⟨.CXP_EVT_HEAD, 31, 0⟩
def STH_CTRL_DEMANDWB : Fld := ⟨.STH_CTRL, 1, 1⟩
def STH_CTRL_TESTEN : Fld := ⟨.STH_CTRL, 0, 0⟩
def STH_STAT_TESTFAIL : Fld := ⟨.STH_STAT, 4, 4⟩
def STH_STAT_UE : Fld := ⟨.STH_STAT, 3, 3⟩
def STH_STAT_STARVED : Fld := ⟨.STH_STAT, 2, 2⟩
def STH_STAT_NOSPARE : Fld := ⟨.STH_STAT, 1, 1⟩
def STH_STAT_TESTACTIVE : Fld := ⟨.STH_STAT, 0, 0⟩
def STH_ARB_TO : Fld := ⟨.STH_ARB_TO, 31, 0⟩
def STH_TEST_GAP : Fld := ⟨.STH_TEST_GAP, 31, 0⟩
def STH_TEST_POS_16 : Fld := ⟨.STH_TEST_POS, 18, 16⟩
def STH_TEST_POS_8 : Fld := ⟨.STH_TEST_POS, 13, 8⟩
def STH_TEST_POS_0 : Fld := ⟨.STH_TEST_POS, 6, 0⟩
def STH_TEST_CNT_16 : Fld := ⟨.STH_TEST_CNT, 31, 16⟩
def STH_TEST_CNT_8 : Fld := ⟨.STH_TEST_CNT, 15, 8⟩
def STH_TEST_CNT_0 : Fld := ⟨.STH_TEST_CNT, 7, 0⟩
def STH_ECC_CNT_16 : Fld := ⟨.STH_ECC_CNT, 31, 16⟩
def STH_ECC_CNT_0 : Fld := ⟨.STH_ECC_CNT, 15, 0⟩
def STH_ECC_ADDR : Fld := ⟨.STH_ECC_ADDR, 26, 4⟩
def STH_STARVE : Fld := ⟨.STH_STARVE, 31, 0⟩
def STH_SLICE_SPARE_RETIRED : Fld := ⟨.STH_SLICE_SPARE, 23, 16⟩
def STH_SLICE_SPARE_SP1 : Fld := ⟨.STH_SLICE_SPARE, 15, 8⟩
def STH_SLICE_SPARE_SP0 : Fld := ⟨.STH_SLICE_SPARE, 7, 0⟩
def STH_CONFL_LO : Fld := ⟨.STH_CONFL_LO, 31, 0⟩
def STH_CONFL_HI : Fld := ⟨.STH_CONFL_HI, 31, 0⟩
def DDR_CTRL_DEMANDSCRUB : Fld := ⟨.DDR_CTRL, 1, 1⟩
def DDR_CTRL_SCRUBEN : Fld := ⟨.DDR_CTRL, 0, 0⟩
def DDR_CFG_SPEED : Fld := ⟨.DDR_CFG, 31, 28⟩
def DDR_CFG_CHMASK : Fld := ⟨.DDR_CFG, 27, 16⟩
def DDR_CFG_X4 : Fld := ⟨.DDR_CFG, 6, 6⟩
def DDR_CFG_DPC : Fld := ⟨.DDR_CFG, 5, 4⟩
def DDR_CFG_NCHAN : Fld := ⟨.DDR_CFG, 3, 0⟩
def DDR_SCRUB_PER : Fld := ⟨.DDR_SCRUB_PER, 31, 0⟩
def DDR_TOP_LO : Fld := ⟨.DDR_TOP_LO, 31, 0⟩
def DDR_TOP_HI : Fld := ⟨.DDR_TOP_HI, 31, 0⟩
def DDR_CH_CTRL_THOT : Fld := ⟨.DDR_CH_CTRL, 15, 8⟩
def DDR_CH_CTRL_RECOVER : Fld := ⟨.DDR_CH_CTRL, 0, 0⟩
def DDR_CH_STAT_PMICERR : Fld := ⟨.DDR_CH_STAT, 6, 6⟩
def DDR_CH_STAT_REFX2 : Fld := ⟨.DDR_CH_STAT, 5, 5⟩
def DDR_CH_STAT_HOT : Fld := ⟨.DDR_CH_STAT, 4, 4⟩
def DDR_CH_STAT_OFFLINE : Fld := ⟨.DDR_CH_STAT, 3, 3⟩
def DDR_CH_STAT_LOST : Fld := ⟨.DDR_CH_STAT, 2, 2⟩
def DDR_CH_STAT_RECOVER : Fld := ⟨.DDR_CH_STAT, 1, 1⟩
def DDR_CH_STAT_ONLINE : Fld := ⟨.DDR_CH_STAT, 0, 0⟩
def DDR_CH_TO : Fld := ⟨.DDR_CH_TO, 31, 0⟩
def DDR_CH_ECC_16 : Fld := ⟨.DDR_CH_ECC, 31, 16⟩
def DDR_CH_ECC_0 : Fld := ⟨.DDR_CH_ECC, 15, 0⟩
def DDR_CH_ELOG_LO : Fld := ⟨.DDR_CH_ELOG_LO, 31, 0⟩
def DDR_CH_ELOG_HI : Fld := ⟨.DDR_CH_ELOG_HI, 31, 0⟩
def DDR_CH_EINFO_SCRUB : Fld := ⟨.DDR_CH_EINFO, 15, 15⟩
def DDR_CH_EINFO_DEVICE : Fld := ⟨.DDR_CH_EINFO, 9, 5⟩
def DDR_CH_EINFO_RANK : Fld := ⟨.DDR_CH_EINFO, 4, 2⟩
def DDR_CH_EINFO_DIMM : Fld := ⟨.DDR_CH_EINFO, 1, 1⟩
def DDR_CH_EINFO_SUB : Fld := ⟨.DDR_CH_EINFO, 0, 0⟩
def DDR_CH_CNT_24 : Fld := ⟨.DDR_CH_CNT, 31, 24⟩
def DDR_CH_CNT_16 : Fld := ⟨.DDR_CH_CNT, 23, 16⟩
def DDR_CH_CNT_8 : Fld := ⟨.DDR_CH_CNT, 15, 8⟩
def DDR_CH_CNT_0 : Fld := ⟨.DDR_CH_CNT, 7, 0⟩
def DDR_CH_TEMP : Fld := ⟨.DDR_CH_TEMP, 7, 0⟩
def BED_STALE_LO : Fld := ⟨.BED_STALE_LO, 31, 0⟩
def BED_STALE_HI : Fld := ⟨.BED_STALE_HI, 31, 0⟩
def BED_LIMIT_16 : Fld := ⟨.BED_LIMIT, 23, 16⟩
def BED_LIMIT_0 : Fld := ⟨.BED_LIMIT, 7, 0⟩
def BED_CTRL_RESET : Fld := ⟨.BED_CTRL, 16, 16⟩
def BED_CTRL_LPOS : Fld := ⟨.BED_CTRL, 14, 8⟩
def BED_CTRL_SET : Fld := ⟨.BED_CTRL, 7, 2⟩
def BED_CTRL_STANDBY : Fld := ⟨.BED_CTRL, 1, 1⟩
def BED_CTRL_EN : Fld := ⟨.BED_CTRL, 0, 0⟩
def BED_STAT_OUTST : Fld := ⟨.BED_STAT, 16, 8⟩
def BED_STAT_SPECFULL : Fld := ⟨.BED_STAT, 6, 6⟩
def BED_STAT_ENREF : Fld := ⟨.BED_STAT, 5, 5⟩
def BED_STAT_RETIRED : Fld := ⟨.BED_STAT, 4, 4⟩
def BED_STAT_FENCED : Fld := ⟨.BED_STAT, 3, 3⟩
def BED_STAT_PWRGATED : Fld := ⟨.BED_STAT, 2, 2⟩
def BED_STAT_CLKGATED : Fld := ⟨.BED_STAT, 1, 1⟩
def BED_STAT_ACTIVE : Fld := ⟨.BED_STAT, 0, 0⟩
def BED_WSTALL : Fld := ⟨.BED_WSTALL, 31, 0⟩
def BED_SSTALL : Fld := ⟨.BED_SSTALL, 31, 0⟩
def PLQ_CTRL_IRQEN : Fld := ⟨.PLQ_CTRL, 9, 9⟩
def PLQ_CTRL_PRIO : Fld := ⟨.PLQ_CTRL, 8, 7⟩
def PLQ_CTRL_PCHAN : Fld := ⟨.PLQ_CTRL, 6, 3⟩
def PLQ_CTRL_PINEN : Fld := ⟨.PLQ_CTRL, 2, 2⟩
def PLQ_CTRL_OWNER : Fld := ⟨.PLQ_CTRL, 1, 1⟩
def PLQ_CTRL_EN : Fld := ⟨.PLQ_CTRL, 0, 0⟩
def PLQ_STAT_INSTR : Fld := ⟨.PLQ_STAT, 28, 24⟩
def PLQ_STAT_CPL : Fld := ⟨.PLQ_STAT, 21, 16⟩
def PLQ_STAT_SUBQ : Fld := ⟨.PLQ_STAT, 12, 8⟩
def PLQ_STAT_CPLOVF : Fld := ⟨.PLQ_STAT, 5, 5⟩
def PLQ_STAT_SUBREFUSED : Fld := ⟨.PLQ_STAT, 4, 4⟩
def PLQ_STAT_BINDOFF : Fld := ⟨.PLQ_STAT, 3, 3⟩
def PLQ_STAT_SUSPENDED : Fld := ⟨.PLQ_STAT, 2, 2⟩
def PLQ_STAT_FAULTED : Fld := ⟨.PLQ_STAT, 1, 1⟩
def PLQ_STAT_BUSY : Fld := ⟨.PLQ_STAT, 0, 0⟩
def PLQ_BIND_EPOCH : Fld := ⟨.PLQ_BIND, 31, 16⟩
def PLQ_BIND_RAISE : Fld := ⟨.PLQ_BIND, 15, 15⟩
def PLQ_BIND_BOUND : Fld := ⟨.PLQ_BIND, 6, 6⟩
def PLQ_BIND_SET : Fld := ⟨.PLQ_BIND, 5, 0⟩
def PLQ_WD : Fld := ⟨.PLQ_WD, 31, 0⟩
def PLQ_CMD_ABORT : Fld := ⟨.PLQ_CMD, 1, 1⟩
def PLQ_CMD_RESUME : Fld := ⟨.PLQ_CMD, 0, 0⟩
def PLQ_CNT_16 : Fld := ⟨.PLQ_CNT, 31, 16⟩
def PLQ_CNT_8 : Fld := ⟨.PLQ_CNT, 15, 8⟩
def PLQ_CNT_0 : Fld := ⟨.PLQ_CNT, 7, 0⟩
def PLQ_SUB : Fld := ⟨.PLQ_SUB, 31, 0⟩
def PLQ_PIN : Fld := ⟨.PLQ_PIN, 31, 0⟩
def PLQ_CPL : Fld := ⟨.PLQ_CPL, 31, 0⟩
def PLQ_PRG : Fld := ⟨.PLQ_PRG, 31, 0⟩
def PLQ_LIFE_YOUNG : Fld := ⟨.PLQ_LIFE, 26, 26⟩
def PLQ_LIFE_SERIAL : Fld := ⟨.PLQ_LIFE, 25, 16⟩
def PLQ_LIFE_KINDS : Fld := ⟨.PLQ_LIFE, 11, 4⟩
def PLQ_LIFE_DEPTH : Fld := ⟨.PLQ_LIFE, 2, 0⟩
def PLQ_MIG_GO : Fld := ⟨.PLQ_MIG, 31, 31⟩
def PLQ_MIG_BUSY : Fld := ⟨.PLQ_MIG, 30, 30⟩
def PLQ_MIG_DRAINTO : Fld := ⟨.PLQ_MIG, 29, 29⟩
def PLQ_MIG_HWSTART : Fld := ⟨.PLQ_MIG, 28, 28⟩
def PLQ_MIG_NEWBED : Fld := ⟨.PLQ_MIG, 23, 16⟩
def PLQ_MIG_LPOS : Fld := ⟨.PLQ_MIG, 6, 0⟩
def PLQ_SCNT_24 : Fld := ⟨.PLQ_SCNT, 31, 24⟩
def PLQ_SCNT_16 : Fld := ⟨.PLQ_SCNT, 23, 16⟩
def PLQ_SCNT_8 : Fld := ⟨.PLQ_SCNT, 15, 8⟩
def PLQ_SCNT_0 : Fld := ⟨.PLQ_SCNT, 7, 0⟩
def PLQ_PRGR : Fld := ⟨.PLQ_PRGR, 31, 0⟩
def HKC_ID_NTHREAD : Fld := ⟨.HKC_ID, 15, 12⟩
def HKC_ID_THREAD : Fld := ⟨.HKC_ID, 5, 4⟩
def HKC_ID_CORE : Fld := ⟨.HKC_ID, 3, 2⟩
def HKC_ID_MODE : Fld := ⟨.HKC_ID, 1, 0⟩
def HKC_SWI_VEC : Fld := ⟨.HKC_SWI, 7, 0⟩
def HKC_T_CTRL_TRESET : Fld := ⟨.HKC_T_CTRL, 1, 1⟩
def HKC_T_CTRL_RUN : Fld := ⟨.HKC_T_CTRL, 0, 0⟩
def HKC_T_STAT_LEVEL : Fld := ⟨.HKC_T_STAT, 15, 12⟩
def HKC_T_STAT_MWAIT : Fld := ⟨.HKC_T_STAT, 8, 8⟩
def HKC_T_STAT_LLHALT : Fld := ⟨.HKC_T_STAT, 4, 4⟩
def HKC_T_STAT_STATE : Fld := ⟨.HKC_T_STAT, 2, 0⟩
def HKC_T_TCYC_LO : Fld := ⟨.HKC_T_TCYC_LO, 31, 0⟩
def HKC_T_TCYC_HI : Fld := ⟨.HKC_T_TCYC_HI, 31, 0⟩
def HKC_T_WAIT_LO : Fld := ⟨.HKC_T_WAIT_LO, 31, 0⟩
def HKC_T_WAIT_HI : Fld := ⟨.HKC_T_WAIT_HI, 31, 0⟩
def HKC_T_WCNT_16 : Fld := ⟨.HKC_T_WCNT, 31, 16⟩
def HKC_T_WCNT_0 : Fld := ⟨.HKC_T_WCNT, 15, 0⟩
def HKC_T_EVCNT_16 : Fld := ⟨.HKC_T_EVCNT, 31, 16⟩
def HKC_T_EVCNT_0 : Fld := ⟨.HKC_T_EVCNT, 15, 0⟩
def HKC_T_LVL_VEC : Fld := ⟨.HKC_T_LVL, 31, 24⟩
def HKC_T_LVL_ACTIVE : Fld := ⟨.HKC_T_LVL, 16, 8⟩
def HKC_T_LVL_PEND : Fld := ⟨.HKC_T_LVL, 7, 1⟩
def HKC_T_HALT_VEC : Fld := ⟨.HKC_T_HALT, 31, 24⟩
def HKC_T_HALT_ESC : Fld := ⟨.HKC_T_HALT, 23, 16⟩
def HKC_T_HALT_CODE : Fld := ⟨.HKC_T_HALT, 15, 8⟩
def HKC_T_HALT_LEVEL : Fld := ⟨.HKC_T_HALT, 7, 4⟩
def HKC_T_HALT_VALID : Fld := ⟨.HKC_T_HALT, 0, 0⟩
def HKC_T_HALTA_LO : Fld := ⟨.HKC_T_HALTA_LO, 31, 0⟩
def HKC_T_HALTA_HI : Fld := ⟨.HKC_T_HALTA_HI, 31, 0⟩
def HKC_T_EXC_16 : Fld := ⟨.HKC_T_EXC, 31, 16⟩
def HKC_T_EXC_8 : Fld := ⟨.HKC_T_EXC, 15, 8⟩
def HKC_T_EXC_0 : Fld := ⟨.HKC_T_EXC, 7, 0⟩
def HKC_T_FPST_FU : Fld := ⟨.HKC_T_FPST, 8, 8⟩
def HKC_T_FPST_DIRTY : Fld := ⟨.HKC_T_FPST, 7, 0⟩
def HKC_T_FPCNT_16 : Fld := ⟨.HKC_T_FPCNT, 31, 16⟩
def HKC_T_FPCNT_0 : Fld := ⟨.HKC_T_FPCNT, 15, 0⟩
def HKC_IRQ_CFG_EN : Fld := ⟨.HKC_IRQ_CFG, 31, 31⟩
def HKC_IRQ_CFG_PEND : Fld := ⟨.HKC_IRQ_CFG, 8, 8⟩
def HKC_IRQ_CFG_LEVEL : Fld := ⟨.HKC_IRQ_CFG, 6, 4⟩
def HKC_IRQ_CFG_THREAD : Fld := ⟨.HKC_IRQ_CFG, 1, 0⟩
def HKC_IPEND : Fld := ⟨.HKC_IPEND, 31, 0⟩
def VOT_STAT_DSOVF : Fld := ⟨.VOT_STAT, 6, 6⟩
def VOT_STAT_NOGATE : Fld := ⟨.VOT_STAT, 5, 5⟩
def VOT_STAT_NOMAJ : Fld := ⟨.VOT_STAT, 4, 4⟩
def VOT_STAT_HELD : Fld := ⟨.VOT_STAT, 3, 2⟩
def VOT_STAT_DEGRADED : Fld := ⟨.VOT_STAT, 1, 1⟩
def VOT_STAT_RESYNC : Fld := ⟨.VOT_STAT, 0, 0⟩
def VOT_CMD_RESYNC : Fld := ⟨.VOT_CMD, 0, 0⟩
def VOT_STEST_FCASE : Fld := ⟨.VOT_STEST, 12, 8⟩
def VOT_STEST_FAIL : Fld := ⟨.VOT_STEST, 2, 2⟩
def VOT_STEST_DONE : Fld := ⟨.VOT_STEST, 1, 1⟩
def VOT_STEST_GO : Fld := ⟨.VOT_STEST, 0, 0⟩
def VOT_CNT_24 : Fld := ⟨.VOT_CNT, 31, 24⟩
def VOT_CNT_16 : Fld := ⟨.VOT_CNT, 23, 16⟩
def VOT_CNT_8 : Fld := ⟨.VOT_CNT, 15, 8⟩
def VOT_CNT_0 : Fld := ⟨.VOT_CNT, 7, 0⟩
def VOT_TCMFIX : Fld := ⟨.VOT_TCMFIX, 31, 0⟩
def VOT_CHKWIN : Fld := ⟨.VOT_CHKWIN, 31, 0⟩
def VOT_DS_INFO : Fld := ⟨.VOT_DS_INFO, 31, 0⟩
def VOT_DS_TIME_LO : Fld := ⟨.VOT_DS_TIME_LO, 31, 0⟩
def VOT_DS_TIME_HI : Fld := ⟨.VOT_DS_TIME_HI, 31, 0⟩
def VOT_DS_ADDR_LO : Fld := ⟨.VOT_DS_ADDR_LO, 31, 0⟩
def VOT_DS_ADDR_HI : Fld := ⟨.VOT_DS_ADDR_HI, 31, 0⟩
def VOT_DS_POP : Fld := ⟨.VOT_DS_POP, 31, 0⟩
def BED_UC_CTRL_LOCK : Fld := ⟨.BED_UC_CTRL, 0, 0⟩
def BED_UC_STAT_ROMREL : Fld := ⟨.BED_UC_STAT, 31, 16⟩
def BED_UC_STAT_NWORDS : Fld := ⟨.BED_UC_STAT, 15, 4⟩
def BED_UC_STAT_REJECT : Fld := ⟨.BED_UC_STAT, 3, 3⟩
def BED_UC_STAT_PATCHED : Fld := ⟨.BED_UC_STAT, 2, 2⟩
def BED_UC_STAT_LOCKED : Fld := ⟨.BED_UC_STAT, 0, 0⟩
def BED_UC_VER : Fld := ⟨.BED_UC_VER, 31, 0⟩
def BED_UCFAULT_COUNT : Fld := ⟨.BED_UCFAULT, 31, 24⟩
def BED_UCFAULT_BED : Fld := ⟨.BED_UCFAULT, 23, 16⟩
def BED_UCFAULT_VALID : Fld := ⟨.BED_UCFAULT, 15, 15⟩
def BED_UCFAULT_UADDR : Fld := ⟨.BED_UCFAULT, 14, 0⟩
def TMO_CASTON_CODE : Fld := ⟨.TMO_CASTON, 23, 16⟩
def TMO_CASTON_RETRY : Fld := ⟨.TMO_CASTON, 15, 12⟩
def TMO_CASTON_STAGE : Fld := ⟨.TMO_CASTON, 7, 4⟩
def TMO_CASTON_EXPIRED : Fld := ⟨.TMO_CASTON, 3, 3⟩
def TMO_CASTON_SAFE : Fld := ⟨.TMO_CASTON, 2, 2⟩
def TMO_CASTON_DONE : Fld := ⟨.TMO_CASTON, 0, 0⟩
def KTH_CMD_GO : Fld := ⟨.KTH_CMD, 31, 31⟩
def KTH_CMD_OP : Fld := ⟨.KTH_CMD, 7, 0⟩
def KTH_STAT_ERR : Fld := ⟨.KTH_STAT, 31, 24⟩
def KTH_STAT_LASTOP : Fld := ⟨.KTH_STAT, 23, 16⟩
def KTH_STAT_PATHREQ : Fld := ⟨.KTH_STAT, 7, 7⟩
def KTH_STAT_GEN : Fld := ⟨.KTH_STAT, 6, 6⟩
def KTH_STAT_LOW : Fld := ⟨.KTH_STAT, 5, 5⟩
def KTH_STAT_EXHAUSTED : Fld := ⟨.KTH_STAT, 4, 4⟩
def KTH_STAT_DBG : Fld := ⟨.KTH_STAT, 3, 3⟩
def KTH_STAT_REFUSED : Fld := ⟨.KTH_STAT, 2, 2⟩
def KTH_STAT_DONE : Fld := ⟨.KTH_STAT, 1, 1⟩
def KTH_STAT_BUSY : Fld := ⟨.KTH_STAT, 0, 0⟩
def KTH_BOOTCNT : Fld := ⟨.KTH_BOOTCNT, 16, 0⟩
def KTH_TREE_OPEN : Fld := ⟨.KTH_TREE, 31, 31⟩
def KTH_TREE_J : Fld := ⟨.KTH_TREE, 30, 16⟩
def KTH_TREE_Q : Fld := ⟨.KTH_TREE, 15, 0⟩
def KTH_SLOTS_FWINT : Fld := ⟨.KTH_SLOTS, 8, 8⟩
def KTH_SLOTS_SLOT : Fld := ⟨.KTH_SLOTS, 7, 0⟩
def KTH_POLICY : Fld := ⟨.KTH_POLICY, 0, 0⟩
def KTH_CNT_24 : Fld := ⟨.KTH_CNT, 31, 24⟩
def KTH_CNT_16 : Fld := ⟨.KTH_CNT, 23, 16⟩
def KTH_CNT_8 : Fld := ⟨.KTH_CNT, 15, 8⟩
def KTH_CNT_0 : Fld := ⟨.KTH_CNT, 7, 0⟩
def KTH_SRC_LO : Fld := ⟨.KTH_SRC_LO, 31, 0⟩
def KTH_SRC_HI : Fld := ⟨.KTH_SRC_HI, 31, 0⟩
def KTH_LEN : Fld := ⟨.KTH_LEN, 31, 0⟩
def KTH_DST_LO : Fld := ⟨.KTH_DST_LO, 31, 0⟩
def KTH_DST_HI : Fld := ⟨.KTH_DST_HI, 31, 0⟩
def KTH_TO_VER : Fld := ⟨.KTH_TO_VER, 31, 0⟩
def KTH_TO_SIGN : Fld := ⟨.KTH_TO_SIGN, 31, 0⟩
def KTH_TO_GEN : Fld := ⟨.KTH_TO_GEN, 31, 0⟩
def KTH_MEAS : Fld := ⟨.KTH_MEAS, 31, 0⟩
def KTH_NONCE : Fld := ⟨.KTH_NONCE, 31, 0⟩
def KTH_CHAL : Fld := ⟨.KTH_CHAL, 31, 0⟩
def KTH_PATH : Fld := ⟨.KTH_PATH, 31, 0⟩
def PCI_DMB_CMD_GO : Fld := ⟨.PCI_DMB_CMD, 31, 31⟩
def PCI_DMB_CMD_CA : Fld := ⟨.PCI_DMB_CMD, 26, 26⟩
def PCI_DMB_CMD_OP : Fld := ⟨.PCI_DMB_CMD, 25, 24⟩
def PCI_DMB_CMD_SUB : Fld := ⟨.PCI_DMB_CMD, 23, 16⟩
def PCI_DMB_CMD_INDEX : Fld := ⟨.PCI_DMB_CMD, 15, 0⟩
def PCI_DMB_STAT_SEGLEN : Fld := ⟨.PCI_DMB_STAT, 31, 16⟩
def PCI_DMB_STAT_MORE : Fld := ⟨.PCI_DMB_STAT, 3, 3⟩
def PCI_DMB_STAT_REFUSED : Fld := ⟨.PCI_DMB_STAT, 2, 2⟩
def PCI_DMB_STAT_DONE : Fld := ⟨.PCI_DMB_STAT, 1, 1⟩
def PCI_DMB_STAT_BUSY : Fld := ⟨.PCI_DMB_STAT, 0, 0⟩
def PCI_DMB_LEN : Fld := ⟨.PCI_DMB_LEN, 31, 0⟩
def PCI_DMB_OFF : Fld := ⟨.PCI_DMB_OFF, 31, 0⟩
def PCI_DMB_ABORT : Fld := ⟨.PCI_DMB_ABORT, 31, 0⟩
def PCI_DMB_DATA : Fld := ⟨.PCI_DMB_DATA, 31, 0⟩
def PCI_CTRL_NUMVFMAX : Fld := ⟨.PCI_CTRL, 4, 1⟩
def PCI_CTRL_EN : Fld := ⟨.PCI_CTRL, 0, 0⟩
def PCI_STAT_BIF : Fld := ⟨.PCI_STAT, 15, 12⟩
def PCI_STAT_WIDTH : Fld := ⟨.PCI_STAT, 11, 7⟩
def PCI_STAT_RATE : Fld := ⟨.PCI_STAT, 6, 4⟩
def PCI_STAT_FLR : Fld := ⟨.PCI_STAT, 3, 3⟩
def PCI_STAT_LINKDOWN : Fld := ⟨.PCI_STAT, 1, 1⟩
def PCI_STAT_UP : Fld := ⟨.PCI_STAT, 0, 0⟩
def PCI_ERR_WPERM : Fld := ⟨.PCI_ERR, 31, 24⟩
def PCI_ERR_BADSZ : Fld := ⟨.PCI_ERR, 23, 16⟩
def PCI_ERR_WINDOW : Fld := ⟨.PCI_ERR, 15, 8⟩
def PCI_ERR_HOLE : Fld := ⟨.PCI_ERR, 7, 0⟩
def PCI_HTAB_BASE_LO : Fld := ⟨.PCI_HTAB_BASE_LO, 31, 0⟩
def PCI_HTAB_BASE_HI : Fld := ⟨.PCI_HTAB_BASE_HI, 31, 0⟩
def PCI_HTAB_N : Fld := ⟨.PCI_HTAB_N, 31, 0⟩
def PCI_HOTYPE : Fld := ⟨.PCI_HOTYPE, 11, 0⟩
def PCI_HFENCE_31 : Fld := ⟨.PCI_HFENCE, 31, 31⟩
def PCI_HFENCE_0 : Fld := ⟨.PCI_HFENCE, 0, 0⟩
def PCI_BAR2_H : Fld := ⟨.PCI_BAR2_H, 15, 0⟩
def PCI_BAR4_H : Fld := ⟨.PCI_BAR4_H, 15, 0⟩
def PCI_BAR4_OFF_LO : Fld := ⟨.PCI_BAR4_OFF_LO, 31, 12⟩
def PCI_BAR4_OFF_HI : Fld := ⟨.PCI_BAR4_OFF_HI, 31, 0⟩
def PCI_LNK_BAR4_H : Fld := ⟨.PCI_LNK_BAR4_H, 15, 0⟩
def PCI_LNK_BAR4_OFF_LO : Fld := ⟨.PCI_LNK_BAR4_OFF_LO, 31, 12⟩
def PCI_LNK_BAR4_OFF_HI : Fld := ⟨.PCI_LNK_BAR4_OFF_HI, 31, 0⟩
def PCI_QFN_28 : Fld := ⟨.PCI_QFN, 31, 28⟩
def PCI_QFN_24 : Fld := ⟨.PCI_QFN, 27, 24⟩
def PCI_QFN_20 : Fld := ⟨.PCI_QFN, 23, 20⟩
def PCI_QFN_16 : Fld := ⟨.PCI_QFN, 19, 16⟩
def PCI_QFN_12 : Fld := ⟨.PCI_QFN, 15, 12⟩
def PCI_QFN_8 : Fld := ⟨.PCI_QFN, 11, 8⟩
def PCI_QFN_4 : Fld := ⟨.PCI_QFN, 7, 4⟩
def PCI_QFN_0 : Fld := ⟨.PCI_QFN, 3, 0⟩
def PCI_DMA_CTRL_FN : Fld := ⟨.PCI_DMA_CTRL, 4, 1⟩
def PCI_DMA_CTRL_EN : Fld := ⟨.PCI_DMA_CTRL, 0, 0⟩
def PCI_DMA_RING_LO : Fld := ⟨.PCI_DMA_RING_LO, 31, 0⟩
def PCI_DMA_RING_HI : Fld := ⟨.PCI_DMA_RING_HI, 31, 0⟩
def PCI_DMA_SIZE : Fld := ⟨.PCI_DMA_SIZE, 31, 0⟩
def PCI_DMA_TAIL : Fld := ⟨.PCI_DMA_TAIL, 15, 0⟩
def PCI_DMA_HEAD : Fld := ⟨.PCI_DMA_HEAD, 15, 0⟩
def PCI_DMA_WB_LO : Fld := ⟨.PCI_DMA_WB_LO, 31, 0⟩
def PCI_DMA_WB_HI : Fld := ⟨.PCI_DMA_WB_HI, 31, 0⟩
def PCI_DMA_STAT_1 : Fld := ⟨.PCI_DMA_STAT, 1, 1⟩
def PCI_DMA_STAT_0 : Fld := ⟨.PCI_DMA_STAT, 0, 0⟩
def PCI_RR_CTRL_FN : Fld := ⟨.PCI_RR_CTRL, 31, 28⟩
def PCI_RR_CTRL_ELOG : Fld := ⟨.PCI_RR_CTRL, 27, 24⟩
def PCI_RR_CTRL_DLOG : Fld := ⟨.PCI_RR_CTRL, 23, 19⟩
def PCI_RR_CTRL_QUEUE : Fld := ⟨.PCI_RR_CTRL, 18, 13⟩
def PCI_RR_CTRL_POL : Fld := ⟨.PCI_RR_CTRL, 1, 1⟩
def PCI_RR_CTRL_EN : Fld := ⟨.PCI_RR_CTRL, 0, 0⟩
def PCI_RR_H : Fld := ⟨.PCI_RR_H, 15, 0⟩
def PCI_RR_HOST_LO : Fld := ⟨.PCI_RR_HOST_LO, 31, 0⟩
def PCI_RR_HOST_HI : Fld := ⟨.PCI_RR_HOST_HI, 31, 0⟩
def PCI_RR_HSIZE : Fld := ⟨.PCI_RR_HSIZE, 31, 0⟩
def PCI_RR_CONS : Fld := ⟨.PCI_RR_CONS, 31, 0⟩
def PCI_RR_PROD : Fld := ⟨.PCI_RR_PROD, 31, 0⟩
def PCI_RR_WB_LO : Fld := ⟨.PCI_RR_WB_LO, 31, 0⟩
def PCI_RR_WB_HI : Fld := ⟨.PCI_RR_WB_HI, 31, 0⟩
def PCI_RR_CNT_16 : Fld := ⟨.PCI_RR_CNT, 31, 16⟩
def PCI_RR_CNT_0 : Fld := ⟨.PCI_RR_CNT, 15, 0⟩
def PCI_MSIX_TABLE : Fld := ⟨.PCI_MSIX_TABLE, 31, 0⟩
def PCI_MSIX_PBA : Fld := ⟨.PCI_MSIX_PBA, 31, 0⟩
def MTX_REMAP_REMAP : Fld := ⟨.MTX_REMAP, 0, 0⟩
def MTX_CNT_16 : Fld := ⟨.MTX_CNT, 31, 16⟩
def MTX_CNT_0 : Fld := ⟨.MTX_CNT, 15, 0⟩
def MTX_LASTTO_29 : Fld := ⟨.MTX_LASTTO, 31, 29⟩
def MTX_LASTTO_0 : Fld := ⟨.MTX_LASTTO, 27, 0⟩
def MTX_FWBASE : Fld := ⟨.MTX_FWBASE, 31, 4⟩
def MTX_FWLEN : Fld := ⟨.MTX_FWLEN, 31, 0⟩
def PWR_CTRL_WSDEN : Fld := ⟨.PWR_CTRL, 2, 2⟩
def PWR_CTRL_WAKE : Fld := ⟨.PWR_CTRL, 1, 1⟩
def PWR_CTRL_STBY : Fld := ⟨.PWR_CTRL, 0, 0⟩
def PWR_STAT_TRIP : Fld := ⟨.PWR_STAT, 8, 8⟩
def PWR_STAT_WAKING : Fld := ⟨.PWR_STAT, 3, 3⟩
def PWR_STAT_CAPACT : Fld := ⟨.PWR_STAT, 2, 2⟩
def PWR_STAT_SLEEP : Fld := ⟨.PWR_STAT, 1, 0⟩
def PWR_WSDLY : Fld := ⟨.PWR_WSDLY, 31, 0⟩
def PWR_PKG_16 : Fld := ⟨.PWR_PKG, 31, 16⟩
def PWR_PKG_0 : Fld := ⟨.PWR_PKG, 15, 0⟩
def PWR_CNT_16 : Fld := ⟨.PWR_CNT, 31, 16⟩
def PWR_CNT_0 : Fld := ⟨.PWR_CNT, 15, 0⟩
def PWR_SUPMON_AVSFAIL : Fld := ⟨.PWR_SUPMON, 10, 10⟩
def PWR_SUPMON_COREPG : Fld := ⟨.PWR_SUPMON, 9, 9⟩
def PWR_SUPMON_VIOMII : Fld := ⟨.PWR_SUPMON, 8, 8⟩
def PWR_SUPMON_VIOSB : Fld := ⟨.PWR_SUPMON, 7, 7⟩
def PWR_SUPMON_VIOGEN : Fld := ⟨.PWR_SUPMON, 6, 6⟩
def PWR_SUPMON_VDDHSERDES : Fld := ⟨.PWR_SUPMON, 5, 5⟩
def PWR_SUPMON_VDDSERDES : Fld := ⟨.PWR_SUPMON, 4, 4⟩
def PWR_SUPMON_VDDADDR : Fld := ⟨.PWR_SUPMON, 3, 3⟩
def PWR_SUPMON_VDDQDDR : Fld := ⟨.PWR_SUPMON, 2, 2⟩
def PWR_SUPMON_COREOV : Fld := ⟨.PWR_SUPMON, 1, 1⟩
def PWR_SUPMON_COREUV : Fld := ⟨.PWR_SUPMON, 0, 0⟩
def PWR_DOM : Fld := ⟨.PWR_DOM, 1, 0⟩
def GAU_CTRL_BED : Fld := ⟨.GAU_CTRL, 31, 24⟩
def GAU_CTRL_GO : Fld := ⟨.GAU_CTRL, 8, 8⟩
def GAU_CTRL_EN : Fld := ⟨.GAU_CTRL, 0, 0⟩
def GAU_STAT_BED : Fld := ⟨.GAU_STAT, 31, 24⟩
def GAU_STAT_NOLAT : Fld := ⟨.GAU_STAT, 4, 4⟩
def GAU_STAT_DOMLOW : Fld := ⟨.GAU_STAT, 3, 3⟩
def GAU_STAT_CAPACT : Fld := ⟨.GAU_STAT, 2, 2⟩
def GAU_STAT_BELOWREQ : Fld := ⟨.GAU_STAT, 1, 1⟩
def GAU_STAT_BUSY : Fld := ⟨.GAU_STAT, 0, 0⟩
def GAU_INTERVAL : Fld := ⟨.GAU_INTERVAL, 31, 0⟩
def GAU_GUARD : Fld := ⟨.GAU_GUARD, 31, 0⟩
def GAU_MARGIN : Fld := ⟨.GAU_MARGIN, 31, 0⟩
def GAU_FMIN : Fld := ⟨.GAU_FMIN, 31, 0⟩
def GAU_ROTHR : Fld := ⟨.GAU_ROTHR, 31, 0⟩
def GAU_STHF_16 : Fld := ⟨.GAU_STHF, 31, 16⟩
def GAU_STHF_0 : Fld := ⟨.GAU_STHF, 15, 0⟩
def GAU_CNT_16 : Fld := ⟨.GAU_CNT, 31, 16⟩
def GAU_CNT_8 : Fld := ⟨.GAU_CNT, 15, 8⟩
def GAU_CNT_0 : Fld := ⟨.GAU_CNT, 7, 0⟩
def GAU_RETIRE : Fld := ⟨.GAU_RETIRE, 31, 0⟩
def GAU_DOM_SLACK : Fld := ⟨.GAU_DOM_SLACK, 7, 0⟩
def GAU_B_FREQ_16 : Fld := ⟨.GAU_B_FREQ, 31, 16⟩
def GAU_B_FREQ_0 : Fld := ⟨.GAU_B_FREQ, 15, 0⟩
def GAU_B_TJ_16 : Fld := ⟨.GAU_B_TJ, 31, 16⟩
def GAU_B_TJ_0 : Fld := ⟨.GAU_B_TJ, 15, 0⟩
def GAU_B_VF_16 : Fld := ⟨.GAU_B_VF, 31, 16⟩
def GAU_B_VF_0 : Fld := ⟨.GAU_B_VF, 15, 0⟩
def RPR_STAT_APPLIED : Fld := ⟨.RPR_STAT, 31, 16⟩
def RPR_STAT_REJECTED : Fld := ⟨.RPR_STAT, 15, 8⟩
def RPR_STAT_UNSAVED : Fld := ⟨.RPR_STAT, 3, 3⟩
def RPR_STAT_SPAREFAIL : Fld := ⟨.RPR_STAT, 2, 2⟩
def RPR_STAT_REJECT : Fld := ⟨.RPR_STAT, 1, 1⟩
def RPR_STAT_DONE : Fld := ⟨.RPR_STAT, 0, 0⟩
def RPR_NEED_FIELDB : Fld := ⟨.RPR_NEED, 17, 17⟩
def RPR_NEED_FIELDA : Fld := ⟨.RPR_NEED, 16, 16⟩
def RPR_NEED_PNB : Fld := ⟨.RPR_NEED, 13, 8⟩
def RPR_NEED_PNA : Fld := ⟨.RPR_NEED, 5, 0⟩
def RPR_SLICE_FIELD1 : Fld := ⟨.RPR_SLICE, 17, 17⟩
def RPR_SLICE_FIELD0 : Fld := ⟨.RPR_SLICE, 16, 16⟩
def RPR_SLICE_PB1 : Fld := ⟨.RPR_SLICE, 14, 8⟩
def RPR_SLICE_PB0 : Fld := ⟨.RPR_SLICE, 6, 0⟩
def RPR_BEDF : Fld := ⟨.RPR_BEDF, 31, 0⟩
def RPR_BEDR : Fld := ⟨.RPR_BEDR, 31, 0⟩
def TMO_BEDREQ : Fld := ⟨.TMO_BEDREQ, 31, 0⟩
def TMO_DRAIN : Fld := ⟨.TMO_DRAIN, 31, 0⟩
def TMO_CBUS : Fld := ⟨.TMO_CBUS, 31, 0⟩
def TMO_BINDOFF : Fld := ⟨.TMO_BINDOFF, 31, 0⟩
def TMO_TWD : Fld := ⟨.TMO_TWD, 31, 0⟩
def TMO_TWD_EN : Fld := ⟨.TMO_TWD_EN, 11, 0⟩
def TMO_KICK : Fld := ⟨.TMO_KICK, 31, 0⟩
def TMO_RESET_COLD : Fld := ⟨.TMO_RESET, 31, 31⟩
def TMO_RESET_WARM : Fld := ⟨.TMO_RESET, 30, 30⟩
def TMO_RESET_HOOK : Fld := ⟨.TMO_RESET, 29, 29⟩
def TMO_RESET_CHGO : Fld := ⟨.TMO_RESET, 16, 16⟩
def TMO_RESET_CHAN : Fld := ⟨.TMO_RESET, 3, 0⟩
def TMO_CNT0_24 : Fld := ⟨.TMO_CNT0, 31, 24⟩
def TMO_CNT0_16 : Fld := ⟨.TMO_CNT0, 23, 16⟩
def TMO_CNT0_8 : Fld := ⟨.TMO_CNT0, 15, 8⟩
def TMO_CNT0_0 : Fld := ⟨.TMO_CNT0, 7, 0⟩
def TMO_CNT1_24 : Fld := ⟨.TMO_CNT1, 31, 24⟩
def TMO_CNT1_16 : Fld := ⟨.TMO_CNT1, 23, 16⟩
def TMO_CNT1_8 : Fld := ⟨.TMO_CNT1, 15, 8⟩
def TMO_CNT1_0 : Fld := ⟨.TMO_CNT1, 7, 0⟩
def TMO_RCAUSE_COUNT : Fld := ⟨.TMO_RCAUSE, 31, 16⟩
def TMO_RCAUSE_TRIG : Fld := ⟨.TMO_RCAUSE, 11, 8⟩
def TMO_RCAUSE_LEVEL : Fld := ⟨.TMO_RCAUSE, 3, 0⟩
def TMO_RTIME_LO : Fld := ⟨.TMO_RTIME_LO, 31, 0⟩
def TMO_RTIME_HI : Fld := ⟨.TMO_RTIME_HI, 31, 0⟩
def TMO_RENC_LO : Fld := ⟨.TMO_RENC_LO, 31, 0⟩
def TMO_RENC_HI : Fld := ⟨.TMO_RENC_HI, 31, 0⟩

end Sys2Proof.F
end

