-- ==== Sys2Proof/Machine/RegTable.lean ====
section
/-!
DEFINITION. Sys2Proof/Machine/RegTable.lean: the register tables of chapters 02 to 20 of spec/, field by field: position,
access, reset value, writable range, reserved codes and writing conditions (R8, R9, R545, R75), and the block bases of the
address map (17_host_interface.md).
-/
namespace Sys2Proof

/-- The base address of a block (17_host_interface.md, address map). -/
def Block.base : Block → Nat
  | .MTX => 0x10000000
  | .TMO => 0x10010000
  | .PWR => 0x10020000
  | .GAU => 0x10030000
  | .RPR => 0x10040000
  | .TBS => 0x10050000
  | .TIO => 0x10060000
  | .STH => 0x10070000
  | .DDR => 0x10080000
  | .CXP => 0x10090000
  | .HKC => 0x100A0000
  | .VOT => 0x100B0000
  | .KTH => 0x100C0000
  | .ECT => 0x100D0000
  | .BED => 0x100E0000
  | .PCI => 0x10100000
  | .PLQ => 0x10800000

/-- The table of a register kind. -/
def RegKind.info : RegKind → RegInfo
  | .TBS_CTRL => ⟨.TBS, 0x0, 0x0, 1, 0x0, 1, 0,
      [⟨3, 3, .rw, 0, 0, 4294967295, [], .always, true⟩,
       ⟨2, 2, .rw, 0, 0, 4294967295, [], .always, true⟩,
       ⟨1, 0, .rw, 0, 0, 4294967295, [], .always, true⟩]⟩
  | .TBS_STAT => ⟨.TBS, 0x4, 0x0, 1, 0x0, 1, 0,
      [⟨4, 4, .w1c, 0, 0, 4294967295, [], .always, true⟩,
       ⟨3, 3, .w1c, 0, 0, 4294967295, [], .always, true⟩,
       ⟨2, 2, .w1c, 0, 0, 4294967295, [], .always, true⟩,
       ⟨1, 1, .r, 0, 0, 4294967295, [], .always, true⟩,
       ⟨0, 0, .r, 0, 0, 4294967295, [], .always, true⟩]⟩
  | .TBS_TIME_LO => ⟨.TBS, 0x8, 0x0, 1, 0x0, 1, 0,
      [⟨31, 0, .r, 0, 0, 4294967295, [], .always, true⟩]⟩
  | .TBS_TIME_HI => ⟨.TBS, 0xC, 0x0, 1, 0x0, 1, 0,
      [⟨31, 0, .r, 0, 0, 4294967295, [], .always, true⟩]⟩
  | .TBS_OFFSET => ⟨.TBS, 0x10, 0x0, 1, 0x0, 1, 0,
      [⟨31, 0, .r, 0, 0, 4294967295, [], .always, true⟩]⟩
  | .TBS_SLEW => ⟨.TBS, 0x14, 0x0, 1, 0x0, 1, 0,
      [⟨31, 0, .rw, 200, 1, 500, [], .always, true⟩]⟩
  | .TBS_STEP_THR => ⟨.TBS, 0x18, 0x0, 1, 0x0, 1, 0,
      [⟨31, 0, .rw, 1000000, 0, 4294967295, [], .always, true⟩]⟩
  | .TBS_SET_LO => ⟨.TBS, 0x20, 0x0, 1, 0x0, 1, 0,
      [⟨31, 0, .w, 0, 0, 4294967295, [], .always, true⟩]⟩
  | .TBS_SET_HI => ⟨.TBS, 0x24, 0x0, 1, 0x0, 1, 0,
      [⟨31, 0, .w, 0, 0, 4294967295, [], .always, true⟩]⟩
  | .TIO_ARM => ⟨.TIO, 0x0, 0x0, 1, 0x0, 1, 0,
      [⟨2, 2, .w, 0, 0, 4294967295, [], .always, false⟩,
       ⟨1, 1, .w, 0, 0, 4294967295, [], .always, false⟩,
       ⟨0, 0, .r, 0, 0, 4294967295, [], .always, false⟩]⟩
  | .TIO_ENC_CTRL => ⟨.TIO, 0x100, 0x20, 8, 0x0, 1, 0,
      [⟨23, 8, .rw, 10000, 1, 65535, [], .always, true⟩,
       ⟨5, 4, .rw, 0, 0, 4294967295, [], .always, true⟩,
       ⟨1, 1, .rw, 0, 0, 4294967295, [], .always, true⟩,
       ⟨0, 0, .rw, 0, 0, 4294967295, [], .always, true⟩]⟩
  | .TIO_ENC_STAT => ⟨.TIO, 0x104, 0x20, 8, 0x0, 1, 0,
      [⟨31, 16, .rsc, 0, 0, 4294967295, [], .always, true⟩,
       ⟨3, 3, .r, 1, 0, 4294967295, [], .always, true⟩,
       ⟨2, 2, .r, 0, 0, 4294967295, [], .always, true⟩,
       ⟨1, 1, .w1c, 0, 0, 4294967295, [], .always, true⟩,
       ⟨0, 0, .w1c, 0, 0, 4294967295, [], .always, true⟩]⟩
  | .TIO_ENC_POS_LO => ⟨.TIO, 0x108, 0x20, 8, 0x0, 1, 0,
      [⟨31, 0, .r, 0, 0, 4294967295, [], .always, true⟩]⟩
  | .TIO_ENC_POS_HI => ⟨.TIO, 0x10C, 0x20, 8, 0x0, 1, 0,
      [⟨31, 0, .r, 0, 0, 4294967295, [], .always, true⟩]⟩
  | .TIO_ENC_SPEED => ⟨.TIO, 0x110, 0x20, 8, 0x0, 1, 0,
      [⟨31, 0, .r, 0, 0, 4294967295, [], .always, false⟩]⟩
  | .TIO_CH_CTRL => ⟨.TIO, 0x400, 0x40, 16, 0x0, 1, 0,
      [⟨17, 17, .rw, 0, 0, 4294967295, [], .always, true⟩,
       ⟨16, 16, .rw, 1, 0, 4294967295, [], .always, true⟩,
       ⟨15, 15, .rw, 0, 0, 4294967295, [], .always, true⟩,
       ⟨14, 14, .rw, 0, 0, 4294967295, [], .chIdle, true⟩,
       ⟨13, 10, .rw, 0, 0, 4294967295, [], .chIdle, true⟩,
       ⟨9, 5, .rw, 0, 0, 4294967295, [], .always, true⟩,
       ⟨4, 2, .rw, 0, 0, 4294967295, [], .always, true⟩,
       ⟨1, 0, .rw, 0, 0, 4294967295, [], .chIdle, true⟩]⟩
  | .TIO_CH_ROW_LO => ⟨.TIO, 0x408, 0x40, 16, 0x0, 1, 0,
      [⟨31, 0, .rw, 0, 0, 4294967295, [], .chIdle, true⟩]⟩
  | .TIO_CH_ROW_HI => ⟨.TIO, 0x40C, 0x40, 16, 0x0, 1, 0,
      [⟨31, 0, .rw, 0, 0, 4294967295, [], .chIdle, true⟩]⟩
  | .TIO_CH_DIV => ⟨.TIO, 0x410, 0x40, 16, 0x0, 1, 0,
      [⟨31, 0, .rw, 65536, 65536, 4294967295, [], .always, false⟩]⟩
  | .TIO_CH_PERIOD => ⟨.TIO, 0x414, 0x40, 16, 0x0, 1, 0,
      [⟨31, 0, .rw, 1000, 1000, 4294967295, [], .always, false⟩]⟩
  | .TIO_CH_SCALE => ⟨.TIO, 0x418, 0x40, 16, 0x0, 1, 0,
      [⟨31, 0, .rw, 0, 0, 4294967295, [], .always, false⟩]⟩
  | .TIO_CH_PITCH => ⟨.TIO, 0x41C, 0x40, 16, 0x0, 1, 0,
      [⟨31, 0, .rw, 0, 0, 4294967295, [], .always, false⟩]⟩
  | .TIO_CH_OFFSET_LO => ⟨.TIO, 0x420, 0x40, 16, 0x0, 1, 0,
      [⟨31, 0, .rw, 0, 0, 4294967295, [], .always, false⟩]⟩
  | .TIO_CH_OFFSET_HI => ⟨.TIO, 0x424, 0x40, 16, 0x0, 1, 0,
      [⟨31, 0, .rw, 0, 0, 4294967295, [], .always, false⟩]⟩
  | .TIO_CAP_CTRL => ⟨.TIO, 0x800, 0x20, 16, 0x0, 1, 0,
      [⟨7, 4, .rw, 0, 0, 4294967295, [], .always, false⟩,
       ⟨2, 1, .rw, 0, 0, 4294967295, [3], .always, false⟩,
       ⟨0, 0, .rw, 0, 0, 4294967295, [], .always, false⟩]⟩
  | .TIO_CAP_STAT => ⟨.TIO, 0x804, 0x20, 16, 0x0, 1, 0,
      [⟨31, 16, .rsc, 0, 0, 4294967295, [], .always, false⟩, ⟨3, 0, .r, 0, 0, 4294967295, [], .always, false⟩]⟩
  | .TIO_CAP_TIME_LO => ⟨.TIO, 0x808, 0x20, 16, 0x0, 1, 0,
      [⟨31, 0, .r, 0, 0, 4294967295, [], .always, false⟩]⟩
  | .TIO_CAP_TIME_HI => ⟨.TIO, 0x80C, 0x20, 16, 0x0, 1, 0,
      [⟨31, 0, .r, 0, 0, 4294967295, [], .always, false⟩]⟩
  | .TIO_CAP_ROW_LO => ⟨.TIO, 0x810, 0x20, 16, 0x0, 1, 0,
      [⟨31, 0, .r, 0, 0, 4294967295, [], .always, false⟩]⟩
  | .TIO_CAP_ROW_HI => ⟨.TIO, 0x814, 0x20, 16, 0x0, 1, 0,
      [⟨31, 0, .r, 0, 0, 4294967295, [], .always, false⟩]⟩
  | .TIO_CAP_POS_LO => ⟨.TIO, 0x818, 0x20, 16, 0x0, 1, 0,
      [⟨31, 0, .r, 0, 0, 4294967295, [], .always, false⟩]⟩
  | .TIO_CAP_POS_HI => ⟨.TIO, 0x81C, 0x20, 16, 0x0, 1, 0,
      [⟨31, 0, .r, 0, 0, 4294967295, [], .always, false⟩]⟩
  | .TIO_OUT_CTRL => ⟨.TIO, 0x1000, 0x20, 64, 0x0, 1, 0,
      [⟨15, 12, .rw, 0, 0, 4294967295, [], .always, false⟩,
       ⟨11, 11, .rw, 0, 0, 4294967295, [], .outNotBindoff, false⟩,
       ⟨10, 10, .rw, 0, 0, 4294967295, [], .always, false⟩,
       ⟨9, 9, .rw, 0, 0, 4294967295, [], .always, false⟩,
       ⟨8, 8, .rw, 0, 0, 4294967295, [], .always, false⟩,
       ⟨7, 7, .rw, 0, 0, 4294967295, [], .always, false⟩,
       ⟨4, 4, .rw, 0, 0, 4294967295, [], .always, true⟩,
       ⟨3, 3, .rw, 0, 0, 4294967295, [], .always, true⟩,
       ⟨1, 0, .rw, 2, 0, 4294967295, [], .always, true⟩]⟩
  | .TIO_OUT_STAT => ⟨.TIO, 0x1004, 0x20, 64, 0x0, 1, 0,
      [⟨15, 10, .r, 0, 0, 4294967295, [], .always, false⟩,
       ⟨2, 2, .r, 0, 0, 4294967295, [], .always, false⟩,
       ⟨1, 1, .r, 0, 0, 4294967295, [], .always, false⟩,
       ⟨0, 0, .r, 0, 0, 4294967295, [], .always, false⟩]⟩
  | .TIO_OUT_STATION => ⟨.TIO, 0x1008, 0x20, 64, 0x0, 1, 0,
      [⟨31, 0, .rw, 0, 0, 4294967295, [], .always, false⟩]⟩
  | .TIO_OUT_SKEW => ⟨.TIO, 0x100C, 0x20, 64, 0x0, 1, 0,
      [⟨31, 0, .rw, 0, 0, 4294967295, [], .always, false⟩]⟩
  | .TIO_OUT_CNT => ⟨.TIO, 0x1010, 0x20, 64, 0x0, 1, 0,
      [⟨31, 24, .rsc, 0, 0, 4294967295, [], .always, false⟩,
       ⟨23, 16, .rsc, 0, 0, 4294967295, [], .always, false⟩,
       ⟨15, 8, .rsc, 0, 0, 4294967295, [], .always, false⟩,
       ⟨7, 0, .rsc, 0, 0, 4294967295, [], .always, false⟩]⟩
  | .TIO_OUT_CNT2 => ⟨.TIO, 0x1014, 0x20, 64, 0x0, 1, 0,
      [⟨31, 24, .rsc, 0, 0, 4294967295, [], .always, false⟩,
       ⟨23, 16, .rsc, 0, 0, 4294967295, [], .always, false⟩,
       ⟨15, 8, .rsc, 0, 0, 4294967295, [], .always, false⟩,
       ⟨7, 0, .rsc, 0, 0, 4294967295, [], .always, false⟩]⟩
  | .TIO_OUT_EVIN => ⟨.TIO, 0x1018, 0x20, 64, 0x0, 1, 0,
      [⟨31, 0, .w, 0, 0, 4294967295, [], .always, false⟩]⟩
  | .CXP_LNK_CTRL => ⟨.CXP, 0x0, 0x20, 32, 0x0, 1, 0,
      [⟨15, 8, .rw, 16, 1, 255, [], .always, false⟩,
       ⟨3, 1, .rw, 6, 0, 4294967295, [], .always, false⟩,
       ⟨0, 0, .rw, 0, 0, 4294967295, [], .always, false⟩]⟩
  | .CXP_LNK_STAT => ⟨.CXP, 0x4, 0x20, 32, 0x0, 1, 0,
      [⟨7, 5, .r, 0, 0, 4294967295, [], .always, false⟩,
       ⟨4, 4, .w1c, 0, 0, 4294967295, [], .always, false⟩,
       ⟨3, 3, .w1c, 0, 0, 4294967295, [], .always, false⟩,
       ⟨2, 2, .r, 0, 0, 4294967295, [], .always, false⟩,
       ⟨1, 1, .r, 0, 0, 4294967295, [], .always, false⟩,
       ⟨0, 0, .r, 0, 0, 4294967295, [], .always, false⟩]⟩
  | .CXP_LNK_DELAY => ⟨.CXP, 0x8, 0x20, 32, 0x0, 1, 0,
      [⟨31, 0, .rw, 0, 0, 65535, [], .always, false⟩]⟩
  | .CXP_LNK_HBTO => ⟨.CXP, 0xC, 0x20, 32, 0x0, 1, 0,
      [⟨31, 0, .rw, 10, 1, 65535, [], .always, false⟩]⟩
  | .CXP_LNK_ERRS => ⟨.CXP, 0x10, 0x20, 32, 0x0, 1, 0,
      [⟨31, 16, .rsc, 0, 0, 4294967295, [], .always, false⟩, ⟨15, 0, .rsc, 0, 0, 4294967295, [], .always, false⟩]⟩
  | .CXP_LNK_CNT => ⟨.CXP, 0x14, 0x20, 32, 0x0, 1, 0,
      [⟨31, 24, .rsc, 0, 0, 4294967295, [], .always, false⟩,
       ⟨23, 16, .rsc, 0, 0, 4294967295, [], .always, false⟩,
       ⟨15, 8, .rsc, 0, 0, 4294967295, [], .always, false⟩,
       ⟨7, 0, .rsc, 0, 0, 4294967295, [], .always, false⟩]⟩
  | .CXP_CAM_CTRL => ⟨.CXP, 0x800, 0x40, 32, 0x0, 1, 0,
      [⟨17, 17, .rw, 0, 0, 4294967295, [], .always, false⟩,
       ⟨16, 14, .rw, 0, 0, 4294967295, [], .always, false⟩,
       ⟨13, 9, .rw, 0, 0, 4294967295, [], .always, false⟩,
       ⟨4, 1, .rw, 0, 0, 4294967295, [], .always, false⟩,
       ⟨0, 0, .rw, 0, 0, 4294967295, [], .camIdle, false⟩]⟩
  | .CXP_CAM_LINKS => ⟨.CXP, 0x804, 0x40, 32, 0x0, 1, 0,
      [⟨31, 0, .rw, 0, 0, 4294967295, [], .always, false⟩]⟩
  | .CXP_CAM_TRIG => ⟨.CXP, 0x808, 0x40, 32, 0x0, 1, 0,
      [⟨31, 0, .rw, 0, 0, 4294967295, [], .always, false⟩]⟩
  | .CXP_CAM_WIDTH => ⟨.CXP, 0x80C, 0x40, 32, 0x0, 1, 0,
      [⟨31, 0, .rw, 0, 1, 65535, [], .always, false⟩]⟩
  | .CXP_CAM_TRIM => ⟨.CXP, 0x810, 0x40, 32, 0x0, 1, 0,
      [⟨31, 16, .rw, 0, 0, 4294967295, [], .always, false⟩, ⟨15, 0, .rw, 0, 0, 4294967295, [], .always, false⟩]⟩
  | .CXP_CAM_DEST => ⟨.CXP, 0x814, 0x40, 32, 0x0, 1, 0,
      [⟨31, 0, .rw, 0, 0, 1048575, [], .always, false⟩]⟩
  | .CXP_CAM_TAG => ⟨.CXP, 0x818, 0x40, 32, 0x0, 1, 0,
      [⟨31, 16, .r, 0, 0, 4294967295, [], .always, false⟩, ⟨15, 0, .r, 0, 0, 4294967295, [], .always, false⟩]⟩
  | .CXP_CH_ICTRL => ⟨.CXP, 0x1000, 0x80, 16, 0x0, 1, 0,
      [⟨31, 24, .rw, 0, 0, 4294967295, [], .always, false⟩,
       ⟨3, 3, .rw, 0, 0, 4294967295, [], .always, false⟩,
       ⟨2, 2, .rw, 0, 0, 4294967295, [], .always, false⟩,
       ⟨1, 1, .rw, 0, 0, 4294967295, [], .always, false⟩,
       ⟨0, 0, .rw, 0, 0, 4294967295, [], .always, false⟩]⟩
  | .CXP_CH_ISTAT => ⟨.CXP, 0x1004, 0x80, 16, 0x0, 1, 0,
      [⟨5, 5, .w1c, 0, 0, 4294967295, [], .always, false⟩,
       ⟨4, 4, .r, 0, 0, 4294967295, [], .always, false⟩,
       ⟨3, 3, .w1c, 0, 0, 4294967295, [], .always, false⟩,
       ⟨2, 2, .r, 0, 0, 4294967295, [], .always, false⟩,
       ⟨1, 1, .r, 0, 0, 4294967295, [], .always, false⟩,
       ⟨0, 0, .r, 0, 0, 4294967295, [], .always, false⟩]⟩
  | .CXP_CH_RING_BASE => ⟨.CXP, 0x1008, 0x80, 16, 0x0, 1, 0,
      [⟨31, 16, .rw, 0, 0, 4294967295, [], .always, false⟩]⟩
  | .CXP_CH_RING_SIZE => ⟨.CXP, 0x100C, 0x80, 16, 0x0, 1, 0,
      [⟨31, 16, .rw, 32, 1, 256, [], .always, false⟩]⟩
  | .CXP_CH_WALES => ⟨.CXP, 0x1010, 0x80, 16, 0x0, 1, 0,
      [⟨31, 0, .rw, 0, 1, 1048575, [], .always, false⟩]⟩
  | .CXP_CH_NSLOTS => ⟨.CXP, 0x1014, 0x80, 16, 0x0, 1, 0,
      [⟨31, 0, .r, 0, 0, 4294967295, [], .always, false⟩]⟩
  | .CXP_CH_CWD => ⟨.CXP, 0x1018, 0x80, 16, 0x0, 1, 0,
      [⟨31, 0, .rw, 1000, 10, 65535, [], .always, false⟩]⟩
  | .CXP_CH_CONS => ⟨.CXP, 0x101C, 0x80, 16, 0x0, 1, 0,
      [⟨31, 28, .rw, 0, 0, 4294967295, [], .always, false⟩,
       ⟨27, 24, .rw, 0, 0, 4294967295, [], .always, false⟩,
       ⟨23, 20, .rw, 0, 0, 4294967295, [], .always, false⟩,
       ⟨19, 16, .rw, 0, 0, 4294967295, [], .always, false⟩,
       ⟨15, 15, .rw, 0, 0, 4294967295, [], .always, false⟩,
       ⟨14, 13, .rw, 0, 0, 4294967295, [3], .always, false⟩,
       ⟨11, 11, .rw, 0, 0, 4294967295, [], .always, false⟩,
       ⟨10, 9, .rw, 0, 0, 4294967295, [3], .always, false⟩,
       ⟨7, 7, .rw, 0, 0, 4294967295, [], .always, false⟩,
       ⟨6, 5, .rw, 0, 0, 4294967295, [3], .always, false⟩,
       ⟨3, 3, .rw, 0, 0, 4294967295, [], .always, false⟩,
       ⟨2, 1, .rw, 0, 0, 4294967295, [3], .always, false⟩]⟩
  | .CXP_CH_REL_LO => ⟨.CXP, 0x1020, 0x80, 16, 0x8, 4, 0,
      [⟨31, 0, .rw, 0, 0, 4294967295, [], .always, false⟩]⟩
  | .CXP_CH_REL_HI => ⟨.CXP, 0x1024, 0x80, 16, 0x8, 4, 0,
      [⟨31, 0, .rw, 0, 0, 4294967295, [], .always, false⟩]⟩
  | .CXP_CH_DLOG_LO => ⟨.CXP, 0x1040, 0x80, 16, 0x0, 1, 0,
      [⟨31, 0, .r, 0, 0, 4294967295, [], .always, false⟩]⟩
  | .CXP_CH_DLOG_HI => ⟨.CXP, 0x1044, 0x80, 16, 0x0, 1, 0,
      [⟨31, 0, .r, 0, 0, 4294967295, [], .always, false⟩]⟩
  | .CXP_CH_DLOG_CAUSE => ⟨.CXP, 0x1048, 0x80, 16, 0x0, 1, 0,
      [⟨15, 8, .r, 0, 0, 4294967295, [], .always, false⟩, ⟨3, 0, .r, 0, 0, 4294967295, [], .always, false⟩]⟩
  | .CXP_CH_CNT => ⟨.CXP, 0x104C, 0x80, 16, 0x0, 1, 0,
      [⟨31, 16, .rsc, 0, 0, 4294967295, [], .always, false⟩, ⟨15, 0, .rsc, 0, 0, 4294967295, [], .always, false⟩]⟩
  | .CXP_MBX_CMD => ⟨.CXP, 0x2000, 0x200, 32, 0x0, 1, 0,
      [⟨31, 31, .w, 0, 0, 4294967295, [], .always, false⟩,
       ⟨30, 30, .rw, 0, 0, 4294967295, [], .always, false⟩,
       ⟨21, 16, .rw, 0, 0, 4294967295, [], .always, false⟩,
       ⟨0, 0, .rw, 0, 0, 4294967295, [], .system, false⟩]⟩
  | .CXP_MBX_STAT => ⟨.CXP, 0x2004, 0x200, 32, 0x0, 1, 0,
      [⟨15, 8, .r, 0, 0, 4294967295, [], .always, false⟩,
       ⟨4, 4, .w1c, 0, 0, 4294967295, [], .always, false⟩,
       ⟨3, 3, .w1c, 0, 0, 4294967295, [], .always, false⟩,
       ⟨2, 2, .w1c, 0, 0, 4294967295, [], .always, false⟩,
       ⟨1, 1, .w1c, 0, 0, 4294967295, [], .always, false⟩,
       ⟨0, 0, .r, 0, 0, 4294967295, [], .always, false⟩]⟩
  | .CXP_MBX_ADDR => ⟨.CXP, 0x2008, 0x200, 32, 0x0, 1, 0,
      [⟨31, 0, .rw, 0, 0, 4294967295, [], .always, false⟩]⟩
  | .CXP_MBX_TO => ⟨.CXP, 0x200C, 0x200, 32, 0x0, 1, 0,
      [⟨31, 0, .rw, 200, 1, 65535, [], .always, false⟩]⟩
  | .CXP_MBX_DATA => ⟨.CXP, 0x2100, 0x200, 32, 0x4, 64, 0,
      [⟨31, 0, .rw, 0, 0, 4294967295, [], .always, false⟩]⟩
  | .CXP_EVT_STAT => ⟨.CXP, 0x6000, 0x0, 1, 0x0, 1, 0,
      [⟨31, 16, .rsc, 0, 0, 4294967295, [], .always, false⟩, ⟨6, 0, .r, 0, 0, 4294967295, [], .always, false⟩]⟩
  | .CXP_EVT_HEAD => ⟨.CXP, 0x6040, 0x4, 16, 0x0, 1, 0,
      [⟨31, 0, .r, 0, 0, 4294967295, [], .always, false⟩]⟩
  | .STH_CTRL => ⟨.STH, 0x0, 0x0, 1, 0x0, 1, 0,
      [⟨1, 1, .rw, 1, 0, 4294967295, [], .always, false⟩, ⟨0, 0, .rw, 1, 0, 4294967295, [], .always, false⟩]⟩
  | .STH_STAT => ⟨.STH, 0x4, 0x0, 1, 0x0, 1, 0,
      [⟨4, 4, .w1c, 0, 0, 4294967295, [], .always, false⟩,
       ⟨3, 3, .w1c, 0, 0, 4294967295, [], .always, false⟩,
       ⟨2, 2, .w1c, 0, 0, 4294967295, [], .always, false⟩,
       ⟨1, 1, .r, 0, 0, 4294967295, [], .always, false⟩,
       ⟨0, 0, .r, 0, 0, 4294967295, [], .always, false⟩]⟩
  | .STH_ARB_TO => ⟨.STH, 0x8, 0x0, 1, 0x0, 1, 0,
      [⟨31, 0, .rw, 64, 64, 255, [], .always, false⟩]⟩
  | .STH_TEST_GAP => ⟨.STH, 0xC, 0x0, 1, 0x0, 1, 0,
      [⟨31, 0, .rw, 0, 0, 65535, [], .always, false⟩]⟩
  | .STH_TEST_POS => ⟨.STH, 0x10, 0x0, 1, 0x0, 1, 0,
      [⟨18, 16, .r, 0, 0, 4294967295, [], .always, false⟩,
       ⟨13, 8, .r, 0, 0, 4294967295, [], .always, false⟩,
       ⟨6, 0, .r, 0, 0, 4294967295, [], .always, false⟩]⟩
  | .STH_TEST_CNT => ⟨.STH, 0x14, 0x0, 1, 0x0, 1, 0,
      [⟨31, 16, .rsc, 0, 0, 4294967295, [], .always, false⟩,
       ⟨15, 8, .rsc, 0, 0, 4294967295, [], .always, false⟩,
       ⟨7, 0, .rsc, 0, 0, 4294967295, [], .always, false⟩]⟩
  | .STH_ECC_CNT => ⟨.STH, 0x18, 0x0, 1, 0x0, 1, 0,
      [⟨31, 16, .rsc, 0, 0, 4294967295, [], .always, false⟩, ⟨15, 0, .rsc, 0, 0, 4294967295, [], .always, false⟩]⟩
  | .STH_ECC_ADDR => ⟨.STH, 0x1C, 0x0, 1, 0x0, 1, 0,
      [⟨26, 4, .r, 0, 0, 4294967295, [], .always, false⟩]⟩
  | .STH_STARVE => ⟨.STH, 0x20, 0x0, 1, 0x0, 1, 0,
      [⟨31, 0, .rsc, 0, 0, 4294967295, [], .always, false⟩]⟩
  | .STH_SLICE_SPARE => ⟨.STH, 0x100, 0x4, 64, 0x0, 1, 0,
      [⟨23, 16, .r, 0, 0, 4294967295, [], .always, false⟩,
       ⟨15, 8, .r, 64, 0, 4294967295, [], .always, false⟩,
       ⟨7, 0, .r, 64, 0, 4294967295, [], .always, false⟩]⟩
  | .STH_CONFL_LO => ⟨.STH, 0x400, 0x8, 136, 0x0, 1, 0,
      [⟨31, 0, .r, 0, 0, 4294967295, [], .always, false⟩]⟩
  | .STH_CONFL_HI => ⟨.STH, 0x404, 0x8, 136, 0x0, 1, 0,
      [⟨31, 0, .r, 0, 0, 4294967295, [], .always, false⟩]⟩
  | .DDR_CTRL => ⟨.DDR, 0x0, 0x0, 1, 0x0, 1, 0,
      [⟨1, 1, .rw, 1, 0, 4294967295, [], .always, false⟩, ⟨0, 0, .rw, 1, 0, 4294967295, [], .always, false⟩]⟩
  | .DDR_CFG => ⟨.DDR, 0x4, 0x0, 1, 0x0, 1, 0,
      [⟨31, 28, .r, 0, 0, 4294967295, [], .always, false⟩,
       ⟨27, 16, .r, 0, 0, 4294967295, [], .always, false⟩,
       ⟨6, 6, .r, 0, 0, 4294967295, [], .always, false⟩,
       ⟨5, 4, .r, 0, 0, 4294967295, [], .always, false⟩,
       ⟨3, 0, .r, 0, 0, 4294967295, [], .always, false⟩]⟩
  | .DDR_SCRUB_PER => ⟨.DDR, 0x8, 0x0, 1, 0x0, 1, 0,
      [⟨31, 0, .rw, 24, 1, 168, [], .always, false⟩]⟩
  | .DDR_TOP_LO => ⟨.DDR, 0x10, 0x0, 1, 0x0, 1, 0,
      [⟨31, 0, .r, 0, 0, 4294967295, [], .always, false⟩]⟩
  | .DDR_TOP_HI => ⟨.DDR, 0x14, 0x0, 1, 0x0, 1, 0,
      [⟨31, 0, .r, 256, 0, 4294967295, [], .always, false⟩]⟩
  | .DDR_CH_CTRL => ⟨.DDR, 0x1000, 0x40, 12, 0x0, 1, 0,
      [⟨15, 8, .rw, 95, 0, 4294967295, [], .always, false⟩, ⟨0, 0, .w, 0, 0, 4294967295, [], .always, false⟩]⟩
  | .DDR_CH_STAT => ⟨.DDR, 0x1004, 0x40, 12, 0x0, 1, 0,
      [⟨6, 6, .w1c, 0, 0, 4294967295, [], .always, false⟩,
       ⟨5, 5, .r, 0, 0, 4294967295, [], .always, false⟩,
       ⟨4, 4, .w1c, 0, 0, 4294967295, [], .always, false⟩,
       ⟨3, 3, .r, 0, 0, 4294967295, [], .always, false⟩,
       ⟨2, 2, .r, 0, 0, 4294967295, [], .always, false⟩,
       ⟨1, 1, .r, 0, 0, 4294967295, [], .always, false⟩,
       ⟨0, 0, .r, 0, 0, 4294967295, [], .always, false⟩]⟩
  | .DDR_CH_TO => ⟨.DDR, 0x1008, 0x40, 12, 0x0, 1, 0,
      [⟨31, 0, .rw, 20, 1, 65535, [], .always, false⟩]⟩
  | .DDR_CH_ECC => ⟨.DDR, 0x100C, 0x40, 12, 0x0, 1, 0,
      [⟨31, 16, .rsc, 0, 0, 4294967295, [], .always, false⟩, ⟨15, 0, .rsc, 0, 0, 4294967295, [], .always, false⟩]⟩
  | .DDR_CH_ELOG_LO => ⟨.DDR, 0x1010, 0x40, 12, 0x0, 1, 0,
      [⟨31, 0, .r, 0, 0, 4294967295, [], .always, false⟩]⟩
  | .DDR_CH_ELOG_HI => ⟨.DDR, 0x1014, 0x40, 12, 0x0, 1, 0,
      [⟨31, 0, .r, 0, 0, 4294967295, [], .always, false⟩]⟩
  | .DDR_CH_EINFO => ⟨.DDR, 0x1018, 0x40, 12, 0x0, 1, 0,
      [⟨15, 15, .r, 0, 0, 4294967295, [], .always, false⟩,
       ⟨9, 5, .r, 0, 0, 4294967295, [], .always, false⟩,
       ⟨4, 2, .r, 0, 0, 4294967295, [], .always, false⟩,
       ⟨1, 1, .r, 0, 0, 4294967295, [], .always, false⟩,
       ⟨0, 0, .r, 0, 0, 4294967295, [], .always, false⟩]⟩
  | .DDR_CH_CNT => ⟨.DDR, 0x101C, 0x40, 12, 0x0, 1, 0,
      [⟨31, 24, .rsc, 0, 0, 4294967295, [], .always, false⟩,
       ⟨23, 16, .rsc, 0, 0, 4294967295, [], .always, false⟩,
       ⟨15, 8, .rsc, 0, 0, 4294967295, [], .always, false⟩,
       ⟨7, 0, .rsc, 0, 0, 4294967295, [], .always, false⟩]⟩
  | .DDR_CH_TEMP => ⟨.DDR, 0x1020, 0x40, 12, 0x0, 1, 0,
      [⟨7, 0, .r, 0, 0, 4294967295, [], .always, false⟩]⟩
  | .BED_STALE_LO => ⟨.BED, 0x0, 0x0, 1, 0x0, 1, 0,
      [⟨31, 0, .r, 0, 0, 4294967295, [], .always, false⟩]⟩
  | .BED_STALE_HI => ⟨.BED, 0x4, 0x0, 1, 0x0, 1, 0,
      [⟨31, 0, .r, 0, 0, 4294967295, [], .always, false⟩]⟩
  | .BED_LIMIT => ⟨.BED, 0x8, 0x0, 1, 0x0, 1, 0,
      [⟨23, 16, .r, 0, 0, 4294967295, [], .always, false⟩, ⟨7, 0, .r, 0, 0, 4294967295, [], .always, false⟩]⟩
  | .BED_CTRL => ⟨.BED, 0x100, 0x20, 136, 0x0, 1, 0,
      [⟨16, 16, .w, 0, 0, 4294967295, [], .always, false⟩,
       ⟨14, 8, .rw, 0, 0, 4294967295, [], .always, false⟩,
       ⟨7, 2, .rw, 0, 0, 4294967295, [], .always, false⟩,
       ⟨1, 1, .rw, 0, 0, 4294967295, [], .always, false⟩,
       ⟨0, 0, .rw, 0, 0, 4294967295, [], .always, false⟩]⟩
  | .BED_STAT => ⟨.BED, 0x104, 0x20, 136, 0x0, 1, 0,
      [⟨16, 8, .r, 0, 0, 4294967295, [], .always, false⟩,
       ⟨6, 6, .r, 0, 0, 4294967295, [], .always, false⟩,
       ⟨5, 5, .w1c, 0, 0, 4294967295, [], .always, false⟩,
       ⟨4, 4, .r, 0, 0, 4294967295, [], .always, false⟩,
       ⟨3, 3, .r, 0, 0, 4294967295, [], .always, false⟩,
       ⟨2, 2, .r, 1, 0, 4294967295, [], .always, false⟩,
       ⟨1, 1, .r, 0, 0, 4294967295, [], .always, false⟩,
       ⟨0, 0, .r, 0, 0, 4294967295, [], .always, false⟩]⟩
  | .BED_WSTALL => ⟨.BED, 0x108, 0x20, 136, 0x0, 1, 0,
      [⟨31, 0, .rsc, 0, 0, 4294967295, [], .always, false⟩]⟩
  | .BED_SSTALL => ⟨.BED, 0x10C, 0x20, 136, 0x0, 1, 0,
      [⟨31, 0, .rsc, 0, 0, 4294967295, [], .always, false⟩]⟩
  | .PLQ_CTRL => ⟨.PLQ, 0x0, 0x400, 64, 0x0, 1, 0,
      [⟨9, 9, .rw, 0, 0, 4294967295, [], .always, false⟩,
       ⟨8, 7, .rw, 0, 0, 4294967295, [], .always, false⟩,
       ⟨6, 3, .rw, 0, 0, 4294967295, [], .always, false⟩,
       ⟨2, 2, .rw, 0, 0, 4294967295, [], .pinQueue, false⟩,
       ⟨1, 1, .rw, 0, 0, 4294967295, [], .system, false⟩,
       ⟨0, 0, .rw, 0, 0, 4294967295, [], .always, false⟩]⟩
  | .PLQ_STAT => ⟨.PLQ, 0x4, 0x400, 64, 0x0, 1, 0,
      [⟨28, 24, .r, 0, 0, 4294967295, [], .always, false⟩,
       ⟨21, 16, .r, 0, 0, 4294967295, [], .always, false⟩,
       ⟨12, 8, .r, 0, 0, 4294967295, [], .always, false⟩,
       ⟨5, 5, .w1c, 0, 0, 4294967295, [], .always, false⟩,
       ⟨4, 4, .w1c, 0, 0, 4294967295, [], .always, false⟩,
       ⟨3, 3, .r, 0, 0, 4294967295, [], .always, false⟩,
       ⟨2, 2, .r, 0, 0, 4294967295, [], .always, false⟩,
       ⟨1, 1, .r, 0, 0, 4294967295, [], .always, false⟩,
       ⟨0, 0, .r, 0, 0, 4294967295, [], .always, false⟩]⟩
  | .PLQ_BIND => ⟨.PLQ, 0x8, 0x400, 64, 0x0, 1, 0,
      [⟨31, 16, .r, 0, 0, 4294967295, [], .always, false⟩,
       ⟨15, 15, .w, 0, 0, 4294967295, [], .always, false⟩,
       ⟨6, 6, .rw, 0, 0, 4294967295, [], .always, false⟩,
       ⟨5, 0, .rw, 0, 0, 4294967295, [], .plqIdle, false⟩]⟩
  | .PLQ_WD => ⟨.PLQ, 0xC, 0x400, 64, 0x0, 1, 0,
      [⟨31, 0, .rw, 1000, 1, 4294967295, [], .always, false⟩]⟩
  | .PLQ_CMD => ⟨.PLQ, 0x10, 0x400, 64, 0x0, 1, 0,
      [⟨1, 1, .w, 0, 0, 4294967295, [], .always, false⟩, ⟨0, 0, .w, 0, 0, 4294967295, [], .always, false⟩]⟩
  | .PLQ_CNT => ⟨.PLQ, 0x14, 0x400, 64, 0x0, 1, 0,
      [⟨31, 16, .rsc, 0, 0, 4294967295, [], .always, false⟩,
       ⟨15, 8, .rsc, 0, 0, 4294967295, [], .always, false⟩,
       ⟨7, 0, .rsc, 0, 0, 4294967295, [], .always, false⟩]⟩
  | .PLQ_SUB => ⟨.PLQ, 0x40, 0x400, 64, 0x4, 16, 0,
      [⟨31, 0, .w, 0, 0, 4294967295, [], .always, false⟩]⟩
  | .PLQ_PIN => ⟨.PLQ, 0x80, 0x400, 64, 0x4, 16, 0,
      [⟨31, 0, .rw, 0, 0, 4294967295, [], .pinDisabled, false⟩]⟩
  | .PLQ_CPL => ⟨.PLQ, 0xC0, 0x400, 64, 0x4, 8, 0,
      [⟨31, 0, .r, 0, 0, 4294967295, [], .always, false⟩]⟩
  | .PLQ_PRG => ⟨.PLQ, 0x100000, 0x8000, 64, 0x4, 8192, 0,
      [⟨31, 0, .r, 0, 0, 4294967295, [], .always, false⟩]⟩
  | .PLQ_LIFE => ⟨.PLQ, 0x18, 0x400, 64, 0x0, 1, 0,
      [⟨26, 26, .r, 0, 0, 4294967295, [], .always, false⟩,
       ⟨25, 16, .r, 0, 0, 4294967295, [], .always, false⟩,
       ⟨11, 4, .r, 0, 0, 4294967295, [], .always, false⟩,
       ⟨2, 0, .r, 0, 0, 4294967295, [], .always, false⟩]⟩
  | .PLQ_MIG => ⟨.PLQ, 0x1C, 0x400, 64, 0x0, 1, 0,
      [⟨31, 31, .w, 0, 0, 4294967295, [], .always, false⟩,
       ⟨30, 30, .r, 0, 0, 4294967295, [], .always, false⟩,
       ⟨29, 29, .w1c, 0, 0, 4294967295, [], .always, false⟩,
       ⟨28, 28, .w1c, 0, 0, 4294967295, [], .always, false⟩,
       ⟨23, 16, .rw, 0, 0, 135, [], .always, false⟩,
       ⟨6, 0, .rw, 0, 0, 4294967295, [], .always, false⟩]⟩
  | .PLQ_SCNT => ⟨.PLQ, 0x20, 0x400, 64, 0x0, 1, 0,
      [⟨31, 24, .rsc, 0, 0, 4294967295, [], .always, false⟩,
       ⟨23, 16, .rsc, 0, 0, 4294967295, [], .always, false⟩,
       ⟨15, 8, .rsc, 0, 0, 4294967295, [], .always, false⟩,
       ⟨7, 0, .rsc, 0, 0, 4294967295, [], .always, false⟩]⟩
  | .PLQ_PRGR => ⟨.PLQ, 0x300000, 0x8000, 64, 0x4, 8192, 0,
      [⟨31, 0, .r, 0, 0, 4294967295, [], .always, false⟩]⟩
  | .HKC_ID => ⟨.HKC, 0x0, 0x1000, 3, 0x0, 1, 0,
      [⟨15, 12, .r, 4, 0, 4294967295, [], .always, false⟩,
       ⟨5, 4, .r, 0, 0, 4294967295, [], .always, false⟩,
       ⟨3, 2, .r, 0, 0, 4294967295, [], .always, false⟩,
       ⟨1, 0, .r, 0, 0, 4294967295, [], .always, false⟩]⟩
  | .HKC_SWI => ⟨.HKC, 0x4, 0x1000, 3, 0x0, 1, 0,
      [⟨7, 0, .w, 0, 0, 4294967295, [], .always, false⟩]⟩
  | .HKC_T_CTRL => ⟨.HKC, 0x100, 0x1000, 3, 0x40, 4, 0,
      [⟨1, 1, .w, 0, 0, 4294967295, [], .always, false⟩, ⟨0, 0, .rw, 0, 0, 4294967295, [], .setOnly, false⟩]⟩
  | .HKC_T_STAT => ⟨.HKC, 0x104, 0x1000, 3, 0x40, 4, 0,
      [⟨15, 12, .r, 0, 0, 4294967295, [], .always, false⟩,
       ⟨8, 8, .r, 0, 0, 4294967295, [], .always, false⟩,
       ⟨4, 4, .w1c, 0, 0, 4294967295, [], .always, false⟩,
       ⟨2, 0, .r, 0, 0, 4294967295, [], .always, false⟩]⟩
  | .HKC_T_TCYC_LO => ⟨.HKC, 0x108, 0x1000, 3, 0x40, 4, 0,
      [⟨31, 0, .r, 0, 0, 4294967295, [], .always, false⟩]⟩
  | .HKC_T_TCYC_HI => ⟨.HKC, 0x10C, 0x1000, 3, 0x40, 4, 0,
      [⟨31, 0, .r, 0, 0, 4294967295, [], .always, false⟩]⟩
  | .HKC_T_WAIT_LO => ⟨.HKC, 0x110, 0x1000, 3, 0x40, 4, 0,
      [⟨31, 0, .r, 0, 0, 4294967295, [], .always, false⟩]⟩
  | .HKC_T_WAIT_HI => ⟨.HKC, 0x114, 0x1000, 3, 0x40, 4, 0,
      [⟨31, 0, .r, 0, 0, 4294967295, [], .always, false⟩]⟩
  | .HKC_T_WCNT => ⟨.HKC, 0x118, 0x1000, 3, 0x40, 4, 0,
      [⟨31, 16, .rsc, 0, 0, 4294967295, [], .always, false⟩, ⟨15, 0, .rsc, 0, 0, 4294967295, [], .always, false⟩]⟩
  | .HKC_T_EVCNT => ⟨.HKC, 0x11C, 0x1000, 3, 0x40, 4, 0,
      [⟨31, 16, .rsc, 0, 0, 4294967295, [], .always, false⟩, ⟨15, 0, .rsc, 0, 0, 4294967295, [], .always, false⟩]⟩
  | .HKC_T_LVL => ⟨.HKC, 0x120, 0x1000, 3, 0x40, 4, 0,
      [⟨31, 24, .r, 0, 0, 4294967295, [], .always, false⟩,
       ⟨16, 8, .r, 1, 0, 4294967295, [], .always, false⟩,
       ⟨7, 1, .r, 0, 0, 4294967295, [], .always, false⟩]⟩
  | .HKC_T_HALT => ⟨.HKC, 0x124, 0x1000, 3, 0x40, 4, 0,
      [⟨31, 24, .r, 0, 0, 4294967295, [], .always, false⟩,
       ⟨23, 16, .r, 0, 0, 4294967295, [], .always, false⟩,
       ⟨15, 8, .r, 0, 0, 4294967295, [], .always, false⟩,
       ⟨7, 4, .r, 0, 0, 4294967295, [], .always, false⟩,
       ⟨0, 0, .r, 0, 0, 4294967295, [], .always, false⟩]⟩
  | .HKC_T_HALTA_LO => ⟨.HKC, 0x128, 0x1000, 3, 0x40, 4, 0,
      [⟨31, 0, .r, 0, 0, 4294967295, [], .always, false⟩]⟩
  | .HKC_T_HALTA_HI => ⟨.HKC, 0x12C, 0x1000, 3, 0x40, 4, 0,
      [⟨31, 0, .r, 0, 0, 4294967295, [], .always, false⟩]⟩
  | .HKC_T_EXC => ⟨.HKC, 0x130, 0x1000, 3, 0x40, 4, 0,
      [⟨31, 16, .rsc, 0, 0, 4294967295, [], .always, false⟩,
       ⟨15, 8, .rsc, 0, 0, 4294967295, [], .always, false⟩,
       ⟨7, 0, .rsc, 0, 0, 4294967295, [], .always, false⟩]⟩
  | .HKC_T_FPST => ⟨.HKC, 0x134, 0x1000, 3, 0x40, 4, 0,
      [⟨8, 8, .r, 0, 0, 4294967295, [], .always, false⟩, ⟨7, 0, .w1c, 0, 0, 4294967295, [], .always, false⟩]⟩
  | .HKC_T_FPCNT => ⟨.HKC, 0x138, 0x1000, 3, 0x40, 4, 0,
      [⟨31, 16, .rsc, 0, 0, 4294967295, [], .always, false⟩, ⟨15, 0, .rsc, 0, 0, 4294967295, [], .always, false⟩]⟩
  | .HKC_IRQ_CFG => ⟨.HKC, 0x400, 0x1000, 3, 0x4, 256, 64,
      [⟨31, 31, .rw, 0, 0, 4294967295, [], .always, false⟩,
       ⟨8, 8, .r, 0, 0, 4294967295, [], .always, false⟩,
       ⟨6, 4, .rw, 0, 0, 4294967295, [], .always, false⟩,
       ⟨1, 0, .rw, 0, 0, 4294967295, [], .always, false⟩]⟩
  | .HKC_IPEND => ⟨.HKC, 0x800, 0x1000, 3, 0x4, 8, 2,
      [⟨31, 0, .r, 0, 0, 4294967295, [], .always, false⟩]⟩
  | .VOT_STAT => ⟨.VOT, 0x0, 0x0, 1, 0x0, 1, 0,
      [⟨6, 6, .w1c, 0, 0, 4294967295, [], .always, false⟩,
       ⟨5, 5, .w1c, 0, 0, 4294967295, [], .always, false⟩,
       ⟨4, 4, .w1c, 0, 0, 4294967295, [], .always, false⟩,
       ⟨3, 2, .r, 0, 0, 4294967295, [], .always, false⟩,
       ⟨1, 1, .r, 0, 0, 4294967295, [], .always, false⟩,
       ⟨0, 0, .r, 0, 0, 4294967295, [], .always, false⟩]⟩
  | .VOT_CMD => ⟨.VOT, 0x4, 0x0, 1, 0x0, 1, 0,
      [⟨0, 0, .w, 0, 0, 4294967295, [], .always, false⟩]⟩
  | .VOT_STEST => ⟨.VOT, 0x8, 0x0, 1, 0x0, 1, 0,
      [⟨12, 8, .r, 0, 0, 4294967295, [], .always, false⟩,
       ⟨2, 2, .r, 0, 0, 4294967295, [], .always, false⟩,
       ⟨1, 1, .r, 0, 0, 4294967295, [], .always, false⟩,
       ⟨0, 0, .w, 0, 0, 4294967295, [], .always, false⟩]⟩
  | .VOT_CNT => ⟨.VOT, 0xC, 0x0, 1, 0x0, 1, 0,
      [⟨31, 24, .rsc, 0, 0, 4294967295, [], .always, false⟩,
       ⟨23, 16, .rsc, 0, 0, 4294967295, [], .always, false⟩,
       ⟨15, 8, .rsc, 0, 0, 4294967295, [], .always, false⟩,
       ⟨7, 0, .rsc, 0, 0, 4294967295, [], .always, false⟩]⟩
  | .VOT_TCMFIX => ⟨.VOT, 0x10, 0x0, 1, 0x0, 1, 0,
      [⟨31, 0, .rsc, 0, 0, 4294967295, [], .always, false⟩]⟩
  | .VOT_CHKWIN => ⟨.VOT, 0x14, 0x0, 1, 0x0, 1, 0,
      [⟨31, 0, .rw, 10, 1, 3600, [], .always, false⟩]⟩
  | .VOT_DS_INFO => ⟨.VOT, 0x20, 0x0, 1, 0x0, 1, 0,
      [⟨31, 0, .r, 0, 0, 4294967295, [], .always, false⟩]⟩
  | .VOT_DS_TIME_LO => ⟨.VOT, 0x24, 0x0, 1, 0x0, 1, 0,
      [⟨31, 0, .r, 0, 0, 4294967295, [], .always, false⟩]⟩
  | .VOT_DS_TIME_HI => ⟨.VOT, 0x28, 0x0, 1, 0x0, 1, 0,
      [⟨31, 0, .r, 0, 0, 4294967295, [], .always, false⟩]⟩
  | .VOT_DS_ADDR_LO => ⟨.VOT, 0x2C, 0x0, 1, 0x0, 1, 0,
      [⟨31, 0, .r, 0, 0, 4294967295, [], .always, false⟩]⟩
  | .VOT_DS_ADDR_HI => ⟨.VOT, 0x30, 0x0, 1, 0x0, 1, 0,
      [⟨31, 0, .r, 0, 0, 4294967295, [], .always, false⟩]⟩
  | .VOT_DS_POP => ⟨.VOT, 0x34, 0x0, 1, 0x0, 1, 0,
      [⟨31, 0, .r, 0, 0, 4294967295, [], .always, false⟩]⟩
  | .BED_UC_CTRL => ⟨.BED, 0x10, 0x0, 1, 0x0, 1, 0,
      [⟨0, 0, .w, 0, 0, 4294967295, [], .always, false⟩]⟩
  | .BED_UC_STAT => ⟨.BED, 0x14, 0x0, 1, 0x0, 1, 0,
      [⟨31, 16, .r, 0, 0, 4294967295, [], .always, false⟩,
       ⟨15, 4, .r, 0, 0, 4294967295, [], .always, false⟩,
       ⟨3, 3, .r, 0, 0, 4294967295, [], .always, false⟩,
       ⟨2, 2, .r, 0, 0, 4294967295, [], .always, false⟩,
       ⟨0, 0, .r, 0, 0, 4294967295, [], .always, false⟩]⟩
  | .BED_UC_VER => ⟨.BED, 0x18, 0x0, 1, 0x0, 1, 0,
      [⟨31, 0, .r, 0, 0, 4294967295, [], .always, false⟩]⟩
  | .BED_UCFAULT => ⟨.BED, 0x1C, 0x0, 1, 0x0, 1, 0,
      [⟨31, 24, .rsc, 0, 0, 4294967295, [], .always, false⟩,
       ⟨23, 16, .r, 0, 0, 4294967295, [], .always, false⟩,
       ⟨15, 15, .w1c, 0, 0, 4294967295, [], .always, false⟩,
       ⟨14, 0, .r, 0, 0, 4294967295, [], .always, false⟩]⟩
  | .TMO_CASTON => ⟨.TMO, 0x100, 0x0, 1, 0x0, 1, 0,
      [⟨23, 16, .r, 0, 0, 4294967295, [], .always, false⟩,
       ⟨15, 12, .r, 0, 0, 4294967295, [], .always, false⟩,
       ⟨7, 4, .r, 0, 0, 4294967295, [], .always, false⟩,
       ⟨3, 3, .w1c, 0, 0, 4294967295, [], .always, false⟩,
       ⟨2, 2, .r, 0, 0, 4294967295, [], .always, false⟩,
       ⟨0, 0, .w, 0, 0, 4294967295, [], .always, false⟩]⟩
  | .KTH_CMD => ⟨.KTH, 0x0, 0x0, 1, 0x0, 1, 0,
      [⟨31, 31, .w, 0, 0, 4294967295, [], .always, false⟩, ⟨7, 0, .rw, 0, 1, 11, [], .always, false⟩]⟩
  | .KTH_STAT => ⟨.KTH, 0x4, 0x0, 1, 0x0, 1, 0,
      [⟨31, 24, .r, 0, 0, 4294967295, [], .always, false⟩,
       ⟨23, 16, .r, 0, 0, 4294967295, [], .always, false⟩,
       ⟨7, 7, .r, 0, 0, 4294967295, [], .always, false⟩,
       ⟨6, 6, .r, 0, 0, 4294967295, [], .always, false⟩,
       ⟨5, 5, .r, 0, 0, 4294967295, [], .always, false⟩,
       ⟨4, 4, .r, 0, 0, 4294967295, [], .always, false⟩,
       ⟨3, 3, .r, 0, 0, 4294967295, [], .always, false⟩,
       ⟨2, 2, .w1c, 0, 0, 4294967295, [], .always, false⟩,
       ⟨1, 1, .w1c, 0, 0, 4294967295, [], .always, false⟩,
       ⟨0, 0, .r, 0, 0, 4294967295, [], .always, false⟩]⟩
  | .KTH_BOOTCNT => ⟨.KTH, 0x8, 0x0, 1, 0x0, 1, 0,
      [⟨16, 0, .r, 0, 0, 4294967295, [], .always, false⟩]⟩
  | .KTH_TREE => ⟨.KTH, 0xC, 0x0, 1, 0x0, 1, 0,
      [⟨31, 31, .r, 0, 0, 4294967295, [], .always, false⟩,
       ⟨30, 16, .r, 0, 0, 4294967295, [], .always, false⟩,
       ⟨15, 0, .r, 0, 0, 4294967295, [], .always, false⟩]⟩
  | .KTH_SLOTS => ⟨.KTH, 0x10, 0x0, 1, 0x0, 1, 0,
      [⟨8, 8, .r, 0, 0, 4294967295, [], .always, false⟩, ⟨7, 0, .r, 0, 0, 4294967295, [], .always, false⟩]⟩
  | .KTH_POLICY => ⟨.KTH, 0x14, 0x0, 1, 0x0, 1, 0,
      [⟨0, 0, .rw, 0, 0, 4294967295, [], .preDone, false⟩]⟩
  | .KTH_CNT => ⟨.KTH, 0x18, 0x0, 1, 0x0, 1, 0,
      [⟨31, 24, .rsc, 0, 0, 4294967295, [], .always, false⟩,
       ⟨23, 16, .rsc, 0, 0, 4294967295, [], .always, false⟩,
       ⟨15, 8, .rsc, 0, 0, 4294967295, [], .always, false⟩,
       ⟨7, 0, .rsc, 0, 0, 4294967295, [], .always, false⟩]⟩
  | .KTH_SRC_LO => ⟨.KTH, 0x20, 0x0, 1, 0x0, 1, 0,
      [⟨31, 0, .rw, 0, 0, 4294967295, [], .always, false⟩]⟩
  | .KTH_SRC_HI => ⟨.KTH, 0x24, 0x0, 1, 0x0, 1, 0,
      [⟨31, 0, .rw, 0, 0, 4294967295, [], .always, false⟩]⟩
  | .KTH_LEN => ⟨.KTH, 0x28, 0x0, 1, 0x0, 1, 0,
      [⟨31, 0, .rw, 0, 0, 4294967295, [], .always, false⟩]⟩
  | .KTH_DST_LO => ⟨.KTH, 0x30, 0x0, 1, 0x0, 1, 0,
      [⟨31, 0, .rw, 0, 0, 4294967295, [], .always, false⟩]⟩
  | .KTH_DST_HI => ⟨.KTH, 0x34, 0x0, 1, 0x0, 1, 0,
      [⟨31, 0, .rw, 0, 0, 4294967295, [], .always, false⟩]⟩
  | .KTH_TO_VER => ⟨.KTH, 0x40, 0x0, 1, 0x0, 1, 0,
      [⟨31, 0, .rw, 100, 1, 65535, [], .always, false⟩]⟩
  | .KTH_TO_SIGN => ⟨.KTH, 0x44, 0x0, 1, 0x0, 1, 0,
      [⟨31, 0, .rw, 5, 1, 65535, [], .always, false⟩]⟩
  | .KTH_TO_GEN => ⟨.KTH, 0x48, 0x0, 1, 0x0, 1, 0,
      [⟨31, 0, .rw, 2000, 1, 65535, [], .always, false⟩]⟩
  | .KTH_MEAS => ⟨.KTH, 0x100, 0x4, 64, 0x0, 1, 0,
      [⟨31, 0, .r, 0, 0, 4294967295, [], .always, false⟩]⟩
  | .KTH_NONCE => ⟨.KTH, 0x200, 0x4, 8, 0x0, 1, 0,
      [⟨31, 0, .rw, 0, 0, 4294967295, [], .always, false⟩]⟩
  | .KTH_CHAL => ⟨.KTH, 0x220, 0x4, 12, 0x0, 1, 0,
      [⟨31, 0, .r, 0, 0, 4294967295, [], .always, false⟩]⟩
  | .KTH_PATH => ⟨.KTH, 0x300, 0x4, 120, 0x0, 1, 0,
      [⟨31, 0, .w, 0, 0, 4294967295, [], .always, false⟩]⟩
  | .PCI_DMB_CMD => ⟨.PCI, 0x10000, 0x0, 1, 0x0, 1, 0,
      [⟨31, 31, .w, 0, 0, 4294967295, [], .always, false⟩,
       ⟨26, 26, .rw, 0, 0, 4294967295, [], .always, false⟩,
       ⟨25, 24, .rw, 0, 0, 4294967295, [0, 3], .always, false⟩,
       ⟨23, 16, .rw, 0, 0, 4294967295, [], .always, false⟩,
       ⟨15, 0, .rw, 0, 0, 4294967295, [], .always, false⟩]⟩
  | .PCI_DMB_STAT => ⟨.PCI, 0x10004, 0x0, 1, 0x0, 1, 0,
      [⟨31, 16, .r, 0, 0, 4294967295, [], .always, false⟩,
       ⟨3, 3, .r, 0, 0, 4294967295, [], .always, false⟩,
       ⟨2, 2, .w1c, 0, 0, 4294967295, [], .always, false⟩,
       ⟨1, 1, .w1c, 0, 0, 4294967295, [], .always, false⟩,
       ⟨0, 0, .r, 0, 0, 4294967295, [], .always, false⟩]⟩
  | .PCI_DMB_LEN => ⟨.PCI, 0x10008, 0x0, 1, 0x0, 1, 0,
      [⟨31, 0, .rw, 0, 0, 4294967295, [], .always, false⟩]⟩
  | .PCI_DMB_OFF => ⟨.PCI, 0x1000C, 0x0, 1, 0x0, 1, 0,
      [⟨31, 0, .rw, 0, 0, 4294967295, [], .always, false⟩]⟩
  | .PCI_DMB_ABORT => ⟨.PCI, 0x10010, 0x0, 1, 0x0, 1, 0,
      [⟨31, 0, .r, 0, 0, 4294967295, [], .always, false⟩]⟩
  | .PCI_DMB_DATA => ⟨.PCI, 0x11000, 0x4, 1024, 0x0, 1, 0,
      [⟨31, 0, .rw, 0, 0, 4294967295, [], .always, false⟩]⟩
  | .PCI_CTRL => ⟨.PCI, 0x0, 0x0, 1, 0x0, 1, 0,
      [⟨4, 1, .rw, 8, 0, 8, [], .always, false⟩, ⟨0, 0, .rw, 0, 0, 4294967295, [], .always, false⟩]⟩
  | .PCI_STAT => ⟨.PCI, 0x4, 0x0, 1, 0x0, 1, 0,
      [⟨15, 12, .r, 0, 0, 4294967295, [], .always, false⟩,
       ⟨11, 7, .r, 0, 0, 4294967295, [], .always, false⟩,
       ⟨6, 4, .r, 0, 0, 4294967295, [], .always, false⟩,
       ⟨3, 3, .w1c, 0, 0, 4294967295, [], .always, false⟩,
       ⟨1, 1, .w1c, 0, 0, 4294967295, [], .always, false⟩,
       ⟨0, 0, .r, 0, 0, 4294967295, [], .always, false⟩]⟩
  | .PCI_ERR => ⟨.PCI, 0x8, 0x0, 1, 0x0, 1, 0,
      [⟨31, 24, .rsc, 0, 0, 4294967295, [], .always, false⟩,
       ⟨23, 16, .rsc, 0, 0, 4294967295, [], .always, false⟩,
       ⟨15, 8, .rsc, 0, 0, 4294967295, [], .always, false⟩,
       ⟨7, 0, .rsc, 0, 0, 4294967295, [], .always, false⟩]⟩
  | .PCI_HTAB_BASE_LO => ⟨.PCI, 0x10, 0x0, 1, 0x0, 1, 0,
      [⟨31, 0, .rw, 0, 0, 4294967295, [], .always, false⟩]⟩
  | .PCI_HTAB_BASE_HI => ⟨.PCI, 0x14, 0x0, 1, 0x0, 1, 0,
      [⟨31, 0, .rw, 0, 0, 4294967295, [], .always, false⟩]⟩
  | .PCI_HTAB_N => ⟨.PCI, 0x18, 0x0, 1, 0x0, 1, 0,
      [⟨31, 0, .rw, 1, 1, 65536, [], .always, false⟩]⟩
  | .PCI_HOTYPE => ⟨.PCI, 0x1C, 0x0, 1, 0x0, 1, 0,
      [⟨11, 0, .rw, 0, 1, 4095, [], .always, false⟩]⟩
  | .PCI_HFENCE => ⟨.PCI, 0x20, 0x0, 1, 0x0, 1, 0,
      [⟨31, 31, .w, 0, 0, 4294967295, [], .always, false⟩, ⟨0, 0, .r, 1, 0, 4294967295, [], .always, false⟩]⟩
  | .PCI_BAR2_H => ⟨.PCI, 0x30, 0x0, 1, 0x0, 1, 0,
      [⟨15, 0, .rw, 0, 0, 4294967295, [], .always, false⟩]⟩
  | .PCI_BAR4_H => ⟨.PCI, 0x34, 0x0, 1, 0x0, 1, 0,
      [⟨15, 0, .rw, 0, 0, 4294967295, [], .always, false⟩]⟩
  | .PCI_BAR4_OFF_LO => ⟨.PCI, 0x38, 0x0, 1, 0x0, 1, 0,
      [⟨31, 12, .rw, 0, 0, 4294967295, [], .always, false⟩]⟩
  | .PCI_BAR4_OFF_HI => ⟨.PCI, 0x3C, 0x0, 1, 0x0, 1, 0,
      [⟨31, 0, .rw, 0, 0, 4294967295, [], .always, false⟩]⟩
  | .PCI_LNK_BAR4_H => ⟨.PCI, 0x40, 0x10, 4, 0x0, 1, 1,
      [⟨15, 0, .rw, 0, 0, 4294967295, [], .always, false⟩]⟩
  | .PCI_LNK_BAR4_OFF_LO => ⟨.PCI, 0x44, 0x10, 4, 0x0, 1, 1,
      [⟨31, 12, .rw, 0, 0, 4294967295, [], .always, false⟩]⟩
  | .PCI_LNK_BAR4_OFF_HI => ⟨.PCI, 0x48, 0x10, 4, 0x0, 1, 1,
      [⟨31, 0, .rw, 0, 0, 4294967295, [], .always, false⟩]⟩
  | .PCI_QFN => ⟨.PCI, 0x100, 0x4, 8, 0x0, 1, 0,
      [⟨31, 28, .rw, 0, 0, 4294967295, [], .always, false⟩,
       ⟨27, 24, .rw, 0, 0, 4294967295, [], .always, false⟩,
       ⟨23, 20, .rw, 0, 0, 4294967295, [], .always, false⟩,
       ⟨19, 16, .rw, 0, 0, 4294967295, [], .always, false⟩,
       ⟨15, 12, .rw, 0, 0, 4294967295, [], .always, false⟩,
       ⟨11, 8, .rw, 0, 0, 4294967295, [], .always, false⟩,
       ⟨7, 4, .rw, 0, 0, 4294967295, [], .always, false⟩,
       ⟨3, 0, .rw, 0, 0, 4294967295, [], .always, false⟩]⟩
  | .PCI_DMA_CTRL => ⟨.PCI, 0x1000, 0x40, 8, 0x0, 1, 0,
      [⟨4, 1, .rw, 0, 0, 4294967295, [], .always, false⟩, ⟨0, 0, .rw, 0, 0, 4294967295, [], .always, false⟩]⟩
  | .PCI_DMA_RING_LO => ⟨.PCI, 0x1004, 0x40, 8, 0x0, 1, 0,
      [⟨31, 0, .rw, 0, 0, 4294967295, [], .always, false⟩]⟩
  | .PCI_DMA_RING_HI => ⟨.PCI, 0x1008, 0x40, 8, 0x0, 1, 0,
      [⟨31, 0, .rw, 0, 0, 4294967295, [], .always, false⟩]⟩
  | .PCI_DMA_SIZE => ⟨.PCI, 0x100C, 0x40, 8, 0x0, 1, 0,
      [⟨31, 0, .rw, 16, 16, 65536, [], .pow2, false⟩]⟩
  | .PCI_DMA_TAIL => ⟨.PCI, 0x1010, 0x40, 8, 0x0, 1, 0,
      [⟨15, 0, .rw, 0, 0, 4294967295, [], .always, false⟩]⟩
  | .PCI_DMA_HEAD => ⟨.PCI, 0x1014, 0x40, 8, 0x0, 1, 0,
      [⟨15, 0, .r, 0, 0, 4294967295, [], .always, false⟩]⟩
  | .PCI_DMA_WB_LO => ⟨.PCI, 0x1018, 0x40, 8, 0x0, 1, 0,
      [⟨31, 0, .rw, 0, 0, 4294967295, [], .always, false⟩]⟩
  | .PCI_DMA_WB_HI => ⟨.PCI, 0x101C, 0x40, 8, 0x0, 1, 0,
      [⟨31, 0, .rw, 0, 0, 4294967295, [], .always, false⟩]⟩
  | .PCI_DMA_STAT => ⟨.PCI, 0x1020, 0x40, 8, 0x0, 1, 0,
      [⟨1, 1, .w1c, 0, 0, 4294967295, [], .always, false⟩, ⟨0, 0, .r, 0, 0, 4294967295, [], .always, false⟩]⟩
  | .PCI_RR_CTRL => ⟨.PCI, 0x2000, 0x40, 16, 0x0, 1, 0,
      [⟨31, 28, .rw, 0, 0, 4294967295, [], .always, false⟩,
       ⟨27, 24, .rw, 6, 6, 12, [], .always, false⟩,
       ⟨23, 19, .rw, 4, 4, 16, [], .always, false⟩,
       ⟨18, 13, .rw, 0, 0, 4294967295, [], .always, false⟩,
       ⟨1, 1, .rw, 0, 0, 4294967295, [], .always, false⟩,
       ⟨0, 0, .rw, 0, 0, 4294967295, [], .always, false⟩]⟩
  | .PCI_RR_H => ⟨.PCI, 0x2004, 0x40, 16, 0x0, 1, 0,
      [⟨15, 0, .rw, 0, 0, 4294967295, [], .always, false⟩]⟩
  | .PCI_RR_HOST_LO => ⟨.PCI, 0x2008, 0x40, 16, 0x0, 1, 0,
      [⟨31, 0, .rw, 0, 0, 4294967295, [], .always, false⟩]⟩
  | .PCI_RR_HOST_HI => ⟨.PCI, 0x200C, 0x40, 16, 0x0, 1, 0,
      [⟨31, 0, .rw, 0, 0, 4294967295, [], .always, false⟩]⟩
  | .PCI_RR_HSIZE => ⟨.PCI, 0x2010, 0x40, 16, 0x0, 1, 0,
      [⟨31, 0, .rw, 16, 16, 65536, [], .pow2, false⟩]⟩
  | .PCI_RR_CONS => ⟨.PCI, 0x2014, 0x40, 16, 0x0, 1, 0,
      [⟨31, 0, .rw, 0, 0, 4294967295, [], .always, false⟩]⟩
  | .PCI_RR_PROD => ⟨.PCI, 0x2018, 0x40, 16, 0x0, 1, 0,
      [⟨31, 0, .r, 0, 0, 4294967295, [], .always, false⟩]⟩
  | .PCI_RR_WB_LO => ⟨.PCI, 0x201C, 0x40, 16, 0x0, 1, 0,
      [⟨31, 0, .rw, 0, 0, 4294967295, [], .always, false⟩]⟩
  | .PCI_RR_WB_HI => ⟨.PCI, 0x2020, 0x40, 16, 0x0, 1, 0,
      [⟨31, 0, .rw, 0, 0, 4294967295, [], .always, false⟩]⟩
  | .PCI_RR_CNT => ⟨.PCI, 0x2024, 0x40, 16, 0x0, 1, 0,
      [⟨31, 16, .rsc, 0, 0, 4294967295, [], .always, false⟩, ⟨15, 0, .rsc, 0, 0, 4294967295, [], .always, false⟩]⟩
  | .PCI_MSIX_TABLE => ⟨.PCI, 0x80000, 0x4, 6144, 0x0, 1, 0,
      [⟨31, 0, .rw, 0, 0, 4294967295, [], .always, false⟩]⟩
  | .PCI_MSIX_PBA => ⟨.PCI, 0x88000, 0x4, 48, 0x0, 1, 0,
      [⟨31, 0, .r, 0, 0, 4294967295, [], .always, false⟩]⟩
  | .MTX_REMAP => ⟨.MTX, 0x0, 0x0, 1, 0x0, 1, 0,
      [⟨0, 0, .rw, 0, 0, 4294967295, [], .setOnly, false⟩]⟩
  | .MTX_CNT => ⟨.MTX, 0x4, 0x0, 1, 0x0, 1, 0,
      [⟨31, 16, .rsc, 0, 0, 4294967295, [], .always, false⟩, ⟨15, 0, .rsc, 0, 0, 4294967295, [], .always, false⟩]⟩
  | .MTX_LASTTO => ⟨.MTX, 0x8, 0x0, 1, 0x0, 1, 0,
      [⟨31, 29, .r, 0, 0, 4294967295, [], .always, false⟩, ⟨27, 0, .r, 0, 0, 4294967295, [], .always, false⟩]⟩
  | .MTX_FWBASE => ⟨.MTX, 0xC, 0x0, 1, 0x0, 1, 0,
      [⟨31, 4, .rw, 0, 0, 4294967295, [], .bootRom, false⟩]⟩
  | .MTX_FWLEN => ⟨.MTX, 0x10, 0x0, 1, 0x0, 1, 0,
      [⟨31, 0, .rw, 0, 0, 4294967295, [], .bootRom, false⟩]⟩
  | .PWR_CTRL => ⟨.PWR, 0x0, 0x0, 1, 0x0, 1, 0,
      [⟨2, 2, .rw, 1, 0, 4294967295, [], .always, false⟩,
       ⟨1, 1, .w, 0, 0, 4294967295, [], .always, false⟩,
       ⟨0, 0, .w, 0, 0, 4294967295, [], .always, false⟩]⟩
  | .PWR_STAT => ⟨.PWR, 0x4, 0x0, 1, 0x0, 1, 0,
      [⟨8, 8, .w1c, 0, 0, 4294967295, [], .always, true⟩,
       ⟨3, 3, .r, 0, 0, 4294967295, [], .always, false⟩,
       ⟨2, 2, .r, 0, 0, 4294967295, [], .always, false⟩,
       ⟨1, 0, .r, 0, 0, 4294967295, [], .always, false⟩]⟩
  | .PWR_WSDLY => ⟨.PWR, 0x8, 0x0, 1, 0x0, 1, 0,
      [⟨31, 0, .rw, 1000, 1, 4294967295, [], .always, false⟩]⟩
  | .PWR_PKG => ⟨.PWR, 0xC, 0x0, 1, 0x0, 1, 0,
      [⟨31, 16, .r, 0, 0, 4294967295, [], .always, false⟩, ⟨15, 0, .r, 0, 0, 4294967295, [], .always, false⟩]⟩
  | .PWR_CNT => ⟨.PWR, 0x10, 0x0, 1, 0x0, 1, 0,
      [⟨31, 16, .rsc, 0, 0, 4294967295, [], .always, false⟩, ⟨15, 0, .rsc, 0, 0, 4294967295, [], .always, false⟩]⟩
  | .PWR_SUPMON => ⟨.PWR, 0x14, 0x0, 1, 0x0, 1, 0,
      [⟨10, 10, .w1c, 0, 0, 4294967295, [], .always, true⟩,
       ⟨9, 9, .w1c, 0, 0, 4294967295, [], .always, true⟩,
       ⟨8, 8, .w1c, 0, 0, 4294967295, [], .always, true⟩,
       ⟨7, 7, .w1c, 0, 0, 4294967295, [], .always, true⟩,
       ⟨6, 6, .w1c, 0, 0, 4294967295, [], .always, true⟩,
       ⟨5, 5, .w1c, 0, 0, 4294967295, [], .always, true⟩,
       ⟨4, 4, .w1c, 0, 0, 4294967295, [], .always, true⟩,
       ⟨3, 3, .w1c, 0, 0, 4294967295, [], .always, true⟩,
       ⟨2, 2, .w1c, 0, 0, 4294967295, [], .always, true⟩,
       ⟨1, 1, .w1c, 0, 0, 4294967295, [], .always, true⟩,
       ⟨0, 0, .w1c, 0, 0, 4294967295, [], .always, true⟩]⟩
  | .PWR_DOM => ⟨.PWR, 0x100, 0x4, 170, 0x0, 1, 0,
      [⟨1, 0, .r, 0, 0, 4294967295, [], .always, false⟩]⟩
  | .GAU_CTRL => ⟨.GAU, 0x0, 0x0, 1, 0x0, 1, 0,
      [⟨31, 24, .rw, 0, 0, 135, [], .always, false⟩,
       ⟨8, 8, .w, 0, 0, 4294967295, [], .always, false⟩,
       ⟨0, 0, .rw, 1, 0, 4294967295, [], .always, false⟩]⟩
  | .GAU_STAT => ⟨.GAU, 0x4, 0x0, 1, 0x0, 1, 0,
      [⟨31, 24, .r, 0, 0, 4294967295, [], .always, false⟩,
       ⟨4, 4, .r, 0, 0, 4294967295, [], .always, false⟩,
       ⟨3, 3, .w1c, 0, 0, 4294967295, [], .always, false⟩,
       ⟨2, 2, .r, 0, 0, 4294967295, [], .always, false⟩,
       ⟨1, 1, .r, 0, 0, 4294967295, [], .always, false⟩,
       ⟨0, 0, .r, 0, 0, 4294967295, [], .always, false⟩]⟩
  | .GAU_INTERVAL => ⟨.GAU, 0x8, 0x0, 1, 0x0, 1, 0,
      [⟨31, 0, .rw, 600, 60, 86400, [], .always, false⟩]⟩
  | .GAU_GUARD => ⟨.GAU, 0xC, 0x0, 1, 0x0, 1, 0,
      [⟨31, 0, .rw, 8, 2, 20, [], .always, false⟩]⟩
  | .GAU_MARGIN => ⟨.GAU, 0x10, 0x0, 1, 0x0, 1, 0,
      [⟨31, 0, .rw, 10, 0, 50, [], .always, false⟩]⟩
  | .GAU_FMIN => ⟨.GAU, 0x14, 0x0, 1, 0x0, 1, 0,
      [⟨31, 0, .rw, 600, 400, 1600, [], .always, false⟩]⟩
  | .GAU_ROTHR => ⟨.GAU, 0x18, 0x0, 1, 0x0, 1, 0,
      [⟨31, 0, .rw, 10, 1, 100, [], .always, false⟩]⟩
  | .GAU_STHF => ⟨.GAU, 0x1C, 0x0, 1, 0x0, 1, 0,
      [⟨31, 16, .r, 0, 0, 4294967295, [], .always, false⟩, ⟨15, 0, .r, 0, 0, 4294967295, [], .always, false⟩]⟩
  | .GAU_CNT => ⟨.GAU, 0x20, 0x0, 1, 0x0, 1, 0,
      [⟨31, 16, .rsc, 0, 0, 4294967295, [], .always, false⟩,
       ⟨15, 8, .rsc, 0, 0, 4294967295, [], .always, false⟩,
       ⟨7, 0, .rsc, 0, 0, 4294967295, [], .always, false⟩]⟩
  | .GAU_RETIRE => ⟨.GAU, 0x30, 0x4, 5, 0x0, 1, 0,
      [⟨31, 0, .r, 0, 0, 4294967295, [], .always, false⟩]⟩
  | .GAU_DOM_SLACK => ⟨.GAU, 0x100, 0x4, 169, 0x0, 1, 136,
      [⟨7, 0, .r, 0, 0, 4294967295, [], .always, false⟩]⟩
  | .GAU_B_FREQ => ⟨.GAU, 0x1000, 0x80, 136, 0x0, 1, 0,
      [⟨31, 16, .r, 0, 0, 4294967295, [], .always, false⟩, ⟨15, 0, .r, 0, 0, 4294967295, [], .always, false⟩]⟩
  | .GAU_B_TJ => ⟨.GAU, 0x1004, 0x80, 136, 0x0, 1, 0,
      [⟨31, 16, .r, 0, 0, 4294967295, [], .always, false⟩, ⟨15, 0, .r, 0, 0, 4294967295, [], .always, false⟩]⟩
  | .GAU_B_VF => ⟨.GAU, 0x1040, 0x80, 136, 0x4, 16, 0,
      [⟨31, 16, .r, 0, 0, 4294967295, [], .always, false⟩, ⟨15, 0, .r, 0, 0, 4294967295, [], .always, false⟩]⟩
  | .RPR_STAT => ⟨.RPR, 0x0, 0x0, 1, 0x0, 1, 0,
      [⟨31, 16, .r, 0, 0, 4294967295, [], .always, false⟩,
       ⟨15, 8, .r, 0, 0, 4294967295, [], .always, false⟩,
       ⟨3, 3, .r, 0, 0, 4294967295, [], .always, false⟩,
       ⟨2, 2, .w1c, 0, 0, 4294967295, [], .always, false⟩,
       ⟨1, 1, .w1c, 0, 0, 4294967295, [], .always, false⟩,
       ⟨0, 0, .r, 0, 0, 4294967295, [], .always, false⟩]⟩
  | .RPR_NEED => ⟨.RPR, 0x100, 0x4, 136, 0x0, 1, 0,
      [⟨17, 17, .r, 0, 0, 4294967295, [], .always, false⟩,
       ⟨16, 16, .r, 0, 0, 4294967295, [], .always, false⟩,
       ⟨13, 8, .r, 63, 0, 4294967295, [], .always, false⟩,
       ⟨5, 0, .r, 63, 0, 4294967295, [], .always, false⟩]⟩
  | .RPR_SLICE => ⟨.RPR, 0x400, 0x4, 64, 0x0, 1, 0,
      [⟨17, 17, .r, 0, 0, 4294967295, [], .always, false⟩,
       ⟨16, 16, .r, 0, 0, 4294967295, [], .always, false⟩,
       ⟨14, 8, .r, 127, 0, 4294967295, [], .always, false⟩,
       ⟨6, 0, .r, 127, 0, 4294967295, [], .always, false⟩]⟩
  | .RPR_BEDF => ⟨.RPR, 0x500, 0x4, 5, 0x0, 1, 0,
      [⟨31, 0, .r, 0, 0, 4294967295, [], .always, false⟩]⟩
  | .RPR_BEDR => ⟨.RPR, 0x520, 0x4, 5, 0x0, 1, 0,
      [⟨31, 0, .r, 0, 0, 4294967295, [], .always, false⟩]⟩
  | .TMO_BEDREQ => ⟨.TMO, 0x0, 0x0, 1, 0x0, 1, 0,
      [⟨31, 0, .rw, 4, 1, 1000, [], .always, false⟩]⟩
  | .TMO_DRAIN => ⟨.TMO, 0x4, 0x0, 1, 0x0, 1, 0,
      [⟨31, 0, .rw, 4, 1, 1000, [], .always, false⟩]⟩
  | .TMO_CBUS => ⟨.TMO, 0x8, 0x0, 1, 0x0, 1, 0,
      [⟨31, 0, .rw, 2, 1, 1000, [], .always, false⟩]⟩
  | .TMO_BINDOFF => ⟨.TMO, 0xC, 0x0, 1, 0x0, 1, 0,
      [⟨31, 0, .rw, 100, 10, 10000000, [], .always, false⟩]⟩
  | .TMO_TWD => ⟨.TMO, 0x10, 0x0, 1, 0x0, 1, 0,
      [⟨31, 0, .rw, 10, 1, 65535, [], .always, false⟩]⟩
  | .TMO_TWD_EN => ⟨.TMO, 0x14, 0x0, 1, 0x0, 1, 0,
      [⟨11, 0, .rw, 0, 0, 4294967295, [], .always, false⟩]⟩
  | .TMO_KICK => ⟨.TMO, 0x18, 0x0, 1, 0x0, 1, 0,
      [⟨31, 0, .w, 0, 0, 4294967295, [], .always, false⟩]⟩
  | .TMO_RESET => ⟨.TMO, 0x20, 0x0, 1, 0x0, 1, 0,
      [⟨31, 31, .w, 0, 0, 4294967295, [], .always, false⟩,
       ⟨30, 30, .w, 0, 0, 4294967295, [], .always, false⟩,
       ⟨29, 29, .w, 0, 0, 4294967295, [], .always, false⟩,
       ⟨16, 16, .w, 0, 0, 4294967295, [], .always, false⟩,
       ⟨3, 0, .rw, 0, 0, 4294967295, [], .always, false⟩]⟩
  | .TMO_CNT0 => ⟨.TMO, 0x24, 0x0, 1, 0x0, 1, 0,
      [⟨31, 24, .rsc, 0, 0, 4294967295, [], .always, false⟩,
       ⟨23, 16, .rsc, 0, 0, 4294967295, [], .always, false⟩,
       ⟨15, 8, .rsc, 0, 0, 4294967295, [], .always, false⟩,
       ⟨7, 0, .rsc, 0, 0, 4294967295, [], .always, false⟩]⟩
  | .TMO_CNT1 => ⟨.TMO, 0x28, 0x0, 1, 0x0, 1, 0,
      [⟨31, 24, .rsc, 0, 0, 4294967295, [], .always, false⟩,
       ⟨23, 16, .rsc, 0, 0, 4294967295, [], .always, false⟩,
       ⟨15, 8, .rsc, 0, 0, 4294967295, [], .always, false⟩,
       ⟨7, 0, .rsc, 0, 0, 4294967295, [], .always, false⟩]⟩
  | .TMO_RCAUSE => ⟨.TMO, 0x30, 0x0, 1, 0x0, 1, 0,
      [⟨31, 16, .r, 0, 0, 4294967295, [], .always, true⟩,
       ⟨11, 8, .r, 0, 0, 4294967295, [], .always, true⟩,
       ⟨3, 0, .r, 0, 0, 4294967295, [], .always, true⟩]⟩
  | .TMO_RTIME_LO => ⟨.TMO, 0x34, 0x0, 1, 0x0, 1, 0,
      [⟨31, 0, .r, 0, 0, 4294967295, [], .always, true⟩]⟩
  | .TMO_RTIME_HI => ⟨.TMO, 0x38, 0x0, 1, 0x0, 1, 0,
      [⟨31, 0, .r, 0, 0, 4294967295, [], .always, true⟩]⟩
  | .TMO_RENC_LO => ⟨.TMO, 0x40, 0x8, 8, 0x0, 1, 0,
      [⟨31, 0, .r, 0, 0, 4294967295, [], .always, true⟩]⟩
  | .TMO_RENC_HI => ⟨.TMO, 0x44, 0x8, 8, 0x0, 1, 0,
      [⟨31, 0, .r, 0, 0, 4294967295, [], .always, true⟩]⟩

/-- Part 1 of the list of register kinds. -/
def RegKind.part1 : List RegKind :=
  [.TBS_CTRL, .TBS_STAT, .TBS_TIME_LO, .TBS_TIME_HI, .TBS_OFFSET, .TBS_SLEW, .TBS_STEP_THR, .TBS_SET_LO, .TBS_SET_HI,
  .TIO_ARM, .TIO_ENC_CTRL, .TIO_ENC_STAT, .TIO_ENC_POS_LO, .TIO_ENC_POS_HI, .TIO_ENC_SPEED, .TIO_CH_CTRL,
  .TIO_CH_ROW_LO, .TIO_CH_ROW_HI, .TIO_CH_DIV, .TIO_CH_PERIOD, .TIO_CH_SCALE, .TIO_CH_PITCH, .TIO_CH_OFFSET_LO,
  .TIO_CH_OFFSET_HI, .TIO_CAP_CTRL, .TIO_CAP_STAT, .TIO_CAP_TIME_LO, .TIO_CAP_TIME_HI, .TIO_CAP_ROW_LO,
  .TIO_CAP_ROW_HI, .TIO_CAP_POS_LO, .TIO_CAP_POS_HI, .TIO_OUT_CTRL, .TIO_OUT_STAT, .TIO_OUT_STATION, .TIO_OUT_SKEW,
  .TIO_OUT_CNT, .TIO_OUT_CNT2, .TIO_OUT_EVIN, .CXP_LNK_CTRL, .CXP_LNK_STAT, .CXP_LNK_DELAY, .CXP_LNK_HBTO,
  .CXP_LNK_ERRS, .CXP_LNK_CNT, .CXP_CAM_CTRL, .CXP_CAM_LINKS, .CXP_CAM_TRIG, .CXP_CAM_WIDTH, .CXP_CAM_TRIM,
  .CXP_CAM_DEST, .CXP_CAM_TAG, .CXP_CH_ICTRL, .CXP_CH_ISTAT, .CXP_CH_RING_BASE, .CXP_CH_RING_SIZE, .CXP_CH_WALES,
  .CXP_CH_NSLOTS, .CXP_CH_CWD, .CXP_CH_CONS, .CXP_CH_REL_LO, .CXP_CH_REL_HI, .CXP_CH_DLOG_LO, .CXP_CH_DLOG_HI,
  .CXP_CH_DLOG_CAUSE, .CXP_CH_CNT]

/-- Part 2 of the list of register kinds. -/
def RegKind.part2 : List RegKind :=
  [.CXP_MBX_CMD, .CXP_MBX_STAT, .CXP_MBX_ADDR, .CXP_MBX_TO, .CXP_MBX_DATA, .CXP_EVT_STAT, .CXP_EVT_HEAD, .STH_CTRL,
  .STH_STAT, .STH_ARB_TO, .STH_TEST_GAP, .STH_TEST_POS, .STH_TEST_CNT, .STH_ECC_CNT, .STH_ECC_ADDR, .STH_STARVE,
  .STH_SLICE_SPARE, .STH_CONFL_LO, .STH_CONFL_HI, .DDR_CTRL, .DDR_CFG, .DDR_SCRUB_PER, .DDR_TOP_LO, .DDR_TOP_HI,
  .DDR_CH_CTRL, .DDR_CH_STAT, .DDR_CH_TO, .DDR_CH_ECC, .DDR_CH_ELOG_LO, .DDR_CH_ELOG_HI, .DDR_CH_EINFO, .DDR_CH_CNT,
  .DDR_CH_TEMP, .BED_STALE_LO, .BED_STALE_HI, .BED_LIMIT, .BED_CTRL, .BED_STAT, .BED_WSTALL, .BED_SSTALL, .PLQ_CTRL,
  .PLQ_STAT, .PLQ_BIND, .PLQ_WD, .PLQ_CMD, .PLQ_CNT, .PLQ_SUB, .PLQ_PIN, .PLQ_CPL, .PLQ_PRG, .PLQ_LIFE, .PLQ_MIG,
  .PLQ_SCNT, .PLQ_PRGR, .HKC_ID, .HKC_SWI, .HKC_T_CTRL, .HKC_T_STAT, .HKC_T_TCYC_LO, .HKC_T_TCYC_HI, .HKC_T_WAIT_LO,
  .HKC_T_WAIT_HI, .HKC_T_WCNT, .HKC_T_EVCNT, .HKC_T_LVL, .HKC_T_HALT]

/-- Part 3 of the list of register kinds. -/
def RegKind.part3 : List RegKind :=
  [.HKC_T_HALTA_LO, .HKC_T_HALTA_HI, .HKC_T_EXC, .HKC_T_FPST, .HKC_T_FPCNT, .HKC_IRQ_CFG, .HKC_IPEND, .VOT_STAT,
  .VOT_CMD, .VOT_STEST, .VOT_CNT, .VOT_TCMFIX, .VOT_CHKWIN, .VOT_DS_INFO, .VOT_DS_TIME_LO, .VOT_DS_TIME_HI,
  .VOT_DS_ADDR_LO, .VOT_DS_ADDR_HI, .VOT_DS_POP, .BED_UC_CTRL, .BED_UC_STAT, .BED_UC_VER, .BED_UCFAULT, .TMO_CASTON,
  .KTH_CMD, .KTH_STAT, .KTH_BOOTCNT, .KTH_TREE, .KTH_SLOTS, .KTH_POLICY, .KTH_CNT, .KTH_SRC_LO, .KTH_SRC_HI,
  .KTH_LEN, .KTH_DST_LO, .KTH_DST_HI, .KTH_TO_VER, .KTH_TO_SIGN, .KTH_TO_GEN, .KTH_MEAS, .KTH_NONCE, .KTH_CHAL,
  .KTH_PATH, .PCI_DMB_CMD, .PCI_DMB_STAT, .PCI_DMB_LEN, .PCI_DMB_OFF, .PCI_DMB_ABORT, .PCI_DMB_DATA, .PCI_CTRL,
  .PCI_STAT, .PCI_ERR, .PCI_HTAB_BASE_LO, .PCI_HTAB_BASE_HI, .PCI_HTAB_N, .PCI_HOTYPE, .PCI_HFENCE, .PCI_BAR2_H,
  .PCI_BAR4_H, .PCI_BAR4_OFF_LO, .PCI_BAR4_OFF_HI, .PCI_LNK_BAR4_H, .PCI_LNK_BAR4_OFF_LO, .PCI_LNK_BAR4_OFF_HI,
  .PCI_QFN, .PCI_DMA_CTRL]

/-- Part 4 of the list of register kinds. -/
def RegKind.part4 : List RegKind :=
  [.PCI_DMA_RING_LO, .PCI_DMA_RING_HI, .PCI_DMA_SIZE, .PCI_DMA_TAIL, .PCI_DMA_HEAD, .PCI_DMA_WB_LO, .PCI_DMA_WB_HI,
  .PCI_DMA_STAT, .PCI_RR_CTRL, .PCI_RR_H, .PCI_RR_HOST_LO, .PCI_RR_HOST_HI, .PCI_RR_HSIZE, .PCI_RR_CONS,
  .PCI_RR_PROD, .PCI_RR_WB_LO, .PCI_RR_WB_HI, .PCI_RR_CNT, .PCI_MSIX_TABLE, .PCI_MSIX_PBA, .MTX_REMAP, .MTX_CNT,
  .MTX_LASTTO, .MTX_FWBASE, .MTX_FWLEN, .PWR_CTRL, .PWR_STAT, .PWR_WSDLY, .PWR_PKG, .PWR_CNT, .PWR_SUPMON, .PWR_DOM,
  .GAU_CTRL, .GAU_STAT, .GAU_INTERVAL, .GAU_GUARD, .GAU_MARGIN, .GAU_FMIN, .GAU_ROTHR, .GAU_STHF, .GAU_CNT,
  .GAU_RETIRE, .GAU_DOM_SLACK, .GAU_B_FREQ, .GAU_B_TJ, .GAU_B_VF, .RPR_STAT, .RPR_NEED, .RPR_SLICE, .RPR_BEDF,
  .RPR_BEDR, .TMO_BEDREQ, .TMO_DRAIN, .TMO_CBUS, .TMO_BINDOFF, .TMO_TWD, .TMO_TWD_EN, .TMO_KICK, .TMO_RESET,
  .TMO_CNT0, .TMO_CNT1, .TMO_RCAUSE, .TMO_RTIME_LO, .TMO_RTIME_HI, .TMO_RENC_LO, .TMO_RENC_HI]

/-- Every register kind. -/
def RegKind.all : List RegKind := RegKind.part1 ++ RegKind.part2 ++ RegKind.part3 ++ RegKind.part4

end Sys2Proof
end

