-- ==== Sys2Proof/Config.lean ====
section
/-!
DEFINITION. Sys2Proof/Config.lean: what a device fixes before it runs, and the values the spec leaves open. None of these has a
body: nothing in Lean can evaluate one, so a statement holds whatever they are.
-/
namespace Sys2Proof.Config

/-- The order code in the fuses (R1, R4). -/
opaque orderCode : OrderCode

/-- The stream of open values: the n-th value the spec leaves open (DESIGN CHOICE, notes/assumptions/3.md). -/
opaque freeNat : Nat → Nat

/-- R37: whether phase A leading phase B is the downstream direction. -/
opaque aLeadsDown : Bool

/-- R544: the boot ROM's contents, byte by byte. -/
opaque bootRom : Nat → Byte

/-- R229: the read filter's hash of a line address, one of 8,192 bits. -/
opaque filterHash : Nat → Nat

/-- The level at an output's pin while the device releases it: the external pull (R63, R529, R72). -/
opaque pinPull : Nat → Bool

/-- R488, R490: the supply in mV that the stash quadrants need at a stash clock in MHz. -/
opaque stashSupply : Nat → Nat

/-- R416, R423, R426: SHA-256 of a byte string, 32 bytes as a number. -/
opaque sha256 : List Byte → BitVec 256

/-- R423: whether an HSS signature verifies over a message with a public key. -/
opaque hssVerify : (key msg sig : List Byte) → Bool

/-- R416: AES-256-GCM decryption of a patch payload (IV, ciphertext, tag) under the family patch key; `none` where the tag does not
verify. -/
opaque gcmOpen : List Byte → Option (List Byte)

/-- R427, R433: the HSS signature of a message under level-0 leaf j and leaf q of the level-1 tree numbered `tree`. -/
opaque hssSign : (tree j q : Nat) → List Byte → List Byte

/-- R422: the hashes that Lebrirov programs into V0 and V1. -/
opaque vendorHash : Nat → BitVec 256

/-- R422: the FW_INT fuse. -/
opaque fwInt : Bool

/-- R426: register 7 over the slot hashes, the PROG and REVOKE fuses as KTH_SLOTS shows them, and FW_INT. -/
opaque slotsHash : List (BitVec 256) → Nat → Bool → BitVec 256

/-- R427: the 60-byte level-0 public key of the device. -/
opaque level0Key : List Byte

/-- R433, R438: whether a path of 15 nodes takes level-0 leaf j to the fused root. -/
opaque pathOk : (leaf : Nat) → List Byte → Bool

/-- R498: the factory repairs in fuses: kind 1 needle, 2 bank or 3 bed, unit, element. -/
opaque fuseRepairs : List (Nat × Nat × Nat)

/-- R111: words 0 and 1 of the head of the event FIFO, which hold the link number, the receive time and the mark of a truncated
event in a layout that the spec does not give. -/
opaque evtHead : (word link : Nat) → DWord → Bool → Word

/-- What a word of a function's configuration space reads, given what the host wrote to it last (R536; PCI Express 5.0). -/
opaque cfgRead : (fn word : Nat) → Word → Word

/-- The silicon revision in 0x1009. -/
opaque siliconRev : List Byte

/-- 0x100A: a container VERSION as text, and the major version in it (0x1018:03); the spec does not give the split of VERSION. -/
opaque versionText : Nat → List Byte
opaque versionMajor : Nat → Nat

/-- The serial number of the device (R437, 0x2800:0C). -/
opaque serial : DWord

/-- The ROM release (0x1018:03, R426). -/
opaque romRel : Half

end Sys2Proof.Config
end

