-- ==== Sys2Proof/EctTypes.lean ====
section
/-!
DEFINITION. Sys2Proof/EctTypes.lean: what the EtherCAT interface and the dictionary hold beside registers and objects
(16_object_dictionary.md).
-/
namespace Sys2Proof

/-- A program slot 0x3000 + s (R462): the image held, and what its verification found. -/
structure ProgSlot where
  image : List Byte
  typ : Nat
  version : Nat
  status : Nat
  meas : BitVec 256
  deriving DecidableEq, Repr, Inhabited

/-- A download that a path carries out in segments (R452). -/
structure Segs where
  idx : Nat
  sub : Nat
  total : Nat
  data : List Byte
  deriving DecidableEq, Repr, Inhabited

/-- The EtherCAT interface. -/
structure Ect where
  /-- The AL state: 1 INIT, 2 PREOP, 3 BOOT, 4 SAFEOP, 8 OP. -/
  al : Nat
  /-- The last AL status code; 0 for none. -/
  alCode : Nat
  /-- EtherCAT has left INIT since cast-on (R27). -/
  leftInit : Bool
  /-- Channels whose run request counts: the ESM has been in OP since their enable was written 1 (R458). -/
  runSeen : List Nat
  /-- The RxPDO image received for the next SM2 event. -/
  rx : List Byte
  /-- The TxPDO image latched last. -/
  tx : List Byte
  /-- A device bind-off runs: the AL state it ends in, 0 for none (R446, R447). -/
  bindoff : Option Nat
  /-- A ply has been cut since it started (R448). -/
  cut : Bool
  /-- Program slots by number. -/
  slots : KV Nat ProgSlot
  /-- Consecutive missed synchronisation events, as the sync error counter counts them (R444, 0x10F1). -/
  syncMiss : Nat
  /-- Ports with link (R444). -/
  portUp : List Nat
  /-- The segmented download in progress of the host mailbox, under key 1 (R452). -/
  segs : KV Nat Segs
  /-- Camera maps as last written, by channel: their bytes (R459). -/
  camMap : KV Nat (List Byte)
  deriving DecidableEq, Repr, Inhabited

end Sys2Proof
end

