-- ==== Sys2Proof/HookTypes.lean ====
section
/-!
DEFINITION. Sys2Proof/HookTypes.lean: a hook thread: its banks and windows, capabilities, system registers, vectors, outstanding
loads, store buffer and pending exceptions (09_hook_core.md to 12_register_vectors.md).
-/
namespace Sys2Proof

/-- HKC_Tt_STAT.STATE (09_hook_core.md). -/
inductive ThSt where
  | stopped | running | idle | halted | inReset
  deriving DecidableEq, Repr, Inhabited

/-- A barrier that a thread waits at (R325). -/
inductive Barrier where
  | split | merge
  deriving DecidableEq, Repr, Inhabited

/-- A register as it lies in the thread: a physical register of a bank, a c register of a bank, an f or a v register. -/
inductive HReg where
  | g (lvl phys : Nat)
  | c (lvl i : Nat)
  | f (i : Nat)
  | v (k : Nat)
  deriving DecidableEq, Repr, Inhabited

/-- A load-return fault pending at a level (R345). -/
structure LoadFault where
  vec : Nat
  faddr : Nat
  detail : Nat
  multi : Bool
  slotB : Bool
  deriving DecidableEq, Repr, Inhabited

/-- One register bank (R285). `r` lists w, globals and windows by physical number: 0 to 7 the globals, 8 + 8k + i local i of
window k, 56 + 8k + i outgoing register i of window k, 104 + i scratch w_i. -/
structure Bank where
  r : KV Nat DWord
  c : KV Nat CapV
  wspc : CapV
  wp : Nat
  res : Nat
  elvl : Nat
  sdepth : Nat
  lf : Option LoadFault
  deriving DecidableEq, Repr, Inhabited

/-- An exception that waits for its entry (R343, R350). -/
structure Exc where
  vec : Nat
  code : Nat
  esc : Nat
  faddr : Nat
  detail : Nat
  slotB : Bool
  multi : Bool
  gath : Bool
  deriving DecidableEq, Repr, Inhabited

/-- An outstanding load: what it will write where, and what its return will report. -/
structure HLoad where
  dest : Option HReg
  /-- The level at which it was issued. -/
  lvl : Nat
  /-- The value as the destination will hold it; for a vector the low `bits` bits. -/
  val : Nat
  tag : Bool
  bits : Nat
  /-- The data are poisoned (R345, vector 7) or the bus timed out (vector 14): the vector, 0 for none. -/
  fault : Nat
  addr : Nat
  pc : Nat
  /-- The next instruction is its delay slot (R282). -/
  slot : Bool
  /-- Its target is a control register (R467). -/
  ctrl : Bool
  /-- The load stood in slot B (R350). -/
  slotB : Bool
  deriving DecidableEq, Repr, Inhabited

/-- An entry of a thread's store buffer (R292). -/
structure SbEntry where
  /-- A 16-byte granule, or the address of a control register. -/
  addr : Nat
  data : Quad
  be : Half
  /-- A tagged capability or the PCAP slot of a frame. -/
  tag : Bool
  /-- A store to a control register. -/
  ctrl : Bool
  perms : BitVec 13
  /-- Made through a capability that carries Idempotent (R293). -/
  idem : Bool
  /-- Part of the thread's frame buffer (R298). -/
  frame : Bool
  deriving DecidableEq, Repr, Inhabited

/-- A hook thread. -/
structure Thread where
  st : ThSt
  pcap : CapV
  stat : DWord
  sscap : CapV
  vtab : CapV
  sstat : DWord
  slink : CapV
  /-- GATEnC at n, GATEnD at 8 + n. -/
  gates : KV Nat CapV
  /-- Banks 0 to 7 and the lifeline bank 8. -/
  banks : KV Nat Bank
  /-- Register vectors v0 to v7; f registers lie in them (R365). -/
  vec : KV Nat (BitVec 4096)
  /-- Active levels, level 0 always. -/
  active : List Nat
  loads : List HLoad
  sb : List SbEntry
  fault : Option Exc
  esc : Option Exc
  barrier : Option Barrier
  /-- Uptime at which it started, and its wait states. -/
  started : Nat
  waits : Nat
  /-- Uptime of the last restart of its watchdog (R506). -/
  kicked : Nat
  deriving DecidableEq, Repr, Inhabited

/-- The hook complex beside its registers. Threads are keyed by core × 4 + thread. -/
structure Hook where
  th : KV Nat Thread
  /-- Uptime of a thread's last watchdog reset (R507). -/
  wdAt : KV Nat Nat
  deriving DecidableEq, Repr, Inhabited

end Sys2Proof
end

