-- ==== Sys2Proof/HostTypes.lean ====
section
/-!
DEFINITION. Sys2Proof/HostTypes.lean: what the host interface holds beside its registers (17_host_interface.md).
-/
namespace Sys2Proof

/-- The host function. A function is numbered as PCI_QFN codes it: 0 PF0, 1 to 8 virtual functions, 9 to 11 further links. -/
structure HostIf where
  /-- MSI-X table words, by function × 8,192 + word (R473). -/
  msix : KV Nat Word
  /-- Pending vectors, as function × 2,048 + vector (R473). -/
  pba : List Nat
  /-- Rows that result rings have still to handle, oldest first, by ring (R477, R478). -/
  rows : KV Nat (List Nat)
  /-- DMA channels whose descriptor in progress at the last fence may have resolved its handle before it, and the cached entries
  that the fence dropped (R475, R476). -/
  busy : List Nat
  old : List (Nat × CapV × Half)
  /-- Words the host has written to configuration space, by function × 1,024 + word (R536). -/
  cfg : KV Nat Word
  /-- PCIE_PERST_L is low (R536). -/
  perst : Bool
  deriving DecidableEq, Repr, Inhabited

end Sys2Proof
end

