-- ==== Sys2Proof/WebTypes.lean ====
section
/-!
DEFINITION. Sys2Proof/WebTypes.lean: what the timed-I/O blocks hold beside their registers: time base, encoders, channels'
row counters and boundary logs, stitch markers, timed outputs and capture FIFOs (02_web_time.md).
-/
namespace Sys2Proof

/-- The time base (R31 to R36) and the clock that drives it (R527). -/
structure TimeBase where
  /-- The 64-bit count of nanoseconds. -/
  time : DWord
  /-- Good comparisons in succession (R33). -/
  good : Nat
  /-- Offset still to be removed by slewing, signed ns (R34). -/
  owed : Int
  /-- Ticks since the last tick that advanced by other than 1, up to the least spacing of R32. -/
  since : Nat
  /-- REFCK is lost and the island runs on the 32.768 kHz clock (R527). -/
  refLost : Bool
  /-- Position in the pattern of 64 ticks of the 32.768 kHz clock (R527). -/
  phase : Nat
  deriving DecidableEq, Repr, Inhabited

/-- One quadrature encoder (R37 to R40). Times are values of the time base. -/
structure Enc where
  a : Bool
  b : Bool
  count : DWord
  /-- Times of the last count edges in the present direction, newest first, at most 17 (16 intervals). -/
  edges : List Nat
  deriving DecidableEq, Repr, Inhabited

/-- A stitch marker (R51). -/
structure Marker where
  row : DWord
  time : DWord
  encpos : DWord
  webpos : DWord
  speed : Word
  flags : Word
  wales : Word
  chan : Nat
  enc : Nat
  deriving DecidableEq, Repr, Inhabited

/-- The channel states of R446. -/
inductive ChanState where
  | idle | run | bindoff
  deriving DecidableEq, Repr, Inhabited

/-- What the timed-I/O block holds for a channel (R41 to R47). -/
structure Chan where
  st : ChanState
  row : DWord
  /-- R0, P0 in 1/65,536 counts and T0, latched at entry to RUN (R42). -/
  r0 : DWord
  p0 : Int
  t0 : Nat
  /-- The index k of the next boundary position (R42, R43). -/
  k : Int
  /-- REV_HOLD as it stood at entry to RUN (R45). -/
  revHold : Bool
  /-- Reverse motion since the previous boundary (R43). -/
  reversed : Bool
  /-- Time and web position of the last boundary, and the interval before it (R60). -/
  lastTime : Option Nat
  lastWeb : Int
  interval : Option Nat
  /-- The boundary log: row and interpolated position of the last 4,096 rows, newest first (R45). -/
  log : List (Nat × Int)
  /-- The marker latched at the last boundary (R42). -/
  marker : Option Marker
  deriving DecidableEq, Repr, Inhabited

/-- The kinds of event (R54); code 3 is reserved and never enters a queue. -/
inductive EvKind where
  | pos | row | time | reserved
  deriving DecidableEq, Repr, Inhabited

/-- The actions of an event (R54). -/
inductive EvAct where
  | set | clear | pulse | window
  deriving DecidableEq, Repr, Inhabited

/-- Where an event presented to the scheduler comes from (02_web_time.md, Events). -/
inductive EvSource where
  | ply (q : Nat) | unins | evin
  deriving DecidableEq, Repr, Inhabited

/-- An event of a timed output (R54); `due` is a signed position in µm, a row, or a time in ns. -/
structure OutEv where
  kind : EvKind
  due : Int
  wale : Word
  act : EvAct
  arg : Word
  tent : Bool
  life : Half
  epoch : Half
  seq : Word
  src : EvSource
  deriving DecidableEq, Repr, Inhabited

/-- How an event still tentative at its horizon was decided, for R66's later counting. -/
structure Decided where
  life : Half
  fired : Bool
  deriving DecidableEq, Repr, Inhabited

/-- What a pin shows: a driven level or high impedance (R63, R72). -/
inductive PinLvl where
  | low | high | hiz
  deriving DecidableEq, Repr, Inhabited

/-- A timed output (R54 to R73). -/
structure Out where
  q : List OutEv
  seq : Word
  setOn : Bool
  /-- End times of the PULSEs in progress, in ns of uptime. -/
  pulses : List Nat
  /-- End positions of the WINDOWs in progress, in µm. -/
  windows : List Int
  pin : PinLvl
  /-- End of the present 20 ns hold, in ns of uptime (R64). -/
  hold : Option Nat
  /-- The edge the scheduler has loaded: event and projected time (R59). -/
  edge : Option (Word × Nat)
  bindoff : Bool
  decided : List Decided
  deriving DecidableEq, Repr, Inhabited

/-- One record of a capture FIFO (R74). -/
structure CapRec where
  time : DWord
  row : DWord
  pos : DWord
  deriving DecidableEq, Repr, Inhabited

/-- One writer's entry in progress of an event window: the words written so far (R76). -/
structure EvIn where
  out : Nat
  core : Nat
  thr : Nat
  level : Nat
  words : List Word
  deriving DecidableEq, Repr, Inhabited

/-- The timed-I/O state beside its registers. -/
structure Web where
  enc : KV Nat Enc
  chan : KV Nat Chan
  out : KV Nat Out
  cap : KV Nat (List CapRec)
  evin : List EvIn
  deriving DecidableEq, Repr, Inhabited

end Sys2Proof
end

