-- ==== Sys2Proof/IngestTypes.lean ====
section
/-!
DEFINITION. Sys2Proof/IngestTypes.lean: what ingest holds beside its registers: links, cameras, rows in flight, drop logs,
mailboxes and the event FIFO (03_ingest.md).
-/
namespace Sys2Proof

/-- A camera's line for one row (R84, R96 to R100). -/
inductive LineSt where
  | pending
  | arriving
  /-- All data in stash, the CRC of its last packets not yet known (R97). -/
  | unresolved
  | verified
  | failed (cause : Nat)
  deriving DecidableEq, Repr, Inhabited

/-- How a course is finished (R96, R97, R99). -/
inductive Finish where
  | complete | partialCourse | spec
  deriving DecidableEq, Repr, Inhabited

/-- A row that owns its slot and is neither dropped nor finally resolved. -/
structure IRow where
  row : Nat
  marker : Marker
  lines : KV Nat LineSt
  /-- How it will be released; `none` while it is pending. -/
  fin : Option Finish
  /-- It was finished with SPEC_INGEST and awaits CRC resolution (R97). -/
  open_ : Bool
  /-- Its final or speculative marker stands in the slot (R93, R96). -/
  written : Bool
  /-- It has been released to the consumers (R93). -/
  rel : Bool
  deriving DecidableEq, Repr, Inhabited

/-- A row released to a ply-queue consumer for which no instance has started yet (R91, R93). -/
structure Feed where
  q : Nat
  row : Nat
  spec : Bool
  deriving DecidableEq, Repr, Inhabited

/-- Ingest of one channel. -/
structure IChan where
  rows : List IRow
  /-- Rows that a ply-queue consumer has passed out of order, by consumer (R91). -/
  passed : KV Nat (List Nat)
  feed : List Feed
  /-- The drop log: row and cause, oldest first, at most 64 (R101). -/
  dlog : List (DWord × Nat)
  /-- Markers of RING_FULL rows that wait for their slot (R101). -/
  waiting : List Marker
  /-- Courses finished whole, finished PARTIAL and dropped, as 0x2110 counts them. -/
  completed : Nat
  partials : Nat
  dropped : Nat
  /-- The final marker of the highest row finished (0x6000), and the last dropped row with its cause. -/
  last : Option Marker
  lastDrop : Option (Nat × Nat)
  deriving DecidableEq, Repr, Inhabited

/-- A camera entry's pairing state (R83, R106). -/
structure Cam where
  /-- The row that TAG_BASE belongs to. -/
  baseRow : Nat
  /-- No TAG_BASE yet: the first header at or after the boundary of `baseRow` sets it. -/
  want : Bool
  /-- Heartbeat lost. -/
  lost : Bool
  /-- The row whose line is arriving. -/
  cur : Option Nat
  deriving DecidableEq, Repr, Inhabited

/-- One entry of the event FIFO (R111). -/
structure EvtRec where
  link : Nat
  time : DWord
  data : List Byte
  truncated : Bool
  deriving DecidableEq, Repr, Inhabited

/-- Ingest beside its registers. -/
structure Ingest where
  chan : KV Nat IChan
  cam : KV Nat Cam
  /-- Uptime at which a link went down (R105). -/
  downAt : KV Nat Nat
  /-- "Wait" acknowledgements of the outstanding request of a mailbox (R109). -/
  waits : KV Nat Nat
  fifo : List EvtRec
  deriving DecidableEq, Repr, Inhabited

end Sys2Proof
end

