-- ==== Sys2Proof/MemTypes.lean ====
section
/-!
DEFINITION. Sys2Proof/MemTypes.lean: memory contents, poison and tags, and what the stash and the DDR controllers hold beside
their registers (04_stash_memory.md, R113, R311).
-/
namespace Sys2Proof

/-- What an address reaches (R463). -/
inductive Region where
  | rom | sram | tcm | ctrl | stash | ddr | reserved
  deriving DecidableEq, Repr, Inhabited

/-- Contents of the memories by physical address. An address that is not listed holds 0 (R515). -/
structure Mem where
  /-- Addresses strictly rising, no byte 0. -/
  cells : List (Nat × Byte)
  /-- 8-byte halves (DDR: 64-byte lines) that hold the poison code (R124, R132). -/
  poison : List Nat
  /-- Stash halves whose stored bits are uncorrectable but hold no poison code yet (R124). -/
  bad : List Nat
  /-- 16-byte granules of TCM, working SRAM and DDR whose tag is set (R131, R311). -/
  tags : List Nat
  deriving DecidableEq, Repr, Inhabited

/-- A request for one 16-byte word in a bank's queue (R115 to R120). -/
structure StReq where
  port : Nat
  id : Nat
  /-- Stash offset of the word. -/
  off : Nat
  wr : Bool
  data : Quad
  be : Half
  /-- The stash cycle in which it entered the bank's queue. -/
  age : Nat
  epoch : Half
  plq : Nat
  deriving DecidableEq, Repr, Inhabited

/-- A served word: the data read or the acknowledgement of a write (R118). -/
structure StResp where
  port : Nat
  id : Nat
  off : Nat
  wr : Bool
  data : Quad
  poisoned : Bool
  deriving DecidableEq, Repr, Inhabited

/-- Where the bank test stands (R125, R126). -/
inductive TestPhase where
  | idle | copy | test | copyBack | resting
  deriving DecidableEq, Repr, Inhabited

/-- The stash beside its contents. -/
structure Stash where
  /-- Stash cycles since cast-on; the priority pointer is this modulo 146. -/
  cycle : Nat
  /-- Bank queues by slice × 64 + logical bank. -/
  queues : KV Nat (List StReq)
  /-- Requests that wait in the fabric for a bank queue with room (R115). -/
  fabric : List (Nat × StReq)
  /-- The last cycle in which a bank is busy with a merge write (R119). -/
  busy : KV Nat Nat
  /-- A request that timed out and is granted next (R121). -/
  urgent : KV Nat StReq
  resp : List StResp
  /-- Corrected words that wait for a free cycle to be written back (R123). -/
  writeBack : List Nat
  /-- The last cycle a bed's conflict counter counted (R122). -/
  conflict : KV Nat Nat
  phase : TestPhase
  /-- The next bank to visit, slice × 66 + physical bank. -/
  next : Nat
  /-- The spare reserved for the copy: 64 or 65. -/
  spare : Nat
  /-- Logical banks, as slice × 64 + bank, that cast-on found without a good physical bank (R501). -/
  dead : List Nat
  deriving DecidableEq, Repr, Inhabited

/-- An outstanding read of a subchannel (R135). -/
structure DdrRead where
  port : Nat
  id : Nat
  addr : Nat
  deriving DecidableEq, Repr, Inhabited

/-- The ply that posted a write: its queue, the number of its instance and its cookie. -/
structure Poster where
  q : Nat
  uid : Nat
  cookie : DWord
  deriving DecidableEq, Repr, Inhabited

/-- A write that is acknowledged but not yet in the DRAM: its line and the ply queue that posted it (R135, R136). -/
structure DdrWrite where
  line : Nat
  src : Option Poster
  deriving DecidableEq, Repr, Inhabited

/-- A completed DDR read. -/
structure DdrResp where
  port : Nat
  id : Nat
  data : List Byte
  poisoned : Bool
  deriving DecidableEq, Repr, Inhabited

/-- The DDR controllers beside their registers. Keys of `rq` and `wq` are channel × 2 + subchannel. -/
structure Ddr where
  rq : KV Nat (List DdrRead)
  wq : KV Nat (List DdrWrite)
  /-- Requests that wait in the fabric: key, read or write. -/
  fabric : List (Nat × (DdrRead ⊕ (Nat × List Byte × DWord)))
  resp : List DdrResp
  /-- Start times of the last recoveries of a channel, in ns of uptime (R137). -/
  recoveries : KV Nat (List Nat)
  /-- Capacity in bytes of one channel, C (R129), as cast-on found it. -/
  capacity : Nat
  /-- The next line patrol scrub reads, by channel (R133). -/
  patrol : KV Nat Nat
  deriving DecidableEq, Repr, Inhabited

end Sys2Proof
end

