-- ==== Sys2Proof/PlyTypes.lean ====
section
/-!
DEFINITION. Sys2Proof/PlyTypes.lean: plies, skeins, instances, lifelines, queues and bed sets (05_stream_model.md,
06_stream_instructions.md, 07_plies_speculation.md).
-/
namespace Sys2Proof

/-- A stream instruction word, field by field (R169). -/
structure SIns where
  opc : Nat
  ot : Nat
  md : Nat
  dst : Nat
  sa : Nat
  sb : Nat
  bimm : Bool
  sc : Nat
  pm : Nat
  pen : Bool
  pinv : Bool
  aux : Nat
  imm : Nat
  deriving DecidableEq, Repr, Inhabited

/-- A skein register: a loaded descriptor whose CAP is resolved to an unsealed capability (R148, R153). -/
structure Skein where
  cap : CapV
  off : Int
  wstr : Int
  cstr : Int
  nw : Nat
  nc : Nat
  ty : Nat
  shape : Nat
  chain : Bool
  idx : Nat
  rslots : Nat
  rbias : Int
  deriving DecidableEq, Repr, Inhabited

/-- A submission entry (R146). -/
structure Entry where
  prog : CapV
  skt : CapV
  cookie : DWord
  row0 : DWord
  opts : Word
  wd : Word
  nins : Nat
  nsk : Nat
  deriving DecidableEq, Repr, Inhabited

/-- A completion record (R149). -/
structure Cpl where
  cookie : DWord
  status : Nat
  cause : Nat
  instr : Nat
  lpos : Nat
  flags : Nat
  elem : Nat
  addr : Nat
  deriving DecidableEq, Repr, Inhabited

/-- A fault of an element (R149, R150). -/
structure SFault where
  cause : Nat
  instr : Nat
  lpos : Nat
  elem : Nat
  addr : Nat
  deriving DecidableEq, Repr, Inhabited

/-- The four sources of a lifeline (R217), coded as PLQ_q_LIFE.KINDS. -/
inductive LifeKind where
  | life | course | branch | ingest
  deriving DecidableEq, Repr, Inhabited

/-- An element that a combining instruction has processed: `none` where it is inactive (R173, R188). -/
structure CElem where
  elem : Nat
  val : Option Nat
  deriving DecidableEq, Repr, Inhabited

/-- What a frog restores (R225): element counts, the combine store, sticky flags and skipped slots. -/
structure Snap where
  done : KV Nat Nat
  comb : KV Nat (List CElem)
  fin : List Nat
  skipped : List Nat
  flags : Nat
  deriving DecidableEq, Repr, Inhabited

/-- An open lifeline of an instance (R217, R218). -/
structure Life where
  id : Half
  kind : LifeKind
  /-- The slot of the LIFE or BRC; 0 for a course or ingest lifeline. -/
  slot : Nat
  snap : Snap
  /-- For a branch: the target taken or the next slot, as followed. -/
  took : Bool
  deriving DecidableEq, Repr, Inhabited

/-- A write held in the speculation buffer of the bed at a position (R220, R221). -/
structure Held where
  life : Half
  lpos : Nat
  addr : Nat
  bytes : List Byte
  deriving DecidableEq, Repr, Inhabited

/-- Where an instance stands. -/
inductive InstSt where
  /-- Loaded and admitted, waiting to issue (R227, R228). -/
  | armed
  | running
  /-- It has stopped issuing for a pinned ply; issued elements commit (R145). -/
  | suspending
  | suspended
  | faulted
  deriving DecidableEq, Repr, Inhabited

/-- A ply instance. -/
structure Inst where
  /-- The model's own number of the instance, by which late reports find it. -/
  uid : Nat
  entry : Entry
  pinned : Bool
  row0 : DWord
  prog : List SIns
  sk : List Skein
  /-- The division: B and SPLIT at the start (R160). -/
  b : Nat
  split : Bool
  st : InstSt
  /-- Committed elements, by slot × 128 + position (R162). -/
  done : KV Nat Nat
  /-- Elements of the current segment that a bed has processed but not handed over (R188), by slot × 128 + position. -/
  part : KV Nat Nat
  /-- Slots that have issued, and slots that are finished. -/
  issued : List Nat
  fin : List Nat
  skipped : List Nat
  comb : KV Nat (List CElem)
  flags : Nat
  /-- First line lost, for WLOST (R152). -/
  lost : Option Nat
  fault : Option SFault
  deferred : List SFault
  lives : List Life
  held : List Held
  /-- Bits of the read filter (R229). -/
  filter : List Nat
  /-- Started for a SPEC_INGEST course whose CRC is unresolved (R232). -/
  spec : Bool
  /-- Its row has passed at the commit of its ingest lifeline (R91, R232). -/
  early : Bool
  /-- Runs again only when the older instance has retired (R225, R228). -/
  waitOld : Bool
  deriving DecidableEq, Repr, Inhabited

/-- A ply queue. -/
structure Plq where
  /-- The submission window: its words, and the tags of PROG and SKT (R147). -/
  win : KV Nat Word
  winTag : Bool × Bool
  pinTag : Bool × Bool
  wait : List Entry
  cpl : List Cpl
  older : Option Inst
  younger : Option Inst
  /-- The owner and the binding that take over when the bind-off ends (R30, R240). -/
  newOwner : Option Bool
  newBind : Option Nat
  /-- The 0x2240 entry that takes over when the bind-off ends (R30). -/
  entry : Option Nat
  /-- A record found the FIFO full and none has been popped since: no ply starts (R149). -/
  stopped : Bool
  /-- Its bind-off starts when that of its channel's ingest has ended (R242). -/
  bindAfter : Bool
  /-- The last instance that ended, whose progress registers stay readable until the next start (R241). -/
  ended : Option Inst
  deriving DecidableEq, Repr, Inhabited

/-- A migration in progress on a bed set (R237): queue, position, old and new bed. -/
structure Mig where
  q : Nat
  lpos : Nat
  old : Nat
  new : Nat
  hw : Bool
  deriving DecidableEq, Repr, Inhabited

/-- A bed set. -/
structure BSet where
  serial : Nat
  /-- The queue whose unpinned ply the set runs (R143). -/
  run : Option Nat
  last : Nat
  mig : Option Mig
  deriving DecidableEq, Repr, Inhabited

/-- What a bed holds beside its registers. -/
structure Bed where
  epoch : Half
  /-- A dropped stitch marked it, at this uptime (R391). -/
  mark : Option Nat
  /-- Uptime of its last request timeout (R505). -/
  lastTo : Option Nat
  /-- The patch has been copied into it (R418). -/
  patched : Bool
  /-- A request timeout that waits for another migration to end, and whether it retires the bed (R505). -/
  toWait : Option Bool
  /-- Swapped out of a position for measurement: it becomes the standby bed of its set if it meets the set's frequency (R22). -/
  swapped : Bool
  /-- The 0x2200 entry that it takes when its migration has ended (R460). -/
  entry : Option Nat
  deriving DecidableEq, Repr, Inhabited

/-- Beds, sets and queues. -/
structure Ply where
  q : KV Nat Plq
  set : KV Nat BSet
  bed : KV Nat Bed
  nextUid : Nat
  deriving DecidableEq, Repr, Inhabited

end Sys2Proof
end

