-- ==== Sys2Proof/Sent.lean ====
section
/-!
DEFINITION. Sys2Proof/Sent.lean: what the device drives outward, one constructor per kind of act that an outside party sees.
The state keeps these in a list (the model's own record; DESIGN CHOICE, notes/assumptions/4.md).
-/
namespace Sys2Proof

/-- One outward act. -/
inductive Sent where
  /-- A trigger packet for a row of a channel on a link's uplink (R48). -/
  | trigger (chan link : Nat) (row : DWord)
  /-- A CoE emergency (R455). -/
  | emergency (code : Nat)
  /-- A control-channel request to a camera (R109). -/
  | camControl (cam : Nat) (write : Bool) (addr : Word) (data : List Byte)
  /-- An SDO answer: abort code 0 for success, and the bytes of an upload (R452, R453). -/
  | sdo (path : Path) (idx sub : Nat) (abort : Nat) (data : List Byte)
  /-- A FoE answer: error code 0 for success, and the bytes of a read (R444, R462). -/
  | foe (file : Nat) (error : Nat) (data : List Byte)
  /-- An AL status with its status code (R446). -/
  | alStatus (state code : Nat)
  /-- A mailbox error reply (R445). -/
  | mbxError (code : Nat)
  /-- The transmit PDO image latched for the PLC (R450). -/
  | txpdo (data : List Byte)
  /-- An MSI-X message (R473). -/
  | msix (vector : Nat) (addr : DWord) (data : Word)
  /-- A write to host memory (R476 to R478). -/
  | hostWrite (addr : DWord) (data : List Byte) (poisoned : Bool)
  /-- A PCI Express completion with no data and an error status (R471). -/
  | pcieAbort (fn : Nat)
  /-- A configuration request answered with Configuration Request Retry Status (R536). -/
  | pcieRetry (fn : Nat)
  /-- An image written to the boot flash (R404). -/
  | flashWrite (slot : Nat)
  /-- An AVSBus request for a rail voltage in mV (R522). -/
  | avs (mv : Nat)
  /-- A rail enable pin (R523, R524). -/
  | coreEn (on : Bool)
  /-- A PMIC or SPD transaction on the sideband bus (R134). -/
  | sideband (chan : Nat) (what : Nat)
  /-- An EtherCAT port's frame forwarding opens or closes (R444). -/
  | portLoop (port : Nat) (closed : Bool)
  deriving DecidableEq, Repr, Inhabited

end Sys2Proof
end

