-- ==== Sys2Proof/SysTypes.lean ====
section
/-!
DEFINITION. Sys2Proof/SysTypes.lean: what the voter, cast-on, the Kethar block, power control and the gauge hold beside their
registers (13_redundancy.md, 14_cast_on_microcode.md, 15_trust.md, 18_power_clocks_gauge.md, 20_electrical_package.md).
-/
namespace Sys2Proof

/-- A record of VOT_DS (R392). -/
structure DsRec where
  info : Word
  time : DWord
  addr : DWord
  deriving DecidableEq, Repr, Inhabited

/-- The voter. -/
structure Vot where
  /-- VOT_DS, oldest first, at most 16. -/
  ds : List DsRec
  /-- The core being resynchronised (R380). -/
  minority : Option Nat
  /-- The sweep of the resynchronisation has ended. -/
  swept : Bool
  deriving DecidableEq, Repr, Inhabited

/-- A directory entry of a flash header, or a parsed container's place: type, slot, offset and length (R403). -/
structure DirEnt where
  typ : Nat
  slot : Nat
  off : Nat
  len : Nat
  deriving DecidableEq, Repr, Inhabited

/-- A valid flash header (R403). -/
structure FlashHdr where
  seq : Nat
  attest : Bool
  dir : List DirEnt
  deriving DecidableEq, Repr, Inhabited

/-- Cast-on beside TMO_CASTON. -/
structure Cast where
  /-- Boot flash contents by offset; an offset that is not listed reads 0xFF. -/
  flash : KV Nat Byte
  /-- Flash size and the largest erase block that SFDP announces (R403). -/
  size : Nat
  erase : Nat
  /-- The header whose images this cast-on uses: 0 A, 1 B. -/
  used : Option Nat
  /-- This pass is a restart under R395, or of the hook complex outside cast-on (R511). -/
  restart : Bool
  hookOnly : Bool
  /-- The reset was a warm reset. -/
  warm : Bool
  /-- Stages whose watchdog has expired in this cast-on. -/
  expired : List Nat
  /-- 0x2010:04. -/
  flags : Nat
  load : Nat
  length : Nat
  entry : Nat
  version : Nat
  /-- The firmware was signed by the integrator (R439). -/
  integrator : Bool
  /-- The firmware container's first 0x60 bytes and its signature (R511). -/
  fwHead : List Byte
  fwSig : List Byte
  /-- The patch shadow (R416). -/
  patch : List Byte
  /-- Beds measured by the gauge in this cast-on (R396). -/
  gauged : List Nat
  retired : Nat
  started : Nat
  /-- Duration in ms of the last cast-on (0x2010:07). -/
  ms : Nat
  /-- DDR channels to be filled after a warm reset (R510). -/
  refill : List Nat
  deriving DecidableEq, Repr, Inhabited

/-- An operation of the Kethar block in progress: its code and the operands latched at GO. -/
structure KOp where
  op : Nat
  src : Nat
  len : Nat
  dst : Nat
  /-- An operand given by the dictionary or JTAG in place of memory. -/
  bytes : Option (List Byte)
  /-- Started by the dictionary: 1 attest, 2 rekey, 3 challenge, 4 unlock; 0 for firmware. -/
  od : Nat
  deriving DecidableEq, Repr, Inhabited

/-- A level-1 tree that OPEN or REKEY is making (R429). -/
structure KPend where
  op : Nat
  j : Nat
  /-- Tree generation has ended; the path of the leaf has been taken. -/
  gen : Bool
  path : Option (List Byte)
  od : Nat
  deriving DecidableEq, Repr, Inhabited

/-- The Kethar block. -/
structure Kth where
  /-- Key-slot hashes 0 V0, 1 V1, 2 I0, 3 I1 that KEYOP has programmed, and the PROG and REVOKE fuses (R422). -/
  hash : KV Nat (BitVec 256)
  prog : List Nat
  revoke : List Nat
  /-- Boot-counter bits that read programmed (R428). -/
  burned : List Nat
  fresh : Option Nat
  op : Option KOp
  pend : Option KPend
  /-- The open tree's number, by which signatures differ (R432). -/
  tree : Option Nat
  /-- The level-0 leaf of the open tree. -/
  leaf : Nat
  trees : Nat
  /-- OPEN has been accepted in this session (R434). -/
  opened : Bool
  /-- The present challenge has not been consumed (R441). -/
  chal : Bool
  scope : Nat
  /-- Debug unlocked since cast-on (R439). -/
  dbgEver : Bool
  /-- The last report, 0x2800:08. -/
  report : List Byte
  deriving DecidableEq, Repr, Inhabited

/-- Supplies, reset inputs and sleep. -/
structure Pwr where
  /-- CORE_EN is driven high. -/
  coreEn : Bool
  /-- PORST_L, SYSRST_L low. -/
  porst : Bool
  sysrst : Bool
  /-- The last AVSBus transactions failed; none has succeeded since (R522). -/
  avsLost : Bool
  /-- The rail voltage last acknowledged, mV. -/
  rail : Nat
  /-- Present junction band by domain: 0 below 103 °C, 1, 2 (R491). -/
  band : KV Nat Nat
  /-- How far the power cap lowers each set's frequency, MHz (R496). -/
  cap : KV Nat Nat
  /-- How long the average has stayed below 310 W, in steps of 100 µs. -/
  low : Nat
  /-- The last package power samples, newest first, in 0.1 W (1 ms average). -/
  samples : List Nat
  /-- A return from standby is in progress (R486). -/
  leaving : Bool
  /-- The hottest junction reading, signed 0.1 °C (0x2300:08). -/
  hottest : Int
  /-- How far the slack of the fixed-clock domains raises the rail, mV (R490). -/
  extra : Nat
  deriving DecidableEq, Repr, Inhabited

/-- The gauge. -/
structure Gau where
  /-- The bed under measurement, and whether it comes from a set. -/
  bed : Option Nat
  /-- The bed that GAU_CTRL.GO or 0x2300:03 asked to measure next. -/
  next : Option Nat
  /-- Beds that a re-plan still has to measure (0x2310:04). -/
  plan : List Nat
  /-- Needles and banks of spares that failed their cast-on test: kind × 65536 + unit × 256 + element (R501). -/
  bad : List Nat
  /-- Ring-oscillator counts at the last measurement, by bed (R493). -/
  ring : KV Nat Nat
  /-- Beds to be measured ahead of their turn (R493). -/
  early : List Nat
  /-- Spare beds being taken: bed, set, and the position they are to run; without one, as standby (R22, R494, R495). -/
  take : List (Nat × Nat × Option Nat)
  /-- A position run by the remaining beds of its set until the measured bed returns: set, position (R494). -/
  back : Option (Nat × Nat)
  /-- Where the rotation goes on: the least number it takes next (R494). -/
  rot : Nat
  deriving DecidableEq, Repr, Inhabited

end Sys2Proof
end

