-- ==== Sys2Proof/Machine/State.lean ====
section
/-!
DEFINITION. Sys2Proof/Machine/State.lean: the whole state of the device as plain data, and the state right after power-on.
A table (`KV`) lists only what differs from its reset value, so the reset state is short.
-/
namespace Sys2Proof

/-- An encoder at power-on (R75, DESIGN CHOICE, notes/assumptions/2.md for the phase levels). -/
def Enc.init : Enc := ⟨true, true, 0, []⟩

/-- A channel at reset (R41, R446). -/
def Chan.init : Chan := ⟨.idle, 0, 0, 0, 0, 0, true, false, none, 0, none, [], none⟩

/-- An output at reset: disarmed, inactive, at its safe level, high impedance (R72). -/
def Out.init : Out := ⟨[], 0, false, [], [], .hiz, none, none, false, []⟩

/-- The stash at reset (R117, R125). -/
def Stash.init : Stash := ⟨0, [], [], [], [], [], [], [], .idle, 0, 64, []⟩

/-- Ingest of a channel at reset. -/
def IChan.init : IChan := ⟨[], [], [], [], [], 0, 0, 0, none, none⟩

/-- A camera entry at reset. -/
def Cam.init : Cam := ⟨0, true, false, none⟩

/-- A ply queue at reset. -/
def Plq.init : Plq := ⟨[], (false, false), (false, false), [], [], none, none, none, none, none, false, false, none⟩

/-- A bed set at reset (R218). -/
def BSet.init : BSet := ⟨0, none, 63, none⟩

/-- A bed at reset. -/
def Bed.init : Bed := ⟨0, none, none, false, none, false, none⟩

/-- The host function at reset. -/
def HostIf.init : HostIf := ⟨[], [], [], [], [], [], false⟩

/-- The field network interface at reset: INIT (R446). -/
def Ect.init : Ect := ⟨1, 0, false, [], [], [], none, false, [], 0, [], [], []⟩

/-- Cast-on at power-on: stage 0 has not ended, and nothing of the boot flash is known (DESIGN CHOICE, notes/assumptions/30.md). -/
def Cast.init : Cast := ⟨[], 0, 0, none, false, false, false, [], 0, 0, 0, 0, 0, false, [], [], [], [], 0, 0, 0, []⟩

/-- The Kethar block of a device as it leaves the factory: V0 and V1 programmed (R422), no boot-counter bit burned. -/
def Kth.init : Kth := ⟨[], [0, 1], [], [], none, none, none, none, 0, 0, false, false, 0, false, []⟩

/-- Supplies at power-on: CORE_EN low, the reset inputs released, the rail at 0.75 V (R519, R521, R523). -/
def Pwr.init : Pwr := ⟨false, false, false, false, 750, [], [], 0, [], false, 0, 0⟩

/-- The gauge before its first measurement. -/
def Gau.init : Gau := ⟨none, none, [], [], [], [], [], none, 0⟩

namespace Machine

/-- The machine's faults. Raised by no meaning on ordinary data: every error the spec describes is an effect of its own. -/
inductive Fault where
  /-- An address with no memory and no register behind it, where the spec gives the access no effect. Raised by no
  meaning of this model; kept so that a later unit can say it. Safe: the model would stop where the device goes on. -/
  | noSuchAddress (addr : Nat)
  deriving DecidableEq, Repr

/-- The machine's refusals. -/
inductive Refusal where
  /-- The command named has no meaning in this model yet. Raised by the dispatch alone. Safe: the model stops. -/
  | notModelled (mnemonic : String)
  deriving DecidableEq, Repr

/-- The state of the device. -/
structure State where
  /-- The commands waiting, first in first out. -/
  pending : List Instr
  /-- Registers that hold a stored value differing from their reset value. -/
  regs : KV Reg Word
  /-- LO halves held (R547), by HI register. -/
  held : KV Reg Word
  /-- HI halves latched by a read of LO (R547), by HI register. -/
  latched : KV Reg Word
  /-- Nanoseconds since power-on (the model's own; DESIGN CHOICE, notes/assumptions/1.md). -/
  uptime : Nat
  /-- Index of the next open value (the model's own; DESIGN CHOICE, notes/assumptions/3.md). -/
  free : Nat
  /-- What the device has driven outward, newest first (the model's own; DESIGN CHOICE, notes/assumptions/4.md). -/
  sent : List Sent
  /-- The bytes the last read returned (the model's own; DESIGN CHOICE, notes/assumptions/4.md). -/
  rd : List Byte
  /-- When each emergency code was last sent, for the 100 ms of R455. -/
  emLast : KV Nat Nat
  /-- The counters of 0x2900, by subindex (R461); under subindex + 0x40 the UE halves of 0x19 and 0x1A, under subindex + 0x80 running
  sums as last seen (DEDUCED, notes/assumptions/94.md). -/
  tally : KV Nat Nat
  tb : TimeBase
  web : Web
  mem : Mem
  stash : Stash
  ddr : Ddr
  ing : Ingest
  ply : Ply
  host : HostIf
  ect : Ect
  hook : Hook
  vot : Vot
  cast : Cast
  kth : Kth
  pwr : Pwr
  gau : Gau
  /-- Resolved handles that the host function caches: handle, sealed capability, function mask (R475). -/
  hcache : List (Nat × CapV × Half)
  /-- Dictionary objects that map to no register, by index × 256 + subindex (R457). -/
  od : KV Nat Nat
  deriving DecidableEq, Repr

/-- The device right after power-on. -/
def State.reset : State where
  pending := []
  regs := []
  held := []
  latched := []
  uptime := 0
  free := 0
  sent := []
  rd := []
  emLast := []
  tally := []
  tb := ⟨0, 0, 0, 0, false, 0⟩
  web := ⟨[], [], [], [], []⟩
  mem := ⟨[], [], [], []⟩
  stash := Stash.init
  ddr := ⟨[], [], [], [], [], 0, []⟩
  ing := ⟨[], [], [], [], []⟩
  ply := ⟨[], [], [], 0⟩
  host := HostIf.init
  ect := Ect.init
  hook := ⟨[], []⟩
  vot := ⟨[], none, false⟩
  cast := Cast.init
  kth := Kth.init
  pwr := Pwr.init
  gau := Gau.init
  hcache := []
  od := []

end Machine
end Sys2Proof
end

