-- ==== Sys2Proof/Machine/Ops.lean ====
section
/-!
DEFINITION. Sys2Proof/Machine/Ops.lean: the named operations every family shares: registers and their fields, open values,
time, outward acts, interrupts and emergencies.
-/
namespace Sys2Proof

/-- Bits [hi:lo] of a number (R6). -/
def bitsOf (v hi lo : Nat) : Nat := (v >>> lo) % 2 ^ (hi + 1 - lo)

/-- A number with its bits [hi:lo] replaced. -/
def putBits (v hi lo x : Nat) : Nat :=
  v - (bitsOf v hi lo) * 2 ^ lo + (x % 2 ^ (hi + 1 - lo)) * 2 ^ lo

/-- A number read as a signed one of `n` bits. -/
def signedOf (n v : Nat) : Int := if v % 2 ^ n < 2 ^ (n - 1) then (v % 2 ^ n : Nat) else (v % 2 ^ n : Nat) - (2 ^ n : Nat)

/-- Floor division by a positive number (R50, R55). -/
def floorDiv (a : Int) (b : Nat) : Int := Int.fdiv a b

/-- Division of naturals, rounded up. -/
def ceilDiv (a b : Nat) : Nat := (a + b - 1) / b

/-- The `n` low bytes of a number, little-endian (R7). -/
def leBytes : Nat → Nat → List Byte
  | 0, _ => []
  | n + 1, v => BitVec.ofNat 8 v :: leBytes n (v / 256)

/-- A little-endian list of bytes as a number (R7). -/
def ofLeBytes : List Byte → Nat
  | [] => 0
  | b :: t => b.toNat + 256 * ofLeBytes t

/-- Insert into a list sorted by a key. -/
def insertBy {α : Type} (key : α → Nat) (x : α) : List α → List α
  | [] => [x]
  | y :: t => if key x ≤ key y then x :: y :: t else y :: insertBy key x t

/-- A stable sort by a key. -/
def sortBy {α : Type} (key : α → Nat) : List α → List α
  | [] => []
  | x :: t => insertBy (fun y => key y) x (sortBy key t)

/-- The value of a register of this kind after its reset. -/
def RegKind.resetWord (k : RegKind) : Word :=
  BitVec.ofNat 32 (k.info.fields.foldl (fun a f => a + f.reset * 2 ^ f.lo) 0)

/-- The address of a register. -/
def Reg.addr (r : Reg) : Nat :=
  let n := r.kind.info
  n.block.base + n.off + n.stride * r.i + n.stride2 * r.j

/-- The register of kind `k` at offset `d` of its block, if any: the indices that its strides give. -/
def RegKind.at (k : RegKind) (d : Nat) : Option Reg :=
  let n := k.info
  let r : Reg :=
    if n.stride = 0 then ⟨k, 0, if n.stride2 = 0 then 0 else (d - n.off) / n.stride2⟩
    else ⟨k, (d - n.off) / n.stride, if n.stride2 = 0 then 0 else (d - n.off) % n.stride / n.stride2⟩
  let last := if n.count2 = 1 then r.i else r.j
  if n.off ≤ d ∧ r.i < n.count ∧ r.j < n.count2 ∧ n.first ≤ last ∧ n.off + n.stride * r.i + n.stride2 * r.j = d
  then some r else none

/-- The register at an address of the control window; `none` where the address has none. -/
def Reg.ofAddr (a : Nat) : Option Reg :=
  RegKind.all.findSome? fun k =>
    let b := k.info.block.base
    if b ≤ a then k.at (a - b) else none

namespace Machine

/-- Apply `f` where the condition holds; elsewhere nothing happens (DESIGN CHOICE, notes/assumptions/5.md, 6.md). -/
def State.when (c : Bool) (f : State → State) (s : State) : State := if c then f s else s

/-- The stored value of a register. -/
def State.reg (s : State) (r : Reg) : Word := s.regs.get r r.kind.resetWord

/-- Store a register's value. -/
def State.setReg (s : State) (r : Reg) (v : Word) : State := { s with regs := s.regs.set r v }

/-- The value of a register's field. -/
def State.fld (s : State) (f : Fld) (i : Nat := 0) (j : Nat := 0) : Nat :=
  bitsOf (s.reg ⟨f.k, i, j⟩).toNat f.hi f.lo

/-- Set a register's field, as the hardware does. -/
def State.setFld (s : State) (f : Fld) (v : Nat) (i : Nat := 0) (j : Nat := 0) : State :=
  s.setReg ⟨f.k, i, j⟩ (BitVec.ofNat 32 (putBits (s.reg ⟨f.k, i, j⟩).toNat f.hi f.lo v))

/-- Whether a one-bit field is 1. -/
def State.flag (s : State) (f : Fld) (i : Nat := 0) (j : Nat := 0) : Bool := decide (s.fld f i j = 1)

/-- Count `n` events in a saturating counter field. -/
def State.bump (s : State) (f : Fld) (i : Nat := 0) (n : Nat := 1) (j : Nat := 0) : State :=
  s.setFld f (min (s.fld f i j + n) (2 ^ (f.hi + 1 - f.lo) - 1)) i j

/-- A 64-bit value held in a LO/HI pair of fields. -/
def State.pair (s : State) (lo hi : Fld) (i : Nat := 0) (j : Nat := 0) : Nat :=
  s.fld lo i j + 2 ^ 32 * s.fld hi i j

/-- Set a LO/HI pair of fields. -/
def State.setPair (s : State) (lo hi : Fld) (v : Nat) (i : Nat := 0) (j : Nat := 0) : State :=
  (s.setFld lo (v % 2 ^ 32) i j).setFld hi (v / 2 ^ 32) i j

/-- The next open value and the state that has used it. -/
def State.fresh (s : State) : Nat × State := (Config.freeNat s.free, { s with free := s.free + 1 })

/-- Drive something outward. -/
def State.send (s : State) (x : Sent) : State := { s with sent := x :: s.sent }

/-- A source makes interrupt vector `v` pending: on the voted core, and in split mode on every core that enables the vector
(R297, R385). -/
def State.raise (s : State) (v : Nat) : State :=
  if s.fld F.HKC_ID_MODE % 2 = 0 then s.setFld F.HKC_IRQ_CFG_PEND 1 0 v
  else [0, 1, 2].foldl (fun s c => if s.flag F.HKC_IRQ_CFG_EN c v then s.setFld F.HKC_IRQ_CFG_PEND 1 c v else s) s

/-- Send a CoE emergency, at most one per code in any 100 ms (R455). -/
def State.emergency (s : State) (code : Nat) : State :=
  match s.emLast.find? (fun e => e.1 == code) with
  | some (_, t) =>
    if s.uptime < t + 100000000 then s
    else { (s.send (.emergency code)) with emLast := s.emLast.set code s.uptime }
  | none => { (s.send (.emergency code)) with emLast := s.emLast.set code s.uptime }

/-- Nanoseconds of `n` ticks of the 32.768 kHz clock from phase `p`: 30,517 each, and one more in 37 of every 64 (R527). -/
def slowTicks (p n : Nat) : Nat := 30517 * n + ((p + n) * 37 / 64 - p * 37 / 64)

/-- The least spacing, in ticks, of ticks that advance by other than 1, so that their share never exceeds TBS_SLEW (R32). -/
def State.slewSpacing (s : State) : Nat := ceilDiv 1000000 (s.fld F.TBS_SLEW)

/-- The time base over `dt` ticks while REFCK is present. A disciplined time base slews by an open amount within the bound of
R32; a free-running one counts every tick as 1 (R31). -/
def State.advanceRef (s : State) (dt : Nat) : State :=
  if s.fld F.TBS_CTRL_DISCEN = 1 ∧ (s.fld F.TBS_CTRL_SRC = 1 ∨ s.fld F.TBS_CTRL_SRC = 2) then
    let p := s.slewSpacing
    let credit := min s.tb.since p + dt
    let b := credit / p
    let (x, s) := s.fresh
    let adj : Int := (x % (2 * b + 1) : Nat) - (b : Nat)
    { s with
      uptime := s.uptime + dt
      tb := { s.tb with
        time := s.tb.time + BitVec.ofInt 64 (dt + adj)
        owed := s.tb.owed - adj
        since := credit - adj.natAbs * p } }
  else
    { s with uptime := s.uptime + dt, tb := { s.tb with time := s.tb.time + BitVec.ofNat 64 dt } }

/-- `dt` ticks of the clock of the time base pass (R31, R32, R527, DESIGN CHOICE, notes/assumptions/7.md). -/
def State.advance (s : State) (dt : Nat) : State :=
  if s.tb.refLost then
    let n := slowTicks s.tb.phase dt
    { s with
      uptime := s.uptime + n
      tb := { s.tb with time := s.tb.time + BitVec.ofNat 64 n, phase := (s.tb.phase + dt) % 64 } }
  else s.advanceRef dt

/-- Add to a counter of 0x2900 (R461). -/
def State.count (s : State) (sub : Nat) (n : Nat := 1) : State :=
  { s with tally := s.tally.upd sub 0 (· + n) }

/-- One expiry of a timeout level (R503). -/
def State.expiry (s : State) : State := s.count 0x13

/-- The time base as a number. -/
def State.now (s : State) : Nat := s.tb.time.toNat

end Machine
end Sys2Proof
end

