-- ==== Sys2Proof/Machine/DictOps.lean ====
section
/-!
DEFINITION. Sys2Proof/Machine/DictOps.lean: objects of the dictionary that map to no register, their defaults, and the conditions
of RUN (R449, R456, R457, R458).
-/
namespace Sys2Proof.Machine

/-- The default of an object that maps to no register (16_object_dictionary.md, tables). -/
def odDefault (idx sub : Nat) : Nat :=
  if idx = 0x1C00 then [8, 1, 2, 3, 4].getD sub 0
  else if 0x1600 ≤ idx ∧ idx < 0x1610 then
    let n := idx - 0x1600
    [2, (0x7000 + n) * 65536 + 0x0110, (0x7000 + n) * 65536 + 0x0220].getD sub 0
  else if idx = 0x1A00 then [3, 0x20000108, 0x20000508, 0x10010008].getD sub 0
  else if 0x1A01 ≤ idx ∧ idx < 0x1A11 then
    let n := idx - 0x1A01
    [2, (0x6000 + n) * 65536 + 0x0140, (0x6000 + n) * 65536 + 0x0420].getD sub 0
  else if idx = 0x1C13 then [1, 0x1A00].getD sub 0
  else if idx = 0x1C32 ∨ idx = 0x1C33 then [0, 0, 1000000, 0, 7, 100000, 20000].getD sub 0
  else if idx = 0x10F1 then [2, 0, 4].getD sub 0
  else if idx = 0x2000 then (if sub = 6 then 1 else 0)
  else if 0x2100 ≤ idx ∧ idx < 0x2110 then
    (match sub with
      | 0x15 => 1000
      | 0x17 => 1090
      | 0x19 => 0xFF
      | _ => 0)
  else if idx = 0x2600 then (match sub with | 6 => 1000 | 0xA => 100 | _ => 0)
  else 0

/-- The value of an object that maps to no register. -/
def State.odv (s : State) (idx sub : Nat) : Nat := s.od.get (idx * 256 + sub) (odDefault idx sub)

def State.setOd (s : State) (idx sub v : Nat) : State := { s with od := s.od.set (idx * 256 + sub) v }

/-- R454: a long action under way ends with status 2 or 3. -/
def State.finish (s : State) (idx sub : Nat) (ok : Bool) : State :=
  if s.odv idx sub = 1 then s.setOd idx sub (if ok then 2 else 3) else s

/-- The entries of an assignment or a map: subindices 1 to the count in subindex 00. -/
def State.odList (s : State) (idx : Nat) : List Nat := (List.range (s.odv idx 0)).map fun k => s.odv idx (k + 1)

/-- The map entries of the active RxPDO and TxPDO assignments. -/
def State.rxMap (s : State) : List Nat := (s.odList 0x1C12).flatMap s.odList
def State.txMap (s : State) : List Nat := (s.odList 0x1C13).flatMap s.odList

/-- Whether the run request of channel `n` is mapped in the active RxPDO assignment (R458). -/
def State.runMapped (s : State) (n : Nat) : Bool := s.rxMap.any fun e => decide (e / 256 = (0x7000 + n) * 256 + 1)

/-- The run request of a channel as R458 reads it. -/
def State.runRequest (s : State) (n : Nat) : Bool :=
  if s.runMapped n then s.ect.runSeen.contains n && decide (s.odv (0x7000 + n) 1 % 2 = 1) else true

/-- R458: the conditions under which a channel enters RUN, and with whose lapse it binds off. -/
def State.chanWanted (s : State) (n : Nat) : Bool :=
  decide (s.odv (0x2100 + n) 1 = 1) && (decide (s.ect.al = 4) || decide (s.ect.al = 8)) && s.runRequest n

/-- Cast-on has ended in IDLE (R393, R446). -/
def State.castOnDone (s : State) : Bool := s.flag F.TMO_CASTON_DONE && !s.flag F.TMO_CASTON_SAFE

/-- Every channel is IDLE. -/
def State.allIdle (s : State) : Bool := s.web.chan.all fun e => e.2.st == .idle

/-- The device state, 0x2000:01 (R446). -/
def State.devState (s : State) : Nat :=
  if s.flag F.TMO_CASTON_SAFE then 4
  else if !s.flag F.TMO_CASTON_DONE then 0
  else if s.ect.bindoff.isSome then 3
  else if s.web.chan.any fun e => e.2.st == .run then 2
  else 1

end Sys2Proof.Machine
end

