-- ==== Sys2Proof/Machine/MemOps.lean ====
section
/-!
DEFINITION. Sys2Proof/Machine/MemOps.lean: the address map and one access to memory: bytes, poison and tags (R113, R124, R129 to
R132, R136, R379, R463).
-/
namespace Sys2Proof.Machine

/-! ### Cells and sets of addresses -/

/-- The byte at an address; 0 where none is listed (R515). -/
def cellsGet : List (Nat × Byte) → Nat → Byte
  | [], _ => 0
  | (a', b) :: t, a => if a' = a then b else if a < a' then 0 else cellsGet t a

/-- Write one byte, keeping the canonical form. -/
def cellsPut : List (Nat × Byte) → Nat → Byte → List (Nat × Byte)
  | [], a, b => if b = 0 then [] else [(a, b)]
  | (a', b') :: t, a, b =>
    if a < a' then (if b = 0 then (a', b') :: t else (a, b) :: (a', b') :: t)
    else if a = a' then (if b = 0 then t else (a, b) :: t)
    else (a', b') :: cellsPut t a b

/-- The canonical form: addresses strictly rising, no byte 0. -/
def cellsWf : List (Nat × Byte) → Bool
  | [] => true
  | [(_, b)] => decide (b ≠ 0)
  | (a, b) :: (a', b') :: t => decide (b ≠ 0) && decide (a < a') && cellsWf ((a', b') :: t)

/-- The form of memory that every operation keeps. -/
def memWf (m : Mem) : Bool := cellsWf m.cells

/-- Write bytes from an address on. -/
def cellsPutAll : List (Nat × Byte) → Nat → List Byte → List (Nat × Byte)
  | c, _, [] => c
  | c, a, b :: t => cellsPutAll (cellsPut c a b) (a + 1) t

/-- Insert into a rising list of naturals. -/
def setAdd : List Nat → Nat → List Nat
  | [], a => [a]
  | b :: t, a => if a < b then a :: b :: t else if a = b then b :: t else b :: setAdd t a

/-- Remove from a list of naturals. -/
def setDel (l : List Nat) (a : Nat) : List Nat := l.filter fun b => b != a

/-- The units of `u` bytes that [a, a + n) touches. -/
def unitsOf (u a n : Nat) : List Nat :=
  if n = 0 then [] else (List.range ((a + n - 1) / u - a / u + 1)).map fun k => (a / u + k) * u

/-- Whether [a, a + n) covers the unit of `u` bytes at `x`. -/
def covers (u a n x : Nat) : Bool := decide (a ≤ x ∧ x + u ≤ a + n)

/-! ### The address map (R463, R464) -/

/-- Base of the stash. -/
def stashBase : Nat := 0x20000000

/-- Size of the stash: 128 MiB (04_stash_memory.md). -/
def stashSize : Nat := 0x8000000

/-- Base of DDR. -/
def ddrBase : Nat := 0x10000000000

/-- First address above usable DDR (R129). -/
def State.ddrTop (s : State) : Nat := s.pair F.DDR_TOP_LO F.DDR_TOP_HI

/-- Whether the complex is voted (R385). -/
def State.voted (s : State) : Bool := decide (s.fld F.HKC_ID_MODE % 2 = 0)

/-- What an address reaches. -/
def State.regionOf (s : State) (a : Nat) : Region :=
  if a < 0x20000 then (if s.flag F.MTX_REMAP_REMAP then .sram else .rom)
  else if 0x100000 ≤ a ∧ a < 0x500000 then .sram
  else if 0x1000000 ≤ a ∧ a < 0x1020000 then .rom
  else if 0x2000000 ≤ a ∧ a < (if s.voted then 0x2040000 else 0x20C0000) then .tcm
  else if (0x10000000 ≤ a ∧ a < 0x100F0000) ∨ (0x10100000 ≤ a ∧ a < 0x10200000) ∨ (0x10800000 ≤ a ∧ a < 0x11000000) then .ctrl
  else if 0x20000000 ≤ a ∧ a < 0x28000000 then .stash
  else if ddrBase ≤ a ∧ a < s.ddrTop then .ddr
  else .reserved

/-- The address under which a byte is kept: the remap shows working SRAM at 0 (R463). -/
def physOf (r : Region) (a : Nat) : Nat := if r = .sram ∧ a < 0x20000 then a + 0x100000 else a

/-- The region of a range that lies in one region, else reserved. -/
def State.regionOfRange (s : State) (a n : Nat) : Region :=
  if s.regionOf a = s.regionOf (a + n - 1) then s.regionOf a else .reserved

/-! ### DDR channels (R130) -/

/-- The numbers of the channels in service, ascending (R128). -/
def State.ddrChans (s : State) : List Nat := (List.range 12).filter fun c => (s.fld F.DDR_CFG_CHMASK).testBit c

/-- DDR_READY: stage 6 has ended and no channel in service is filling (R408). -/
def State.ddrReady (s : State) : Bool :=
  (decide (6 < s.fld F.TMO_CASTON_STAGE) || s.flag F.TMO_CASTON_DONE) && s.ddrChans.all fun c => !s.flag F.DDR_CH_STAT_LOST c

/-- The channel of a DDR address. -/
def State.ddrChan (s : State) (a : Nat) : Nat :=
  let cs := s.ddrChans
  cs.getD (((a - ddrBase) / 256) % cs.length) 0

/-- The subchannel of a DDR address: 0 A, 1 B. -/
def ddrSub (a : Nat) : Nat := (a - ddrBase) / 64 % 2

/-- A channel that serves no request: recovering, offline or with its contents lost (R136, R137). -/
def State.ddrDown (s : State) (c : Nat) : Bool :=
  s.flag F.DDR_CH_STAT_RECOVER c || s.flag F.DDR_CH_STAT_OFFLINE c || s.flag F.DDR_CH_STAT_LOST c

/-! ### Reading -/

/-- The bitwise majority of three bytes (R377, R379). -/
def majority (a b c : Byte) : Byte := (a &&& b) ||| (a &&& c) ||| (b &&& c)

/-- One byte as a load sees it. -/
def State.peek (s : State) (a : Nat) : Byte :=
  match s.regionOf a with
  | .rom => Config.bootRom (a % 0x20000)
  | .tcm =>
    if s.voted then
      majority (cellsGet s.mem.cells a) (cellsGet s.mem.cells (a + 0x40000)) (cellsGet s.mem.cells (a + 0x80000))
    else cellsGet s.mem.cells a
  | .ctrl => 0
  | .reserved => 0
  | r => cellsGet s.mem.cells (physOf r a)

/-- `n` bytes from an address on. -/
def State.peekN (s : State) (a : Nat) : Nat → List Byte
  | 0 => []
  | n + 1 => s.peek a :: s.peekN (a + 1) n

/-- R114: the bank of a stash offset, slice × 64 + logical bank. -/
def stBank (off : Nat) : Nat :=
  let slice := (off / 64 % 64) ^^^ (off / 65536 % 64)
  let group := (off / 4096 % 16) ^^^ (off / 4194304 % 16)
  slice * 64 + group * 4 + off / 16 % 4

/-- A stash word whose logical bank has no good physical bank: every read of it is poisoned (R501). -/
def State.deadBank (s : State) (a : Nat) : Bool :=
  match s.stash.dead with
  | [] => false
  | d => d.contains (stBank (a - stashBase))

/-- Whether a load of [a, a + n) returns poison (R124, R132, R136). -/
def State.poisoned (s : State) (a n : Nat) : Bool :=
  match s.regionOf a with
  | .ddr => (unitsOf 64 a n).any fun x => s.ddrDown (s.ddrChan x) || s.mem.poison.contains x
  | .rom => false
  | .ctrl => false
  | .reserved => false
  | .stash => (unitsOf 8 a n).any fun x => s.mem.poison.contains x || s.mem.bad.contains x || s.deadBank x
  | r => (unitsOf 8 (physOf r a) n).any fun x => s.mem.poison.contains x || s.mem.bad.contains x

/-- Uncorrectable stash halves that a load finds: counted and logged (R124). -/
def State.noteBad (s : State) (a n : Nat) : State :=
  if s.regionOf a = .stash then
    (unitsOf 8 a n).foldl (fun s x =>
      if s.mem.bad.contains x then
        (((s.bump F.STH_ECC_CNT_0).setReg ⟨.STH_ECC_ADDR, 0, 0⟩ (BitVec.ofNat 32 ((x - stashBase) / 16 * 16))).setFld
          F.STH_STAT_UE 1).raise 165
      else s) s
  else s

/-- TCM copies that differ from the majority are rewritten and counted (R379). -/
def State.fixTcm (s : State) (a n : Nat) : State :=
  if s.regionOf a = .tcm ∧ s.voted then
    (List.range n).foldl (fun s k =>
      let m := s.peek (a + k)
      [0, 0x40000, 0x80000].foldl (fun s d =>
        if cellsGet s.mem.cells (a + k + d) = m then s
        else ({ s with mem := { s.mem with cells := cellsPut s.mem.cells (a + k + d) m } }).bump F.VOT_TCMFIX) s) s
  else s

/-- A load of `n` bytes: the bytes, whether they are poisoned, and the state after. -/
def State.load (s : State) (a n : Nat) : List Byte × Bool × State :=
  (s.peekN a n, s.poisoned a n, (s.noteBad a n).fixTcm a n)

/-! ### Writing -/

/-- Poison marks after a write of [a, a + n), in units of `u` bytes: a unit that is covered is clean, a marked unit that is only
partly written stays poisoned (R124, R132). -/
def poisonAfter (m : Mem) (u a n : Nat) : Mem :=
  (unitsOf u a n).foldl (fun m x =>
    if covers u a n x then { m with poison := setDel m.poison x, bad := setDel m.bad x }
    else if m.bad.contains x then { m with poison := setAdd m.poison x, bad := setDel m.bad x }
    else m) m

/-- The tags of the granules that [a, a + n) touches are cleared (R131, R311). -/
def untag (m : Mem) (a n : Nat) : Mem := { m with tags := (unitsOf 16 a n).foldl setDel m.tags }

/-- Bytes into the cells, at every copy the mode asks for (R378). -/
def State.poke (s : State) (a : Nat) (bs : List Byte) : State :=
  let put := fun (s : State) (x : Nat) => { s with mem := { s.mem with cells := cellsPutAll s.mem.cells x bs } }
  match s.regionOf a with
  | .rom => s
  | .ctrl => s
  | .reserved => s
  | .tcm => if s.voted then put (put (put s a) (a + 0x40000)) (a + 0x80000) else put s a
  | r => put s (physOf r a)

/-- A DDR write enters the write queue of its subchannel, which holds 48; the oldest then drains (R135). -/
def State.ddrPost (s : State) (a : Nat) (plq : Option Poster) : State :=
  let key := s.ddrChan a * 2 + ddrSub a
  let q := s.ddr.wq.get key [] ++ [⟨a / 64 * 64, plq⟩]
  { s with ddr := { s.ddr with wq := s.ddr.wq.set key (q.drop (q.length - 48)) } }

/-- A store of bytes within one region, by a master that may write there. DDR lines of a channel that is down are discarded and
counted (R136). -/
def State.storeBy (s : State) (plq : Option Poster) (a : Nat) (bs : List Byte) : State :=
  let n := bs.length
  match s.regionOf a with
  | .ddr =>
    (unitsOf 64 a n).foldl (fun s x =>
      let lo := max a x
      let hi := min (a + n) (x + 64)
      if s.ddrDown (s.ddrChan x) then s.bump F.DDR_CH_CNT_0 (s.ddrChan x)
      else
        let part := (bs.drop (lo - a)).take (hi - lo)
        let s := s.poke lo part
        ({ s with mem := untag (poisonAfter s.mem 64 lo (hi - lo)) lo (hi - lo) }).ddrPost x plq) s
  | .stash => let s := s.poke a bs; { s with mem := poisonAfter s.mem 8 a n }
  | .tcm => let s := s.poke a bs; { s with mem := untag (poisonAfter s.mem 8 a n) a n }
  | .sram =>
    let s := s.poke a bs
    let p := physOf .sram a
    { s with mem := untag (poisonAfter s.mem 8 p n) p n }
  | _ => s

/-- A store by a master that is no ply queue. -/
def State.store (s : State) (a : Nat) (bs : List Byte) : State := s.storeBy none a bs

/-- The tag of the granule that holds an address: none in the stash and the boot ROM (R113, R311). -/
def State.tagAt (s : State) (a : Nat) : Bool :=
  match s.regionOf a with
  | .tcm => s.mem.tags.contains (a / 16 * 16)
  | .sram => s.mem.tags.contains (physOf .sram a / 16 * 16)
  | .ddr => s.mem.tags.contains (a / 16 * 16)
  | _ => false

/-- A capability store of 16 bytes at an aligned address: the tag follows the region (R113, R131, R311). -/
def State.storeCap (s : State) (a : Nat) (bits : Quad) (tag : Bool) : State :=
  let s := s.store a (leBytes 16 bits.toNat)
  match s.regionOf a with
  | .tcm => if tag then { s with mem := { s.mem with tags := setAdd s.mem.tags a } } else s
  | .sram => if tag then { s with mem := { s.mem with tags := setAdd s.mem.tags (physOf .sram a) } } else s
  | .ddr => if tag && !s.ddrDown (s.ddrChan a) then { s with mem := { s.mem with tags := setAdd s.mem.tags a } } else s
  | _ => s

/-- Whether [a, a + n) meets the protected firmware window, itself or through the remap alias (R401). -/
def State.inFwWindow (s : State) (a n : Nat) : Bool :=
  let base := s.fld F.MTX_FWBASE * 16
  let len := s.fld F.MTX_FWLEN
  let p := physOf (s.regionOf a) a
  decide (0 < len ∧ p < base + len ∧ base < p + n)

/-- A number read from memory, little-endian, without its side effects. -/
def State.peekNat (s : State) (a n : Nat) : Nat := ofLeBytes (s.peekN a n)

end Sys2Proof.Machine
end

