-- ==== Sys2Proof/Machine/Caps.lean ====
section
/-!
DEFINITION. Sys2Proof/Machine/Caps.lean: the capability format, its bounds and the instructions' derivations (R331 to R338), and
handles (R147, R474, R475).
-/
namespace Sys2Proof.Machine

/-- A field [hi:lo] of a capability (R333). -/
def capField (c : CapV) (hi lo : Nat) : Nat := bitsOf c.bits.toNat hi lo

def capAddr (c : CapV) : Nat := capField c 63 0
def capE (c : CapV) : Nat := capField c 69 64
def capP (c : CapV) : Nat := capField c 70 70
def capB (c : CapV) : Nat := capField c 86 71
def capLen (c : CapV) : Nat := capField c 102 87
def capPerms (c : CapV) : Nat := capField c 115 103
def capOtype (c : CapV) : Nat := capField c 127 116

/-- A capability from its fields. -/
def capMk (addr e p base len perms otype : Nat) (tag : Bool) : CapV :=
  ⟨BitVec.ofNat 128 (addr % 2 ^ 64 + e % 64 * 2 ^ 64 + p % 2 * 2 ^ 70 + base % 65536 * 2 ^ 71 + len % 65536 * 2 ^ 87
    + perms % 8192 * 2 ^ 103 + otype % 4096 * 2 ^ 116), tag⟩

/-- The permission bits of R334. -/
def pLoad : Nat := 0
def pStore : Nat := 1
def pExecute : Nat := 2
def pLoadCap : Nat := 3
def pStoreCap : Nat := 4
def pSeal : Nat := 5
def pUnseal : Nat := 6
def pSystem : Nat := 7
def pArm : Nat := 8
def pStream : Nat := 9
def pIngest : Nat := 10
def pKey : Nat := 11
def pIdem : Nat := 12

/-- The window that holds the base (R336). -/
def capBw (c : CapV) : Nat :=
  let w := capE c + 16
  let ah := capAddr c / 2 ^ w
  if ah % 2 = capP c then ah else (ah + 2 ^ (64 - w) - 1) % 2 ^ (64 - w)

/-- Base and top (R336). -/
def capBase (c : CapV) : Nat := capBw c * 2 ^ (capE c + 16) + capB c * 2 ^ capE c
def capTop (c : CapV) : Nat := capBase c + capLen c * 2 ^ capE c

/-- Tagged and unsealed. -/
def capOk (c : CapV) : Bool := c.tag && decide (capOtype c = 0)

/-- Whether a permission is carried; a sealed capability fails every check (R332). -/
def capHas (c : CapV) (p : Nat) : Bool := capOk c && (capPerms c).testBit p

/-- Whether `n` bytes from `a` lie within the bounds. -/
def capCovers (c : CapV) (a n : Nat) : Bool := decide (capBase c ≤ a ∧ a + n ≤ capTop c)

/-- Whether an address is representable (R337). -/
def capRepr (c : CapV) (a : Nat) : Bool :=
  let w := capE c + 16
  let ah := a % 2 ^ 64 / 2 ^ w
  decide (ah = capBw c ∨ ah = (capBw c + 1) % 2 ^ (64 - w))

/-- The address-setting rule (R337). -/
def capSetAddr (c : CapV) (a : Nat) : CapV :=
  ⟨BitVec.ofNat 128 (c.bits.toNat / 2 ^ 64 * 2 ^ 64 + a % 2 ^ 64), capOk c && capRepr c a⟩

/-- The root capability at address 0 with all permissions (R336, R340). -/
def capRoot : CapV := capMk 0 37 0 0 0x8000 0x1FFF 0 true

/-- The untagged zero. -/
def capNull : CapV := ⟨0, false⟩

/-- R338, CSETB: the smallest E from `e` on for which the rounded range spans at most 65,535 granules. -/
def setbE (a top : Nat) : Nat → Nat → Option Nat
  | 0, _ => none
  | fuel + 1, e =>
    if (ceilDiv top (2 ^ e)) - a / 2 ^ e ≤ 65535 then some e else setbE a top fuel (e + 1)

/-- R338: CSETB. -/
def capSetB (c : CapV) (len : Nat) : CapV :=
  let a := capAddr c
  match setbE a (a + len) 38 0 with
  | none => ⟨c.bits, false⟩
  | some e =>
    let lo := a / 2 ^ e * 2 ^ e
    let hi := ceilDiv (a + len) (2 ^ e) * 2 ^ e
    let bw := lo / 2 ^ (e + 16)
    let r := capMk a e (bw % 2) (lo / 2 ^ e % 65536) ((hi - lo) / 2 ^ e) (capPerms c) (capOtype c) true
    { r with tag := capOk c && decide (capBase c ≤ lo ∧ hi ≤ capTop c) }

/-- R338: CANDP, CSEAL, CUNSEAL, CCLRT, CTEST. -/
def capAndP (c : CapV) (m : Nat) : CapV :=
  let r := capMk (capAddr c) (capE c) (capP c) (capB c) (capLen c) (capPerms c &&& (m % 8192)) (capOtype c) true
  { r with tag := capOk c }

def capWithOtype (c : CapV) (t : Nat) (tag : Bool) : CapV :=
  capMk (capAddr c) (capE c) (capP c) (capB c) (capLen c) (capPerms c) t tag

def capSeal (c t : CapV) : CapV :=
  let a := capAddr t
  capWithOtype c a (capOk c && capHas t pSeal && capCovers t a 1 && decide (1 ≤ a ∧ a ≤ 0xFFF))

def capUnseal (c t : CapV) : CapV :=
  capWithOtype c 0 (c.tag && decide (capOtype c ≠ 0) && capHas t pUnseal && decide (capAddr t = capOtype c)
    && capCovers t (capAddr t) 1)

def capTest (a b : CapV) : Bool :=
  a.tag && b.tag && decide (capOtype a = capOtype b) && decide (capBase a ≤ capBase b ∧ capTop b ≤ capTop a)
    && decide (capPerms b &&& capPerms a = capPerms b)

/-- A capability read from memory at an aligned address. -/
def State.peekCap (s : State) (a : Nat) : CapV := ⟨BitVec.ofNat 128 (s.peekNat a 16), s.tagAt a⟩

/-! ### Handles -/

/-- The first poisoned byte address of a range (R543). -/
def State.firstPoison (s : State) (a : Nat) : Nat → Option Nat
  | 0 => none
  | n + 1 => if s.poisoned a 1 then some a else s.firstPoison (a + 1) n

/-- What a handle resolves to for a function (R474, R475, R543). -/
inductive HRes where
  | ok (c : CapV)
  | invalid
  | poison (addr : Nat)
  deriving DecidableEq, Repr

/-- R474: resolve handle `h` for function `fn`; a clean entry read from the table enters the cache (R475). -/
def State.resolveHandle (s : State) (h fn : Nat) : HRes × State :=
  if h = 0 ∨ s.fld F.PCI_HTAB_N ≤ h then (.invalid, s)
  else
    let a := s.pair F.PCI_HTAB_BASE_LO F.PCI_HTAB_BASE_HI + 32 * h
    let judge := fun (c : CapV) (m : Half) =>
      if c.tag && decide (capOtype c = s.fld F.PCI_HOTYPE) && m.toNat.testBit fn then HRes.ok (capWithOtype c 0 true)
      else HRes.invalid
    match s.hcache.find? fun e => e.1 == h with
    | some (_, c, m) => (judge c m, s)
    | none =>
      match s.firstPoison a 32 with
      | some x => (.poison x, s)
      | none =>
        let c := s.peekCap a
        let m : Half := BitVec.ofNat 16 (s.peekNat (a + 16) 2)
        let s' := if s.hcache.length < 256 then { s with hcache := s.hcache ++ [(h, c, m)] } else s
        (judge c m, s')

/-- R147: whether an untagged field names a handle: its bytes 0x02 to 0x0F are zero. -/
def namesHandle (c : CapV) : Bool := !c.tag && decide (c.bits.toNat < 65536)

/-- R147: a field as a capability: tagged and unsealed itself, or by its handle. -/
def State.resolveCap (s : State) (c : CapV) (fn : Nat) : HRes × State :=
  if c.tag then (if capOtype c = 0 then (.ok c, s) else (.invalid, s))
  else if namesHandle c then s.resolveHandle c.bits.toNat fn
  else (.invalid, s)

end Sys2Proof.Machine
end

