-- ==== Sys2Proof/Machine/HostOps.lean ====
section
/-!
DEFINITION. Sys2Proof/Machine/HostOps.lean: which function a resource belongs to, MSI-X vectors (R469, R473) and the rows that
result rings have to handle (R477).
-/
namespace Sys2Proof.Machine

/-- The function that PCI_QFN gives a ply queue. -/
def State.queueFn (s : State) (q : Nat) : Nat :=
  bitsOf (s.reg ⟨.PCI_QFN, q / 8, 0⟩).toNat (4 * (q % 8) + 3) (4 * (q % 8))

/-- The place of a resource among those of its function, in increasing number: the j of R473. -/
def placeOf (fnOf : Nat → Nat) (x : Nat) : Nat := ((List.range x).filter fun y => fnOf y == fnOf x).length

/-- The vectors of a function (R473). -/
def State.vectorCount (s : State) (fn : Nat) : Nat :=
  let mode := s.fld F.PCI_STAT_BIF
  if fn = 0 then (if mode = 0 then 1536 else 512)
  else if fn ≤ 8 then 64
  else if mode = 1 then (if fn = 9 then 1024 else 0)
  else if mode = 2 then 320
  else 0

/-- A word of a function's MSI-X table; the mask bit of a vector is 1 after reset (PRESUMED, notes/assumptions/20.md). -/
def State.msixWord (s : State) (fn w : Nat) : Word := s.host.msix.get (fn * 8192 + w) (if w % 4 = 3 then 1 else 0)

/-- A function holds no PCI Express reset and its vector exists and is not masked. -/
def State.msixOpen (s : State) (fn v : Nat) : Bool :=
  decide ((s.msixWord fn (4 * v + 3)).toNat % 2 = 0)

/-- Signal a vector of a function, or set its pending bit where it is masked (R473). -/
def State.msix (s : State) (fn v : Nat) : State :=
  if s.vectorCount fn ≤ v then s
  else if s.msixOpen fn v then
    s.send (.msix (fn * 2048 + v) (s.msixWord fn (4 * v + 1) ++ s.msixWord fn (4 * v)) (s.msixWord fn (4 * v + 2)))
  else { s with host := { s.host with pba := setAdd s.host.pba (fn * 2048 + v) } }

/-- The interrupt of a completion record (R149). -/
def State.queueIrq (s : State) (q : Nat) : State :=
  if !s.flag F.PLQ_CTRL_IRQEN q then s
  else if s.flag F.PLQ_CTRL_OWNER q then s.msix (s.queueFn q) (2 + placeOf s.queueFn q)
  else s.raise (64 + q)

/-- Row `row` of a queue has ended well: its result rings have it to handle (R477). -/
def State.ringRow (s : State) (q row : Nat) : State :=
  (List.range 16).foldl (fun s r =>
    if s.flag F.PCI_RR_CTRL_EN r && decide (s.fld F.PCI_RR_CTRL_QUEUE r = q) then
      { s with host := { s.host with rows := s.host.rows.upd r [] (· ++ [row]) } }
    else s) s

end Sys2Proof.Machine
end

