-- ==== Sys2Proof/Machine/WebOps.lean ====
section
/-!
DEFINITION. Sys2Proof/Machine/WebOps.lean: position, speed and boundaries of the web, and the output scheduler (02_web_time.md).
-/
namespace Sys2Proof.Machine

/-! ### Encoders -/

def State.enc (s : State) (e : Nat) : Enc := s.web.enc.get e Enc.init
def State.setEnc (s : State) (e : Nat) (x : Enc) : State := { s with web := { s.web with enc := s.web.enc.set e x } }
def State.chan (s : State) (n : Nat) : Chan := s.web.chan.get n Chan.init
def State.setChan (s : State) (n : Nat) (x : Chan) : State := { s with web := { s.web with chan := s.web.chan.set n x } }
def State.out (s : State) (o : Nat) : Out := s.web.out.get o Out.init
def State.setOut (s : State) (o : Nat) (x : Out) : State := { s with web := { s.web with out := s.web.out.set o x } }
def State.cap (s : State) (n : Nat) : List CapRec := s.web.cap.get n []
def State.setCap (s : State) (n : Nat) (x : List CapRec) : State := { s with web := { s.web with cap := s.web.cap.set n x } }

/-- The channel whose boundary source channel `n` uses: its leader's in a lock group (R46), else its own. -/
def State.srcChan (s : State) (n : Nat) : Nat :=
  if s.fld F.TIO_CH_CTRL_LOCKEN n = 1 then s.fld F.TIO_CH_CTRL_LEADER n else n

/-- The boundary source of a channel (R42). -/
def State.bsrc (s : State) (n : Nat) : Nat := s.fld F.TIO_CH_CTRL_BSRC (s.srcChan n)

/-- The encoder of a channel. -/
def State.encOf (s : State) (n : Nat) : Nat := s.fld F.TIO_CH_CTRL_ENC (s.srcChan n)

/-- Whether a channel's web position comes from its encoder (R50). -/
def State.encValid (s : State) (n : Nat) : Bool := s.flag F.TIO_CH_CTRL_ENCVALID n

/-- Whether the last count edge went upstream. -/
def State.upstream (s : State) (e : Nat) : Bool := s.flag F.TIO_ENC_STAT_DIR e

/-- The progress f of R39 at time `now`. -/
def encProgress (x : Enc) (now : Nat) : Nat :=
  match x.edges with
  | t1 :: t2 :: _ => if now ≤ t1 then 0 else min 0xFFFF (65536 * (now - t1) / (t1 - t2))
  | _ => 0

/-- The interpolated position of an encoder in 1/65,536 counts (R39). -/
def State.encPos (s : State) (e : Nat) : Int :=
  let x := s.enc e
  let f := encProgress x s.now
  x.count.toInt * 65536 + if s.upstream e then -(f : Int) else f

/-- Counts and nanoseconds whose quotient is the speed of R40; `none` where no time has passed, so that the speed is open. -/
def State.encSpeed (s : State) (e : Nat) : Option (Nat × Nat) :=
  let now := s.now
  let q := fun (k d : Nat) => if d = 0 then none else some (k, d)
  if s.fld F.TIO_ENC_STAT_STOPPED e = 1 then some (0, 1)
  else match (s.enc e).edges with
  | [] => some (0, 1)
  | t1 :: rest =>
    if s.fld F.TIO_ENC_CTRL_STALL e * 1000 ≤ now - t1 then some (0, 1)
    else match rest with
    | [] => q 1 (now - t1)
    | t2 :: _ =>
      let recent := ((t1 :: rest).filter fun t => decide (now ≤ t + 1000000)).length
      let k := min (min recent 16) rest.length
      if k = 0 then q 1 (max (t1 - t2) (now - t1))
      else q k (t1 - (t1 :: rest).getD k t2)

/-- The speed register in counts per second (R40); an open speed reads as an open value. -/
def State.encCountsPerSec (s : State) (e : Nat) : Nat :=
  match s.encSpeed e with
  | some (k, d) => k * 1000000000 / d % 2 ^ 32
  | none => Config.freeNat s.free % 2 ^ 32

/-- An interpolated position in the 64-bit form of ENCPOS (R39, R51). -/
def encForm (p : Int) : DWord := BitVec.ofInt 64 p

/-! ### Web position -/

/-- CH_OFFSET, signed µm. -/
def State.chOffset (s : State) (n : Nat) : Int := signedOf 64 (s.pair F.TIO_CH_OFFSET_LO F.TIO_CH_OFFSET_HI n)

/-- CH_SCALE, signed pm per count. -/
def State.chScale (s : State) (n : Nat) : Int := signedOf 32 (s.fld F.TIO_CH_SCALE n)

/-- Web position of an encoder position in 1/65,536 counts (R50). -/
def State.webOfPos (s : State) (n : Nat) (p : Int) : Int := s.chOffset n + floorDiv (p * s.chScale n) (65536 * 1000000)

/-- Web position of a row on a channel without an encoder (R50). -/
def State.webOfRow (s : State) (n : Nat) (row : Int) : Int := s.chOffset n + floorDiv (row * s.fld F.TIO_CH_PITCH n) 1000

/-- The web position of a channel now (R50). -/
def State.webNow (s : State) (n : Nat) : Int :=
  if s.encValid n then s.webOfPos n (s.encPos (s.encOf n)) else s.webOfRow n (s.chan n).row.toNat

/-- Whether the formula of R45 gives the boundary positions of a channel. -/
def State.byFormula (s : State) (n : Nat) : Bool := decide (s.bsrc n = 1) && (s.chan n).revHold

/-- The boundary position of a row in 1/65,536 counts; `none` where the log no longer holds it (R45). -/
def State.boundaryPos (s : State) (n : Nat) (row : Nat) : Option Int :=
  let c := s.chan n
  if s.byFormula n then some (c.p0 + ((row : Int) - c.r0.toNat) * s.fld F.TIO_CH_DIV (s.srcChan n))
  else (c.log.find? fun e => e.1 == row).map (·.2)

/-- WEBPOS of a row's boundary (R45, R50). -/
def State.rowWeb (s : State) (n : Nat) (row : Nat) : Option Int :=
  if s.encValid n then (s.boundaryPos n row).map (s.webOfPos n) else some (s.webOfRow n row)

/-- Web speed in signed µm/s (R50); an open speed takes an open value. -/
def State.webSpeed (s : State) (n : Nat) : Int × State :=
  if s.encValid n then
    let e := s.encOf n
    match s.encSpeed e with
    | some (k, d) =>
      let v := floorDiv ((k : Int) * 1000000000 * s.chScale n) (d * 1000000)
      (if s.upstream e then -v else v, s)
    | none => let (x, s) := s.fresh; (x, s)
  else match (s.chan n).interval with
    | some iv => if iv = 0 then (let (x, s) := s.fresh; (x, s)) else ((s.fld F.TIO_CH_PITCH n * 1000000 / iv : Nat), s)
    | none => (0, s)

/-! ### Boundaries -/

/-- Whether a channel belongs to a lock group (R46). -/
def State.locked (s : State) (n : Nat) : Bool := s.flag F.TIO_CH_CTRL_LOCKEN n

/-- The members of the lock group that channel `n` leads, itself included (R46, R47). -/
def State.members (s : State) (n : Nat) : List Nat :=
  (List.range 16).filter fun m => s.locked m && decide (s.fld F.TIO_CH_CTRL_LEADER m = n)

/-- The FLAGS of a marker at its boundary (R52): REVERSE, ENC_ERROR, HOLDOVER, OVERSPEED and LOCKED. -/
def State.boundaryFlags (s : State) (n : Nat) (time : Nat) : Nat :=
  let c := s.chan n
  let usesEnc := s.encValid n || decide (s.bsrc n = 1)
  16 * b2n c.reversed + 32 * b2n (usesEnc && s.flag F.TIO_ENC_STAT_PHASEERR (s.encOf n))
    + 64 * b2n (s.flag F.TBS_STAT_HOLDOVER)
    + 128 * b2n (match c.lastTime with | some t => decide (time < t + 1000) | none => false)
    + 256 * b2n (s.locked n)

/-- The boundary of the next row of channel `n` at a time and encoder position (R41, R42, R44, R45, R50, R51): the row counter
advances by 1, the stitch marker is latched, the position logged where R45 asks for it. -/
def State.boundary (s : State) (n : Nat) (time : Nat) (pos : Int) : State :=
  let c := s.chan n
  let row := c.row + 1
  let c1 := { c with
    row := row
    interval := c.lastTime.map (time - ·)
    log := if s.encValid n && !s.byFormula n then (((row.toNat, pos) :: c.log).take 4096) else c.log }
  let fl := s.boundaryFlags n time
  let s1 := s.setChan n c1
  let (v, s2) := s1.webSpeed n
  let w := if s.encValid n then s.webOfPos n pos else s.webOfRow n row.toNat
  let hasEnc := s.encValid n || decide (s.bsrc n = 1)
  let m : Marker :=
    { row := row, time := BitVec.ofNat 64 time, encpos := if hasEnc then encForm pos else 0, webpos := BitVec.ofInt 64 w
      speed := BitVec.ofInt 32 v, flags := BitVec.ofNat 32 fl, wales := 0, chan := n
      enc := if hasEnc then s.encOf n else 0xFF }
  s2.setChan n { c1 with reversed := false, lastTime := some time, lastWeb := w, marker := some m }

/-- The links that a channel's camera map marks as trigger links (R48). -/
def State.trigLinks (s : State) (n : Nat) : List Nat :=
  (List.range 32).flatMap fun k =>
    if s.fld F.CXP_CAM_CTRL_EN k = 1 ∧ s.fld F.CXP_CAM_CTRL_CHAN k = n then
      (List.range 32).filter fun l => (s.fld F.CXP_CAM_TRIG k).testBit l
    else []

/-- Trigger packets of a boundary of channel `n` (R48, R49). -/
def State.sendTriggers (s : State) (n : Nat) : State :=
  if s.flag F.TIO_CH_CTRL_TRIGEN n && decide (s.bsrc n ≠ 3) then
    (s.trigLinks n).foldl (fun s l => s.send (.trigger n l (s.chan n).row)) s
  else s

/-! ### Pins -/

/-- The level of a safe-level code (R72). -/
def safeLvl : Nat → PinLvl
  | 0 => .low
  | 1 => .high
  | _ => .hiz

/-- Whether an output's state is active (R63). -/
def outActive (x : Out) : Bool := x.setOn || !x.pulses.isEmpty || !x.windows.isEmpty

/-- Whether an output performs its events: armed, and enabled or still in bind-off (R70, R73). -/
def State.outLive (s : State) (o : Nat) : Bool :=
  s.flag F.TIO_ARM_ARMED && (s.flag F.TIO_OUT_CTRL_EN o || (s.out o).bindoff)

/-- The level the output's state calls for (R63, R72). -/
def State.pinTarget (s : State) (o : Nat) : PinLvl :=
  if s.outLive o then
    if (outActive (s.out o) != s.flag F.TIO_OUT_CTRL_POL o) then (if s.flag F.TIO_OUT_CTRL_OD o then .hiz else .high) else .low
  else safeLvl (s.fld F.TIO_OUT_CTRL_SAFE o)

/-- Bring the pin to the level called for, at most one change in any 20 ns (R64). -/
def State.drivePin (s : State) (o : Nat) : State :=
  let x := s.out o
  let held := match x.hold with | some t => decide (s.uptime < t) | none => false
  if held || x.pin == s.pinTarget o then s
  else s.setOut o { x with pin := s.pinTarget o, hold := some (s.uptime + 20) }

/-- LEVEL: the level sensed at the pin, mapped through POL (R63). -/
def State.pinSensed (s : State) (o : Nat) : Bool :=
  let hi := match (s.out o).pin with
    | .low => false
    | .high => true
    | .hiz => Config.pinPull o
  hi != s.flag F.TIO_OUT_CTRL_POL o

/-! ### The output scheduler -/

/-- The outputs' interrupt (R346). -/
def State.raiseOut (s : State) (o : Nat) : State := s.raise (154 + o / 8)

/-- Whether the reference channel's web moves downstream, towards rising web positions (R61). -/
def State.webDownstream (s : State) (n : Nat) : Bool :=
  decide (s.upstream (s.encOf n) = decide (s.chScale n < 0))

/-- The projected due time of a position on a reference channel, as a value of the time base (R59, R60, R61); `none` while the
position does not fall due. -/
def State.project (s : State) (n : Nat) (due : Int) : Option Nat :=
  if s.encValid n then
    let e := s.encOf n
    let sc := s.chScale n
    match (s.enc e).edges, s.encSpeed e with
    | t1 :: _, some (k, d) =>
      if sc = 0 ∨ k = 0 ∨ s.webDownstream n = false then none
      else
        let num := (due - s.chOffset n) * 1000000 - (s.enc e).count.toInt * sc
        if num ≤ 0 then some t1 else some (t1 + ceilDiv (num.toNat * d) (sc.natAbs * k))
    | _, _ => none
  else
    let c := s.chan n
    let p := s.fld F.TIO_CH_PITCH n
    match c.lastTime, c.interval with
    | some t1, some iv =>
      if p = 0 ∨ iv = 0 ∨ t1 + max (2 * iv) 10000000 ≤ s.now then none
      else if due ≤ c.lastWeb then some t1
      else some (t1 + ceilDiv ((due - c.lastWeb).toNat * 1000 * iv) p)
    | _, _ => none

/-- The projected due time of an event of output `o`. -/
def State.dueTime (s : State) (o : Nat) (ev : OutEv) : Option Nat :=
  match ev.kind with
  | .pos => s.project (s.fld F.TIO_OUT_CTRL_CHAN o) ev.due
  | _ => some ev.due.toNat

/-- Whether an event's due point has already passed (R58). -/
def State.evPassed (s : State) (o : Nat) (ev : OutEv) : Bool :=
  match ev.kind with
  | .pos => decide (ev.due ≤ s.webNow (s.fld F.TIO_OUT_CTRL_CHAN o))
  | _ => decide (ev.due ≤ s.now)

/-- Whether an event is at or past its commit horizon: 2 µs before its projected due time (R65). -/
def State.atHorizon (s : State) (o : Nat) (ev : OutEv) : Bool :=
  s.evPassed o ev || match s.dueTime o ev with
    | some t => decide (t ≤ s.now + 2000)
    | none => false

/-- Apply an event's action to an output's state (R63). -/
def State.applyAct (s : State) (o : Nat) (ev : OutEv) : State :=
  let x := s.out o
  let n := s.fld F.TIO_OUT_CTRL_CHAN o
  match ev.act with
  | .set => s.setOut o { x with setOn := true }
  | .clear => s.setOut o { x with setOn := false, pulses := [], windows := [] }
  | .pulse => s.setOut o { x with pulses := x.pulses ++ [s.uptime + ev.arg.toNat] }
  | .window =>
    let start : Int := match ev.kind with
      | .pos => ev.due
      | _ => s.webNow n
    s.setOut o { x with windows := x.windows ++ [start + ev.arg.toNat] }

/-- Perform one event: it leaves its queue and acts (R62, R63). -/
def State.perform (s : State) (o : Nat) (ev : OutEv) : State :=
  let x := s.out o
  (s.setOut o { x with q := x.q.filter fun e => e.seq != ev.seq }).applyAct o ev

/-- What the scheduler did with an event presented to it (R546). -/
inductive Verdict where
  | flushed | stale | refused | dropped | late | extended | full | entered
  deriving DecidableEq, Repr

/-- MOVF is set for these outcomes (R201, R546). -/
def Verdict.movf : Verdict → Bool
  | .refused | .full => true
  | _ => false

/-- R55: the event a ROW event becomes, any other event itself; `none` where resolution fails (R546, order 4). -/
def State.resolveEv (s : State) (o : Nat) (ev : OutEv) : Option OutEv :=
  let n := s.fld F.TIO_OUT_CTRL_CHAN o
  let resolved : Option OutEv := match ev.kind with
    | .row =>
      if s.bsrc n = 1 then
        (s.rowWeb n ev.due.toNat).map fun w =>
          { ev with kind := .pos, due := w + floorDiv (ev.wale.toNat * signedOf 32 (s.fld F.TIO_OUT_SKEW o)) 1000 }
      else if s.bsrc n = 2 then
        let c := s.chan n
        some { ev with kind := .time, due := c.t0 + (ev.due - c.r0.toNat) * s.fld F.TIO_CH_PERIOD (s.srcChan n) }
      else none
    | _ => some ev
  match resolved with
  | some e =>
    if (!s.encValid n) && decide (s.bsrc n = 0) && (e.kind == .pos || e.act == .window) then none else some e
  | none => none

/-- Whether an uninspected WINDOW continues the last queued one (R68). -/
def continues (last ev : OutEv) : Bool :=
  last.src == .unins && ev.src == .unins && last.kind == .pos && ev.kind == .pos
    && decide (last.due + last.arg.toNat = ev.due)

/-- Orders 6 to 9 of R546, for an event that is not tentative at or past its horizon. -/
def State.enterEv (s : State) (o : Nat) (ev : OutEv) : Verdict × State :=
  let x := s.out o
  if s.evPassed o ev then
    let s := (s.bump F.TIO_OUT_CNT_LATE o).raiseOut o
    if s.flag F.TIO_OUT_CTRL_LPOL o then (.late, (s.applyAct o ev).drivePin o) else (.late, s)
  else
    match x.q.getLast? with
    | some last =>
      if continues last ev then
        (.extended, s.setOut o { x with q := x.q.dropLast ++ [{ last with arg := last.arg + ev.arg }] })
      else if 32 ≤ x.q.length then (.full, (s.bump F.TIO_OUT_CNT_FULL o).raiseOut o)
      else (.entered, s.setOut o { x with q := x.q ++ [{ ev with seq := x.seq + 1 }], seq := x.seq + 1 })
    | none => (.entered, s.setOut o { x with q := [{ ev with seq := x.seq + 1 }], seq := x.seq + 1 })

/-- R546: the scheduler checks an event presented to output `o`; `cur` is the current epoch of the ply's queue (R56). -/
def State.present (s : State) (o : Nat) (ev : OutEv) (cur : Half) : Verdict × State :=
  let stale := match ev.src with
    | .ply _ => decide (ev.epoch ≠ cur)
    | _ => false
  if !s.flag F.TIO_ARM_ARMED then (.flushed, s.bump F.TIO_OUT_CNT2_FLUSHED o)
  else if stale then
    (.stale, s.setPair F.BED_STALE_LO F.BED_STALE_HI (s.pair F.BED_STALE_LO F.BED_STALE_HI + 1))
  else if ev.kind == .reserved || !s.flag F.TIO_OUT_CTRL_EN o || (s.out o).bindoff then
    (.refused, s.bump F.TIO_OUT_CNT2_REFUSED o)
  else match s.resolveEv o ev with
    | none => (.refused, s.bump F.TIO_OUT_CNT2_REFUSED o)
    | some ev =>
      if ev.tent && s.atHorizon o ev then
        let x := s.out o
        let fire := s.flag F.TIO_OUT_CTRL_HPOL o
        let s := s.setOut o { x with decided := x.decided ++ [⟨ev.life, fire⟩] }
        if fire then ((s.bump F.TIO_OUT_CNT_HFIRE o).raiseOut o).enterEv o { ev with tent := false }
        else (.dropped, (s.bump F.TIO_OUT_CNT_HDROP o).raiseOut o)
      else s.enterEv o ev

/-- R66: decide a queued event that is still tentative at its commit horizon. -/
def State.decideEv (s : State) (o : Nat) (ev : OutEv) : State :=
  let x := s.out o
  if s.flag F.TIO_OUT_CTRL_HPOL o then
    ((s.setOut o { x with
      q := x.q.map fun e => if e.seq == ev.seq then { e with tent := false } else e
      decided := x.decided ++ [⟨ev.life, true⟩] }).bump F.TIO_OUT_CNT_HFIRE o).raiseOut o
  else
    ((s.setOut o { x with
      q := x.q.filter fun e => e.seq != ev.seq
      decided := x.decided ++ [⟨ev.life, false⟩] }).bump F.TIO_OUT_CNT_HDROP o).raiseOut o

/-- Decide every tentative event of output `o` that is at its horizon (R65, R66). -/
def State.decideAll (s : State) (o : Nat) : State :=
  (s.out o).q.foldl (fun s ev => if ev.tent && s.atHorizon o ev then s.decideEv o ev else s) s

/-- An event is due now (R59, R61, R62). -/
def State.isDue (s : State) (o : Nat) (ev : OutEv) : Bool :=
  match s.dueTime o ev with
  | some t => decide (t ≤ s.now)
  | none => false

/-- Perform, in SEQ order, the committed events of output `o` that are due and of the kind asked for (R62, R63, R64); a tentative
event that is due is first decided (R66). -/
def State.performDue (s : State) (o : Nat) (k : EvKind) : State :=
  let s := s.decideAll o
  ((s.out o).q.foldl (fun s ev => if ev.kind == k && !ev.tent && s.isDue o ev then s.perform o ev else s) s).drivePin o

/-- R59: load the earliest projected edge within the next 64 ns into the output's edge timer. -/
def State.loadEdge (s : State) (o : Nat) : State :=
  let x := s.out o
  let cand := x.q.filterMap fun ev => (s.dueTime o ev).map fun t => (ev.seq, t)
  let best := cand.foldl (fun (b : Option (Word × Nat)) c => match b with
    | none => some c
    | some m => if c.2 < m.2 then some c else b) none
  s.setOut o { x with edge := match best with
    | some (q, t) => if t ≤ s.now + 64 then some (q, t) else none
    | none => none }

/-- Recompute the loaded edges of every output with events queued, as a count edge or a boundary asks (R59, R60). -/
def State.reproject (s : State) : State :=
  s.web.out.foldl (fun s e => if e.2.q.isEmpty then s else (s.loadEdge e.1).decideAll e.1) s

/-- R224, R225 as they reach the scheduler (R66): COMMIT of a lifeline clears TENT on its events, FROG removes them. -/
def State.resolveEvents (s : State) (life : Half) (commit : Bool) : State :=
  s.web.out.foldl (fun s e =>
    let o := e.1
    let x := s.out o
    let late := x.decided.filter fun d => d.life == life
    let s := s.setOut o { x with
      q := if commit then x.q.map fun v => if v.tent && v.life == life then { v with tent := false } else v
           else x.q.filter fun v => !(v.tent && v.life == life)
      decided := x.decided.filter fun d => d.life != life }
    if commit then s.bump F.TIO_OUT_CNT2_DROPCOMMIT o (late.filter fun d => !d.fired).length
    else s.bump F.TIO_OUT_CNT2_FIREFROG o (late.filter fun d => d.fired).length) s

/-- The events of one lifeline pass to another (an inner lifeline's commit, R224). -/
def State.relabelEvents (s : State) (life outer : Half) : State :=
  { s with web := { s.web with out := s.web.out.map fun e => (e.1, { e.2 with
      q := e.2.q.map fun v => if v.tent && v.life == life then { v with life := outer } else v
      decided := e.2.decided.map fun d => if d.life == life then { d with life := outer } else d }) } }

/-- R67: the uninspected WINDOW of a dropped course on output `o`. -/
def State.uninspected (s : State) (o : Nat) (row : Nat) : State :=
  let n := s.fld F.TIO_OUT_CTRL_CHAN o
  let nominal : Option Int :=
    if s.encValid n then
      if s.bsrc n = 1 then some (floorDiv (s.fld F.TIO_CH_DIV (s.srcChan n) * s.chScale n) (65536 * 1000000))
      else match (s.chan n).log with
        | a :: b :: _ => some (s.webOfPos n a.2 - s.webOfPos n b.2)
        | _ => none
    else some ((s.fld F.TIO_CH_PITCH n / 1000 : Nat) : Int)
  let next := if row + 1 ≤ (s.chan n).row.toNat then s.rowWeb n (row + 1) else none
  match s.rowWeb n row with
  | none => if s.flag F.TIO_ARM_ARMED then s.bump F.TIO_OUT_CNT2_REFUSED o else s.bump F.TIO_OUT_CNT2_FLUSHED o
  | some w =>
    let len : Int := match next with
      | some w1 => w1 - w
      | none => nominal.getD 0
    (s.present o ⟨.pos, w + s.fld F.TIO_OUT_STATION o, 0, .window, BitVec.ofInt 32 len, false, 0, 0, 0, .unins⟩ 0).2

/-- R71: ARMED clears, every queue is emptied and counted, every output is inactive and drives its safe level. -/
def State.disarm (s : State) : State :=
  let s1 := s.setFld F.TIO_ARM_ARMED 0
  s1.web.out.foldl (fun s e =>
    let x := s.out e.1
    ((s.bump F.TIO_OUT_CNT2_FLUSHED e.1 x.q.length).setOut e.1
      { x with q := [], setOn := false, pulses := [], windows := [], edge := none }).drivePin e.1) s1

/-- R73: the bind-off of output `o` begins. -/
def State.startOutBindoff (s : State) (o : Nat) : State :=
  let s := s.setFld F.TIO_OUT_CTRL_EN 0 o
  let x := s.out o
  let keep := fun (v : OutEv) => if v.tent then s.flag F.TIO_OUT_CTRL_BOKEEPT o else !s.flag F.TIO_OUT_CTRL_BODROP o
  (s.bump F.TIO_OUT_CNT2_FLUSHED o (x.q.filter fun v => !keep v).length).setOut o
    { x with q := x.q.filter keep, bindoff := true, edge := none }

/-- R73: the end of a bind-off: the output is inactive and drives its safe level. -/
def State.endOutBindoff (s : State) (o : Nat) : State :=
  let x := s.out o
  let s := s.setOut o { x with q := [], setOn := false, pulses := [], windows := [], bindoff := false, edge := none }
  ((s.drivePin o).raiseOut o).finish (0x2400 + o) 2 true

/-- R76: drop the entries in progress that satisfy `p`, counting each in REFUSED. -/
def State.dropEvIn (s : State) (p : EvIn → Bool) : State :=
  let gone := s.web.evin.filter p
  let s := { s with web := { s.web with evin := s.web.evin.filter fun e => !p e } }
  gone.foldl (fun s e => s.bump F.TIO_OUT_CNT2_REFUSED e.out) s

/-- R76: the event of a writer's four words. -/
def evinEvent (w0 lo hi arg : Word) : OutEv :=
  let due64 := hi.toNat * 2 ^ 32 + lo.toNat
  let kind : EvKind := match w0.toNat % 4 with
    | 0 => .pos
    | 1 => .row
    | 2 => .time
    | _ => .reserved
  let act : EvAct := match w0.toNat / 16 % 4 with
    | 0 => .set
    | 1 => .clear
    | 2 => .pulse
    | _ => .window
  { kind := kind, due := if kind == .pos then signedOf 64 due64 else due64, wale := 0, act := act, arg := arg
    tent := false, life := 0, epoch := 0, seq := 0, src := .evin }

/-- R76: one write of a writer to an output's event window. -/
def State.evinWrite (s : State) (o core thr level : Nat) (v : Word) : State :=
  let mine := fun (e : EvIn) => decide (e.out = o ∧ e.core = core ∧ e.thr = thr ∧ e.level = level)
  let old := match s.web.evin.find? mine with
    | some e => e.words
    | none => []
  let rest := s.web.evin.filter fun e => !mine e
  match old with
  | [w0, lo, hi] => ({ s with web := { s.web with evin := rest } }.present o (evinEvent w0 lo hi v) 0).2
  | ws => { s with web := { s.web with evin := rest ++ [⟨o, core, thr, level, ws ++ [v]⟩] } }

end Sys2Proof.Machine
end

