-- ==== Sys2Proof/Machine/IngestOps.lean ====
section
/-!
DEFINITION. Sys2Proof/Machine/IngestOps.lean: ring slots, markers, consumers and release rows (R82, R88 to R93, R101).
-/
namespace Sys2Proof.Machine

def State.ich (s : State) (n : Nat) : IChan := s.ing.chan.get n IChan.init
def State.setIch (s : State) (n : Nat) (x : IChan) : State := { s with ing := { s.ing with chan := s.ing.chan.set n x } }
def State.cam (s : State) (k : Nat) : Cam := s.ing.cam.get k Cam.init
def State.setCam (s : State) (k : Nat) (x : Cam) : State := { s with ing := { s.ing with cam := s.ing.cam.set k x } }

/-- The camera entries of a channel, ascending. -/
def State.camsOf (s : State) (n : Nat) : List Nat :=
  (List.range 32).filter fun k => s.flag F.CXP_CAM_CTRL_EN k && decide (s.fld F.CXP_CAM_CTRL_CHAN k = n)

/-- Bytes per wale of a pixel format (R82); a reserved format counts as one byte. -/
def bpwOf (fmt : Nat) : Nat := [1, 2, 2, 2, 2, 4].getD fmt 1

/-- Bytes per wale of a channel: those of its first camera (R82: all are equal). -/
def State.chBpw (s : State) (n : Nat) : Nat :=
  match s.camsOf n with
  | [] => 1
  | k :: _ => bpwOf (s.fld F.CXP_CAM_CTRL_FMT k)

/-- R88: the slot size. -/
def State.slotSize (s : State) (n : Nat) : Nat := 64 + 64 * ceilDiv (s.fld F.CXP_CH_WALES n * s.chBpw n) 64

/-- R88: the slots that a channel's ring holds. -/
def State.slotsOf (s : State) (n : Nat) : Nat := s.fld F.CXP_CH_RING_SIZE n * 65536 / s.slotSize n

/-- The address of the slot of row `row`. -/
def State.slotAddr (s : State) (n row : Nat) : Nat :=
  stashBase + s.fld F.CXP_CH_RING_BASE n * 65536 + row % max 1 (s.fld F.CXP_CH_NSLOTS n) * s.slotSize n

/-- R51: the 48 bytes of a marker. -/
def markerBytes (m : Marker) : List Byte :=
  leBytes 8 m.row.toNat ++ leBytes 8 m.time.toNat ++ leBytes 8 m.encpos.toNat ++ leBytes 8 m.webpos.toNat
    ++ leBytes 4 m.speed.toNat ++ leBytes 4 m.flags.toNat ++ leBytes 4 m.wales.toNat ++ leBytes 1 m.chan ++ leBytes 1 m.enc
    ++ leBytes 2 0

/-- A marker with its status bit (0 COMPLETE, 1 PARTIAL, 2 DROPPED, 3 SPEC_INGEST), its cause in FLAGS[19:16] and its wales. -/
def sealMarker (m : Marker) (bit cause wales : Nat) : Marker :=
  { m with
    flags := BitVec.ofNat 32 (m.flags.toNat / 16 % 4096 * 16 + 2 ^ bit + cause * 65536)
    wales := BitVec.ofNat 32 wales }

/-- R89: write a slot's marker and its camera masks. -/
def State.writeMarker (s : State) (n : Nat) (m : Marker) (bit cause wales ok bad : Nat) : State :=
  s.store (s.slotAddr n m.row.toNat)
    (markerBytes (sealMarker m bit cause wales) ++ leBytes 4 ok ++ leBytes 4 bad ++ leBytes 8 0)

/-! ### Consumers (R91) -/

def State.consBits (s : State) (n : Nat) : Nat := (s.reg ⟨.CXP_CH_CONS, n, 0⟩).toNat
def State.consEn (s : State) (n k : Nat) : Bool := (s.consBits n).testBit (4 * k + 3)
def State.consKind (s : State) (n k : Nat) : Nat := bitsOf (s.consBits n) (4 * k + 2) (4 * k + 1)
def State.consQueue (s : State) (n k : Nat) : Nat := bitsOf (s.consBits n) (16 + 4 * k + 3) (16 + 4 * k)

/-- The enabled consumers of a channel. -/
def State.consumers (s : State) (n : Nat) : List Nat := (List.range 4).filter fun k => s.consEn n k

/-- Whether queue `q` is enabled and pinned. -/
def State.pinnedOn (s : State) (q : Nat) : Bool := s.flag F.PLQ_CTRL_EN q && s.flag F.PLQ_CTRL_PINEN q

/-- A consumer of kind ply queue. -/
def State.consPly (s : State) (n k : Nat) : Bool := s.consEn n k && decide (s.consKind n k = 0)

/-- Whether queue `q` is a ply-queue consumer of channel `n`. -/
def State.consumes (s : State) (q n : Nat) : Bool :=
  (List.range 4).any fun k => s.consPly n k && decide (s.consQueue n k = q)

/-- The release row of a consumer. -/
def State.relRow (s : State) (n k : Nat) : Nat := s.pair F.CXP_CH_REL_LO F.CXP_CH_REL_HI n k

/-- R92: whether row `row` may use its slot now. -/
def State.maySlot (s : State) (n row : Nat) : Bool :=
  (s.consumers n).all fun k => decide (row < s.relRow n k + s.fld F.CXP_CH_NSLOTS n)

/-- R101: markers of RING_FULL rows whose slot has been released are written. -/
def State.flushWaiting (s : State) (n : Nat) : State :=
  let c := s.ich n
  let go := c.waiting.filter fun m => s.maySlot n m.row.toNat
  let s := s.setIch n { c with waiting := c.waiting.filter fun m => !s.maySlot n m.row.toNat }
  go.foldl (fun s m => s.writeMarker n m 2 1 0 0 0) s

/-- A release row rises; a lower value is ignored (R91). -/
def State.raiseRel (s : State) (n k row : Nat) : State :=
  if row ≤ s.relRow n k then s else (s.setPair F.CXP_CH_REL_LO F.CXP_CH_REL_HI row n k).flushWaiting n

/-- The lowest row from `r` on that is not in the list. -/
def firstNotIn (l : List Nat) : Nat → Nat → Nat
  | 0, r => r
  | fuel + 1, r => if l.contains r then firstNotIn l fuel (r + 1) else r

/-- A ply-queue consumer passes row `row`: its release row is the lowest row that it still needs (R91). -/
def State.passCons (s : State) (n k row : Nat) : State :=
  let c := s.ich n
  let p := setAdd (c.passed.get k []) row
  let r := firstNotIn p (p.length + 1) (s.relRow n k)
  let s := s.setIch n { c with passed := c.passed.set k (p.filter fun x => decide (r ≤ x)) }
  s.raiseRel n k r

/-- Queue `q` passes row `row` on every channel that it consumes. -/
def State.passRow (s : State) (q row : Nat) : State :=
  (List.range 16).foldl (fun s n => (List.range 4).foldl (fun s k =>
    if s.consPly n k && decide (s.consQueue n k = q) then s.passCons n k row else s) s) s

/-- The channels whose ingest releases rows that start instances of queue `q`: its PCHAN. -/
def State.pinChan (s : State) (q : Nat) : Nat := s.fld F.PLQ_CTRL_PCHAN q

/-- R206: the status of row `row` of channel `n` for WROW, `none` while it is neither released nor dropped. A released course
whose CRC is not resolved has no status in R206: an open value. -/
def State.rowStatus (s : State) (n : Nat) (row : Int) : Option (Nat × State) :=
  let c := s.ich n
  let slot := s.slotAddr n row.toNat
  if row < (s.chan n).r0.toNat ∨ (s.chan n).row.toNat < row then none
  else if c.rows.any fun r => decide ((r.row : Int) = row) && !r.rel then none
  else
    let held := s.peekNat slot 8
    let fl := s.peekNat (slot + 0x24) 4
    if row < held ∧ held ≠ 2 ^ 64 - 1 then some (3, s)
    else if held ≠ row.toNat then some (2, s)
    else if fl.testBit 0 then some (0, s)
    else if fl.testBit 1 then some (1, s)
    else if fl.testBit 2 then some (2, s)
    else let (x, s) := s.fresh; some (x % 256, s)

end Sys2Proof.Machine
end

