-- ==== Sys2Proof/Machine/Arith.lean ====
section
/-!
DEFINITION. Sys2Proof/Machine/Arith.lean: integer, packed-decimal and floating-point results and the flags they raise
(08_arithmetic.md, R243 to R275). Values are bit patterns held as naturals; flags are a mask in the order of R168.
-/
namespace Sys2Proof.Machine

/-! ### Sticky flags (R168) -/

def fNV : Nat := 1
def fDZ : Nat := 2
def fOF : Nat := 4
def fUF : Nat := 8
def fNX : Nat := 16
def fV : Nat := 32
def fMOVF : Nat := 64
def fWLOST : Nat := 128

/-- `f` where the condition holds, no flag elsewhere. -/
def flagIf (c : Bool) (f : Nat) : Nat := if c then f else 0

/-! ### Integers (R245 to R251) -/

/-- A bit pattern read as an integer of the type. -/
def toI (sg : Bool) (w v : Nat) : Int := if sg then signedOf w v else (v % 2 ^ w : Nat)

/-- The least and greatest value of an integer type. -/
def minI (sg : Bool) (w : Nat) : Int := if sg then -(2 ^ (w - 1) : Nat) else 0
def maxI (sg : Bool) (w : Nat) : Int := if sg then (2 ^ (w - 1) : Nat) - 1 else (2 ^ w : Nat) - 1

/-- The exact result modulo 2^w (R245). -/
def wrapI (w : Nat) (x : Int) : Nat := (x % (2 ^ w : Nat)).toNat

/-- A wrapping or saturating result, and V where the exact result lies outside the type (R245). -/
def fitI (sat sg : Bool) (w : Nat) (x : Int) : Nat × Nat :=
  if minI sg w ≤ x ∧ x ≤ maxI sg w then (wrapI w x, 0)
  else (wrapI w (if sat then (if x < minI sg w then minI sg w else maxI sg w) else x), fV)

def addI (sat sg : Bool) (w a b : Nat) : Nat × Nat := fitI sat sg w (toI sg w a + toI sg w b)
def subI (sat sg : Bool) (w a b : Nat) : Nat × Nat := fitI sat sg w (toI sg w a - toI sg w b)
def mulI (sat sg : Bool) (w a b : Nat) : Nat × Nat := fitI sat sg w (toI sg w a * toI sg w b)

/-- R246: the high half of the exact product. -/
def mulhI (sg : Bool) (w a b : Nat) : Nat := wrapI w (floorDiv (toI sg w a * toI sg w b) (2 ^ w))

/-- R247: NEG and ABS. -/
def negI (sat sg : Bool) (w a : Nat) : Nat × Nat := fitI sat sg w (-(toI sg w a))
def absI (sat sg : Bool) (w a : Nat) : Nat × Nat := fitI sat sg w ((toI sg w a).natAbs : Int)

/-- R248, R249: the quotient. -/
def divI (sat sg : Bool) (w a b : Nat) : Nat × Nat :=
  if b % 2 ^ w = 0 then
    (if sg then (if 0 ≤ toI sg w a then wrapI w (maxI sg w) else wrapI w (minI sg w)) else 2 ^ w - 1, fDZ)
  else fitI sat sg w (Int.tdiv (toI sg w a) (toI sg w b))

/-- R248, R249: the remainder; MIN / -1 raises V. -/
def remI (sg : Bool) (w a b : Nat) : Nat × Nat :=
  if b % 2 ^ w = 0 then (a % 2 ^ w, fDZ)
  else (wrapI w (Int.tmod (toI sg w a) (toI sg w b)), (fitI false sg w (Int.tdiv (toI sg w a) (toI sg w b))).2)

def minOfI (sg : Bool) (w a b : Nat) : Nat := if toI sg w b < toI sg w a then b % 2 ^ w else a % 2 ^ w
def maxOfI (sg : Bool) (w a b : Nat) : Nat := if toI sg w a < toI sg w b then b % 2 ^ w else a % 2 ^ w

/-- R250: shifts and rotates; the count is the whole unsigned operand. -/
def shlI (w a n : Nat) : Nat := if w ≤ n then 0 else a * 2 ^ n % 2 ^ w
def shrI (w a n : Nat) : Nat := if w ≤ n then 0 else a % 2 ^ w / 2 ^ n
def sarI (w a n : Nat) : Nat := wrapI w (floorDiv (signedOf w a) (2 ^ min n w))
def rolI (w a n : Nat) : Nat := let k := n % w; (a % 2 ^ w * 2 ^ k + a % 2 ^ w / 2 ^ (w - k)) % 2 ^ w
def rorI (w a n : Nat) : Nat := rolI w a (w - n % w)

/-- The number of 1 bits among the low `w`. -/
def popcI : Nat → Nat → Nat
  | 0, _ => 0
  | w + 1, a => a % 2 + popcI w (a / 2)

/-- R251: leading 0 bits; w for 0. -/
def clzI (w a : Nat) : Nat := if a % 2 ^ w = 0 then w else w - 1 - Nat.log2 (a % 2 ^ w)

/-- Complement at a width. -/
def notI (w a : Nat) : Nat := 2 ^ w - 1 - a % 2 ^ w

/-! ### Packed decimal (R254 to R257) -/

/-- Whether an operand holds 15 valid digits and a valid sign (R254). -/
def pdValid (x : Nat) : Bool :=
  (x % 16 == 12 || x % 16 == 13 || x % 16 == 15) && (List.range 15).all fun k => decide (x / 16 ^ (k + 1) % 16 < 10)

/-- The magnitude of the low `n` digits. -/
def pdMag : Nat → Nat → Nat
  | 0, _ => 0
  | n + 1, x => x % 16 + 10 * pdMag n (x / 16)

def pdVal (x : Nat) : Int := if x % 16 = 13 then -(pdMag 15 (x / 16) : Int) else pdMag 15 (x / 16)

/-- The low `n` decimal digits of a magnitude, packed. -/
def pdPack : Nat → Nat → Nat
  | 0, _ => 0
  | n + 1, m => m % 10 + 16 * pdPack n (m / 10)

/-- R256, R257: the stored result, then N, Z and V. -/
def pdResult (x : Int) : Nat × Bool × Bool × Bool :=
  let m := x.natAbs
  let d := pdPack 15 m
  (d * 16 + (if x < 0 then 13 else 12), decide (x < 0), decide (m % 10 ^ 15 = 0), decide (10 ^ 15 ≤ m))

/-! ### Floating-point formats (R258) -/

/-- Precision p, exponent bits and fraction bits. -/
def Fmt_p : Fmt → Nat
  | .fp16 => 11 | .bf16 => 8 | .fp32 => 24 | .fp64 => 53
def Fmt_e : Fmt → Nat
  | .fp16 => 5 | .bf16 => 8 | .fp32 => 8 | .fp64 => 11
def Fmt_w : Fmt → Nat
  | .fp16 => 16 | .bf16 => 16 | .fp32 => 32 | .fp64 => 64
def Fmt_bias (f : Fmt) : Nat := 2 ^ (Fmt_e f - 1) - 1
def Fmt_emin (f : Fmt) : Int := 1 - (Fmt_bias f : Int)

/-- The controls of a floating-point operation (R244, R262). -/
structure FCtl where
  rm : Nat
  ftz : Bool
  daz : Bool
  deriving DecidableEq, Repr

/-- A decoded operand: a NaN keeps its bits, a finite value is (-1)^s × m × 2^e. -/
inductive FVal where
  | nan (bits : Nat)
  | inf (s : Bool)
  | fin (s : Bool) (m : Nat) (e : Int)
  deriving DecidableEq, Repr

def fSign (f : Fmt) (b : Nat) : Bool := b.testBit (Fmt_w f - 1)
def fExp (f : Fmt) (b : Nat) : Nat := b / 2 ^ (Fmt_p f - 1) % 2 ^ Fmt_e f
def fFrac (f : Fmt) (b : Nat) : Nat := b % 2 ^ (Fmt_p f - 1)
def signBit (f : Fmt) (s : Bool) : Nat := if s then 2 ^ (Fmt_w f - 1) else 0
def infBits (f : Fmt) (s : Bool) : Nat := signBit f s + (2 ^ Fmt_e f - 1) * 2 ^ (Fmt_p f - 1)
def maxBits (f : Fmt) (s : Bool) : Nat := infBits f s - 1

/-- R269: the default NaN. -/
def defNaN (f : Fmt) : Nat := infBits f false + 2 ^ (Fmt_p f - 2)

def isNaN (f : Fmt) (b : Nat) : Bool := decide (fExp f b = 2 ^ Fmt_e f - 1 ∧ fFrac f b ≠ 0)
def isSNaN (f : Fmt) (b : Nat) : Bool := isNaN f b && !b.testBit (Fmt_p f - 2)
def quiet (f : Fmt) (b : Nat) : Nat := if b.testBit (Fmt_p f - 2) then b else b + 2 ^ (Fmt_p f - 2)

/-- Whether an encoding is a subnormal number. -/
def isSub (f : Fmt) (b : Nat) : Bool := decide (fExp f b = 0 ∧ fFrac f b ≠ 0)

/-- R266: under DAZ a subnormal operand is read as zero of its sign. -/
def dazBits (c : FCtl) (f : Fmt) (b : Nat) : Nat := if c.daz && isSub f b then signBit f (fSign f b) else b

/-- Decode an operand that an operation reads numerically. -/
def fDecode (c : FCtl) (f : Fmt) (b0 : Nat) : FVal :=
  let b := dazBits c f b0
  if isNaN f b then .nan b
  else if fExp f b = 2 ^ Fmt_e f - 1 then .inf (fSign f b)
  else if fExp f b = 0 then .fin (fSign f b) (fFrac f b) (Fmt_emin f - (Fmt_p f - 1 : Nat))
  else .fin (fSign f b) (fFrac f b + 2 ^ (Fmt_p f - 1)) ((fExp f b : Int) - Fmt_bias f - (Fmt_p f - 1 : Nat))

/-! ### Rounding (R262 to R265) -/

/-- Whether a remainder `r` of 2^d rounds the magnitude up; `odd` is the parity of the kept part. -/
def roundsUp (rm : Nat) (s odd : Bool) (r d : Nat) : Bool :=
  let twice := 2 * r
  match rm with
  | 0 => decide (2 ^ d < twice) || (decide (twice = 2 ^ d) && odd)
  | 1 => false
  | 2 => s && decide (r ≠ 0)
  | 3 => !s && decide (r ≠ 0)
  | _ => decide (2 ^ d ≤ twice)

/-- m × 2^e to a multiple of 2^q: the multiple, and whether it is inexact. -/
def roundAt (rm : Nat) (s : Bool) (m : Nat) (e q : Int) : Nat × Bool :=
  if q ≤ e then (m * 2 ^ (e - q).toNat, false)
  else
    let d := (q - e).toNat
    let n := m / 2 ^ d
    let r := m % 2 ^ d
    (if roundsUp rm s (n % 2 = 1) r d then n + 1 else n, decide (r ≠ 0))

/-- The result of R263 on overflow. -/
def overflowBits (rm : Nat) (f : Fmt) (s : Bool) : Nat :=
  match rm with
  | 1 => maxBits f s
  | 2 => if s then infBits f s else maxBits f s
  | 3 => if s then maxBits f s else infBits f s
  | _ => infBits f s

/-- The exact value (-1)^s × m × 2^e, m > 0, rounded once to the format (R262 to R265). -/
def roundF (c : FCtl) (f : Fmt) (s : Bool) (m : Nat) (e : Int) : Nat × Nat :=
  let p := Fmt_p f
  let ex : Int := e + (Nat.log2 m : Int)
  let qU := ex - (p - 1 : Nat)
  let qMin := Fmt_emin f - (p - 1 : Nat)
  let u := roundAt c.rm s m e qU
  -- rounded as if the exponent range were unbounded: below 2^emin, or above the largest finite value
  let tiny := decide (u.1 < 2 ^ p ∧ ex < Fmt_emin f ∨ u.1 = 2 ^ p ∧ ex + 1 < Fmt_emin f)
  let q := max qU qMin
  let r := roundAt c.rm s m e q
  let top := decide ((Fmt_bias f : Int) < (if u.1 = 2 ^ p then ex + 1 else ex))
  if tiny then
    if c.ftz then (signBit f s, fUF + fNX)
    else (signBit f s + r.1, if r.2 then fUF + fNX else 0)
  else if top then (overflowBits c.rm f s, fOF + fNX)
  else (signBit f s + ((q - qMin).toNat * 2 ^ (p - 1) + r.1), flagIf r.2 fNX)

/-! ### Operations (R259, R267 to R270) -/

/-- NaN operands of an operation, A, B, C in order: the first, quietened, and NV for any signalling one (R270). -/
def nanOf (f : Fmt) (ops : List Nat) : Option (Nat × Nat) :=
  match ops.find? (isNaN f) with
  | some b => some (quiet f b, flagIf (ops.any (isSNaN f)) fNV)
  | none => none

/-- An exact zero sum of signs s1 and s2 (R267). -/
def zeroSum (c : FCtl) (s1 s2 : Bool) : Bool := if s1 = s2 then s1 else decide (c.rm = 2)

/-- The exact sum of two finite values, rounded once. -/
def sumF (c : FCtl) (f : Fmt) (s1 : Bool) (m1 : Nat) (e1 : Int) (s2 : Bool) (m2 : Nat) (e2 : Int) : Nat × Nat :=
  let e := min e1 e2
  let x : Int := (m1 * 2 ^ (e1 - e).toNat : Nat)
  let y : Int := (m2 * 2 ^ (e2 - e).toNat : Nat)
  let t := (if s1 then -x else x) + (if s2 then -y else y)
  if t = 0 then (signBit f (zeroSum c s1 s2), 0) else roundF c f (decide (t < 0)) t.natAbs e

def addF (c : FCtl) (f : Fmt) (a b : Nat) : Nat × Nat :=
  match nanOf f [a, b] with
  | some r => r
  | none => match fDecode c f a, fDecode c f b with
    | .inf s, .inf t => if s = t then (infBits f s, 0) else (defNaN f, fNV)
    | .inf s, _ => (infBits f s, 0)
    | _, .inf t => (infBits f t, 0)
    | .fin s1 m1 e1, .fin s2 m2 e2 => sumF c f s1 m1 e1 s2 m2 e2
    | _, _ => (defNaN f, 0)

/-- The opposite sign; a NaN stays as it is (R270). -/
def negF (f : Fmt) (b : Nat) : Nat := if fSign f b then b - signBit f true else b + signBit f true

def subF (c : FCtl) (f : Fmt) (a b : Nat) : Nat × Nat := addF c f a (if isNaN f b then b else negF f b)

def mulF (c : FCtl) (f : Fmt) (a b : Nat) : Nat × Nat :=
  match nanOf f [a, b] with
  | some r => r
  | none => match fDecode c f a, fDecode c f b with
    | .inf s, .inf t => (infBits f (s != t), 0)
    | .inf s, .fin t m _ => if m = 0 then (defNaN f, fNV) else (infBits f (s != t), 0)
    | .fin s m _, .inf t => if m = 0 then (defNaN f, fNV) else (infBits f (s != t), 0)
    | .fin s1 m1 e1, .fin s2 m2 e2 =>
      if m1 * m2 = 0 then (signBit f (s1 != s2), 0) else roundF c f (s1 != s2) (m1 * m2) (e1 + e2)
    | _, _ => (defNaN f, 0)

/-- A × B + C with one rounding; `negP` negates the product, `negC` the addend (R268). -/
def fmaF (c : FCtl) (f : Fmt) (negP negC : Bool) (a b d : Nat) : Nat × Nat :=
  match nanOf f [a, b, d] with
  | some r => r
  | none =>
    match fDecode c f a, fDecode c f b, fDecode c f d with
    | .fin s1 m1 e1, .fin s2 m2 e2, .fin s3 m3 e3 => sumF c f ((s1 != s2) != negP) (m1 * m2) (e1 + e2) (s3 != negC) m3 e3
    | .fin _ _ _, .fin _ _ _, .inf s3 => (infBits f (s3 != negC), 0)
    | va, vb, vd =>
      let zero := fun (v : FVal) => match v with | .fin _ m _ => decide (m = 0) | _ => false
      let sg := fun (v : FVal) => match v with | .fin s _ _ => s | .inf s => s | .nan _ => false
      if zero va || zero vb then (defNaN f, fNV)
      else
        let ps := (sg va != sg vb) != negP
        match vd with
        | .inf s3 => if (s3 != negC) = ps then (infBits f ps, 0) else (defNaN f, fNV)
        | _ => (infBits f ps, 0)

def divF (c : FCtl) (f : Fmt) (a b : Nat) : Nat × Nat :=
  match nanOf f [a, b] with
  | some r => r
  | none => match fDecode c f a, fDecode c f b with
    | .inf _, .inf _ => (defNaN f, fNV)
    | .inf s, .fin t _ _ => (infBits f (s != t), 0)
    | .fin s _ _, .inf t => (signBit f (s != t), 0)
    | .fin s1 m1 e1, .fin s2 m2 e2 =>
      if m2 = 0 then (if m1 = 0 then (defNaN f, fNV) else (infBits f (s1 != s2), fDZ))
      else if m1 = 0 then (signBit f (s1 != s2), 0)
      else
        let k := Fmt_p f + 3 + Nat.log2 m2
        let n := m1 * 2 ^ k
        roundF c f (s1 != s2) (2 * (n / m2) + b2n (decide (n % m2 ≠ 0))) (e1 - e2 - k - 1)
    | _, _ => (defNaN f, 0)

/-- The integer square root of `n`, found bit by bit from 2^k down. -/
def isqrt : Nat → Nat → Nat → Nat
  | 0, r, n => if (r + 1) * (r + 1) ≤ n then r + 1 else r
  | k + 1, r, n =>
    let t := r + 2 ^ (k + 1)
    isqrt k (if t * t ≤ n then t else r) n

def sqrtF (c : FCtl) (f : Fmt) (a : Nat) : Nat × Nat :=
  match nanOf f [a] with
  | some r => r
  | none => match fDecode c f a with
    | .inf s => if s then (defNaN f, fNV) else (infBits f false, 0)
    | .fin s m e =>
      if m = 0 then (signBit f s, 0)
      else if s then (defNaN f, fNV)
      else
        let k := 2 * (Fmt_p f + 3)
        let (m, e) := if e % 2 = 0 then (m * 2 ^ k, e - k) else (m * 2 ^ (k + 1), e - k - 1)
        let r := isqrt (Nat.log2 m / 2 + 1) 0 m
        roundF c f false (2 * r + b2n (decide (r * r ≠ m))) (e / 2 - 1)
    | .nan b => (b, 0)

/-- R181: how two values compare. -/
inductive FOrd where
  | lt | eq | gt | un
  deriving DecidableEq, Repr

def fVal (v : FVal) (e : Int) : Int :=
  match v with
  | .fin s m x => let n : Int := (m * 2 ^ (x - e).toNat : Nat); if s then -n else n
  | _ => 0

def cmpF (c : FCtl) (f : Fmt) (a b : Nat) : FOrd :=
  match fDecode c f a, fDecode c f b with
  | .nan _, _ => .un
  | _, .nan _ => .un
  | .inf s, .inf t => if s = t then .eq else if s then .lt else .gt
  | .inf s, _ => if s then .lt else .gt
  | _, .inf t => if t then .gt else .lt
  | .fin s m e, .fin t n x =>
    let q := min e x
    let u := fVal (.fin s m e) q
    let v := fVal (.fin t n x) q
    if u < v then .lt else if u = v then .eq else .gt

/-- R179: minimumNumber and maximumNumber; -0 orders below +0. -/
def minmaxF (isMax : Bool) (c : FCtl) (f : Fmt) (a b : Nat) : Nat × Nat :=
  let nv := flagIf (isSNaN f a || isSNaN f b) fNV
  let a' := dazBits c f a
  let b' := dazBits c f b
  if isNaN f a && isNaN f b then (quiet f a, nv)
  else if isNaN f a then (b', nv)
  else if isNaN f b then (a', nv)
  else
    let aLess := match cmpF c f a b with
      | .lt => true
      | .gt => false
      | _ => fSign f a'
    (if aLess != isMax then a' else b', 0)

/-- The raw magnitude with the sign of `s`: ABS and NEG on F types change only the sign bit (R179). -/
def absF (f : Fmt) (a : Nat) : Nat := if fSign f a then a - signBit f true else a

/-! ### Conversions (R271 to R273) -/

/-- Whether every value of `g` is a value of `f` (R182, R265). -/
def widens (g f : Fmt) : Bool :=
  match g, f with
  | .fp16, .fp32 => true
  | .fp16, .fp64 => true
  | .bf16, .fp32 => true
  | .bf16, .fp64 => true
  | .fp32, .fp64 => true
  | x, y => decide (x = y)

/-- convertFormat from `g` to `f`. -/
def cvtFF (c : FCtl) (g f : Fmt) (a : Nat) : Nat × Nat :=
  if isNaN g a then
    let pay := fFrac g (quiet g a)
    let bg := Fmt_p g - 1
    let bf := Fmt_p f - 1
    let pf := if bf ≤ bg then pay / 2 ^ (bg - bf) else pay * 2 ^ (bf - bg)
    (infBits f (fSign g a) + pf, flagIf (isSNaN g a) fNV)
  else match fDecode c g a with
    | .inf s => (infBits f s, 0)
    | .fin s m e =>
      if m = 0 then (signBit f s, 0) else roundF { c with ftz := c.ftz && !widens g f } f s m e
    | .nan b => (b, 0)

/-- convertFromInt (R273). -/
def cvtIF (c : FCtl) (f : Fmt) (x : Int) : Nat × Nat :=
  if x = 0 then (0, 0) else roundF { c with ftz := false } f (decide (x < 0)) x.natAbs 0

/-- convertToInteger (R272). -/
def cvtFI (c : FCtl) (f : Fmt) (sat sg : Bool) (w : Nat) (a : Nat) : Nat × Nat :=
  let out := if sg then wrapI w (minI sg w) else 2 ^ w - 1
  match fDecode c f a with
  | .nan _ => (if sat then 0 else out, fNV)
  | .inf s => (if sat then wrapI w (if s then minI sg w else maxI sg w) else out, fNV)
  | .fin s m e =>
    let r := roundAt c.rm s m e 0
    let x : Int := if s then -(r.1 : Int) else r.1
    if minI sg w ≤ x ∧ x ≤ maxI sg w then (wrapI w x, flagIf r.2 fNX)
    else (if sat then wrapI w (if x < minI sg w then minI sg w else maxI sg w) else out, fNV)

end Sys2Proof.Machine
end

