-- ==== Sys2Proof/Machine/StreamEval.lean ====
section
/-!
DEFINITION. Sys2Proof/Machine/StreamEval.lean: the stream instruction word, element addresses, the division of work, and the value
of one element of an instruction (05_stream_model.md, 06_stream_instructions.md).
-/
namespace Sys2Proof.Machine

/-! ### Types (R156) -/

def tyBytes (t : Nat) : Nat := [1, 1, 2, 2, 4, 4, 8, 8, 2, 2, 4, 8].getD t 1
def tyW (t : Nat) : Nat := if t = 12 then 1 else 8 * tyBytes t
def tyIsI (t : Nat) : Bool := decide (t < 8)
def tyIsF (t : Nat) : Bool := decide (8 ≤ t ∧ t < 12)
def tySigned (t : Nat) : Bool := decide (t < 8 ∧ t % 2 = 1)
def tyFmt (t : Nat) : Fmt :=
  match t with
  | 8 => .fp16
  | 9 => .bf16
  | 10 => .fp32
  | _ => .fp64

/-! ### The instruction word (R169, R170) -/

/-- The fields of a word. -/
def sFields (w : Nat) : SIns :=
  ⟨bitsOf w 7 0, bitsOf w 11 8, bitsOf w 15 12, bitsOf w 21 16, bitsOf w 29 24, bitsOf w 37 32, w.testBit 38, bitsOf w 45 40,
    bitsOf w 53 48, w.testBit 54, w.testBit 55, bitsOf w 63 56, bitsOf w 127 64⟩

/-- What an opcode uses: destination, sources, whether B may be immediate, predicate, and its MOD, AUX and IMM masks. -/
structure SUse where
  dst : Bool
  sa : Bool
  sb : Bool
  sc : Bool
  bimm : Bool
  pred : Bool
  md : Nat
  aux : Nat
  imm : Nat
  deriving DecidableEq, Repr

def allImm : Nat := 2 ^ 64 - 1

/-- The use of each opcode of the map (R177 to R206); `none` for a reserved opcode. -/
def sUse (i : SIns) : Option SUse :=
  let sat := if tyIsI i.ot then 1 else 0
  let e2 := fun (m : Nat) => some (⟨true, true, true, false, true, true, m, 0, 0⟩ : SUse)
  let e1 := fun (m : Nat) => some (⟨true, true, false, false, false, true, m, 0, 0⟩ : SUse)
  let e3 := fun (m : Nat) => some (⟨true, true, true, true, true, true, m, 0, 0⟩ : SUse)
  let ctl := some (⟨false, false, false, false, false, false, 0, 0, 0⟩ : SUse)
  match i.opc with
  | 0x01 => e1 0
  | 0x02 => e1 sat
  | 0x03 => e1 0
  | 0x04 => e1 0
  | 0x05 => some ⟨true, true, true, false, false, true, 0, 0, 0⟩
  | 0x10 => e2 sat
  | 0x11 => e2 sat
  | 0x12 => e2 sat
  | 0x13 => e2 0
  | 0x14 => e3 0
  | 0x15 => e3 0
  | 0x16 => e3 0
  | 0x17 => e2 0
  | 0x18 => e2 0
  | 0x19 => e1 sat
  | 0x1A => e1 sat
  | 0x1B => e2 0
  | 0x1C => e3 1
  | 0x1D => e3 0
  | 0x30 => e2 sat
  | 0x31 => e2 0
  | 0x32 => e1 0
  | 0x40 => e2 0
  | 0x41 => e2 0
  | 0x42 => e2 0
  | 0x43 => e2 0
  | 0x44 => e1 0
  | 0x45 => e2 0
  | 0x46 => e2 0
  | 0x47 => e2 0
  | 0x48 => e2 0
  | 0x49 => e2 0
  | 0x4A => e1 0
  | 0x4B => e1 0
  | 0x50 => e2 7
  | 0x51 => e3 0
  | 0x52 => e3 0
  | 0x60 => e1 0
  | 0x61 => e1 0
  | 0x62 => e1 0
  | 0x63 => e1 0
  | 0x64 => e1 0
  | 0x65 => e1 0
  | 0x66 => e1 0
  | 0x67 => e1 0
  | 0x68 => e1 7
  | 0x6A => some ⟨true, true, false, true, false, true, 1, 0, allImm⟩
  | 0x6B => some ⟨true, true, false, false, false, true, 1, 0, allImm⟩
  | 0x6C => e1 3
  | 0x6D => some ⟨true, true, false, true, false, true, 0, 0, 0xFFFFFFFF⟩
  | 0x70 => some ⟨true, true, true, false, false, true, if tyIsI i.ot then 0xB else 3, 0x1F, 0⟩
  | 0x71 => some ⟨true, true, true, false, false, true, if tyIsI i.ot then 8 else 0, 0x1F, 0⟩
  | 0x78 => some ⟨false, true, false, decide (i.md = 1), false, true, 1, 0, allImm⟩
  | 0x80 => ctl
  | 0x81 => ctl
  | 0x82 => ctl
  | 0x83 => some ⟨false, true, false, false, false, false, 0, 0, 0⟩
  | 0x84 => some ⟨false, true, false, false, false, false, 3, 0x3F, 0⟩
  | 0x85 => some ⟨decide (i.md = 1), decide (i.md = 2), false, false, false, false, 3, 0, if i.md = 0 then 0 else allImm⟩
  | 0x86 => some ⟨true, false, false, false, false, false, 0, 0xF, allImm⟩
  | _ => none

/-- Whether an opcode accepts an operation type (R177, R548). -/
def sTypeOk (i : SIns) : Bool :=
  let I := tyIsI i.ot
  let Fl := tyIsF i.ot
  let M := decide (i.ot = 12)
  match i.opc with
  | 0x01 => decide (i.ot ≤ 12)
  | 0x52 => decide (i.ot ≤ 12)
  | 0x6A => decide (i.ot ≤ 12)
  | 0x6B => decide (i.ot ≤ 12)
  | 0x13 => I
  | 0x14 => Fl
  | 0x15 => Fl
  | 0x16 => Fl
  | 0x1C => decide (i.ot < 2)
  | 0x31 => I
  | 0x32 => Fl
  | 0x40 => I || M
  | 0x41 => I || M
  | 0x42 => I || M
  | 0x43 => I || M
  | 0x44 => I || M
  | 0x45 => I
  | 0x46 => I
  | 0x47 => I
  | 0x48 => I
  | 0x49 => I
  | 0x4A => I
  | 0x4B => I
  | 0x65 => M
  | 0x66 => M
  | 0x67 => decide (i.ot = 4 ∨ i.ot = 6)
  | 0x68 => (I || Fl) && (decide (i.md % 4 ≠ 3) || decide (i.ot = 4))
  | 0x6C => decide (i.ot = 4 ∨ i.ot = 6)
  | 0x6D => M
  | 0x70 => Fl || decide (i.ot = 3 ∨ i.ot = 5)
  | 0x71 => Fl || decide (i.ot = 3 ∨ i.ot = 5)
  | 0x78 => decide (i.ot = if i.md = 1 then 6 else 4)
  | 0x80 => decide (i.ot = 0)
  | 0x81 => decide (i.ot = 0)
  | 0x82 => decide (i.ot = 0)
  | 0x83 => I || M
  | 0x84 => I || M
  | 0x85 => decide (i.ot = if i.md = 0 then 0 else 6)
  | 0x86 => decide (i.ot = 0)
  | _ => I || Fl

/-- R170: whether a word decodes: known opcode, accepted type, no reserved bit, no unused field set. -/
def sDecode (w : Nat) : Option SIns :=
  let i := sFields w
  match sUse i with
  | none => none
  | some u =>
    let reserved := decide (bitsOf w 23 22 = 0 ∧ bitsOf w 31 30 = 0 ∧ w.testBit 39 = false ∧ bitsOf w 47 46 = 0)
    let unused := (u.dst || decide (i.dst = 0)) && (u.sa || decide (i.sa = 0))
      && ((u.sb && !i.bimm) || decide (i.sb = 0)) && ((u.sb && u.bimm) || !i.bimm) && (u.sc || decide (i.sc = 0))
      && ((u.pred && i.pen) || (decide (i.pm = 0) && !i.pinv)) && (u.pred || !i.pen)
      && decide (i.md &&& u.md = i.md) && decide (i.aux &&& u.aux = i.aux)
      && (i.bimm || decide (i.imm &&& u.imm = i.imm))
    let extra : Bool := match i.opc with
      | 0x6A => i.pen && (decide (i.md = 1) || decide (i.imm = 0))
      | 0x6B => i.pen && (decide (i.md = 1) || decide (i.imm = 0))
      | 0x70 => decide (i.md % 4 ≠ 3 ∧ 1 ≤ i.aux)
      | 0x71 => decide (1 ≤ i.aux)
      | 0x78 => decide (bitsOf i.imm 15 15 = 0)
      | 0x85 => decide (i.md ≠ 3)
      | _ => true
    if reserved && unused && extra && sTypeOk i && decide (i.ot ≤ 12) then some i else none

/-! ### Descriptors and element addresses (R153, R154) -/

/-- A descriptor's 64 bytes as a skein, with the capability its CAP field resolved to. -/
def skParse (b : List Byte) (cap : CapV) : Skein :=
  let n := fun (o k : Nat) => ofLeBytes ((b.drop o).take k)
  ⟨cap, signedOf 64 (n 0x10 8), signedOf 64 (n 0x18 8), signedOf 64 (n 0x20 8), n 0x28 4, n 0x2C 4, n 0x30 1, n 0x31 1 % 4,
    (n 0x32 1).testBit 0, n 0x33 1, n 0x34 4, signedOf 32 (n 0x38 4)⟩

/-- Whether a descriptor's reserved bits are 0 and its fields are in range (R153, R156). -/
def skFieldsOk (b : List Byte) : Bool :=
  let n := fun (o k : Nat) => ofLeBytes ((b.drop o).take k)
  let sk := skParse b capNull
  decide (n 0x31 1 < 4 ∧ n 0x32 1 < 2 ∧ n 0x3C 4 = 0 ∧ 1 ≤ sk.nw ∧ 1 ≤ sk.nc ∧ sk.ty ≤ 12)
    && (decide (sk.shape ≠ 0) || decide (sk.nc = 1)) && (decide (sk.shape ≠ 2) || decide (1 ≤ sk.rslots))
    && (decide (sk.ty ≠ 12) || (decide (sk.shape < 2) && decide (sk.wstr = 0)))

def skBase (k : Skein) : Int := (capAddr k.cap : Int) + k.off

/-- The address of the element at course c and wale w of a LINEAR, GRID or RING skein (R154); of its byte for MASK (R156). -/
def skAddrCW (k : Skein) (row0 : Int) (c w : Int) : Int :=
  let step := if k.ty = 12 then w / 8 else w * k.wstr
  match k.shape with
  | 2 => skBase k + Int.fmod (row0 + k.rbias + c) k.rslots * k.cstr + step
  | 1 => skBase k + c * k.cstr + step
  | _ => skBase k + step

def skCount (k : Skein) : Nat := k.nw * k.nc

/-- The index an operand presents for element e: its single element to all (R157). -/
def skIndex (k : Skein) (e : Nat) : Nat := if skCount k = 1 then 0 else e

/-! ### Division over positions (R160, R161) -/

/-- The instruction's shape: its first source where R174 or R157 says so, else its destination. -/
def insShape (p : Inst) (i : SIns) : Skein :=
  let d := p.sk.getD i.dst default
  let a := p.sk.getD i.sa default
  let fromA := decide (0x60 ≤ i.opc ∧ i.opc ≤ 0x67) || decide (i.opc = 0x6C ∨ i.opc = 0x6D ∨ i.opc = 0x78 ∨ i.opc = 0x6A)
  if fromA then a else if 0x80 ≤ i.opc then { d with nw := 1, nc := 1 } else d

/-- Elements of the range of position `pos` for a shape of nw × nc. -/
def rangeLen (split : Bool) (b nw nc pos : Nat) : Nat :=
  if split then
    let q := ceilDiv nw b
    (min nw ((pos + 1) * q) - min nw (pos * q)) * nc
  else
    let q := ceilDiv (nw * nc) b
    min (nw * nc) ((pos + 1) * q) - min (nw * nc) (pos * q)

/-- The k-th element, in its order, of the range of a position. -/
def rangeElem (split : Bool) (b nw nc pos k : Nat) : Nat :=
  if split then
    let q := ceilDiv nw b
    let lo := min nw (pos * q)
    let per := min nw ((pos + 1) * q) - lo
    if per = 0 then nw * nc else k / per * nw + lo + k % per
  else pos * ceilDiv (nw * nc) b + k

/-- The progress register of a position that has committed k elements (R162). -/
def rangeIndex (split : Bool) (b nw nc pos k : Nat) : Nat :=
  let n := rangeLen split b nw nc pos
  if n = 0 then nw * nc
  else if k < n then rangeElem split b nw nc pos k
  else rangeElem split b nw nc pos (n - 1) + 1

/-- The needle that processes element e of position `pos` (R138, R161). -/
def laneOf (split : Bool) (b nw nc pos e : Nat) : Nat :=
  if split then (e % nw - pos * ceilDiv nw b) % 32 else (e - pos * ceilDiv (nw * nc) b) % 32

/-- The position whose range holds element e. -/
def posOf (split : Bool) (b nw nc e : Nat) : Nat :=
  if split then e % nw / max 1 (ceilDiv nw b) else e / max 1 (ceilDiv (nw * nc) b)

/-- The segment of an element: its course, its position, and the part of 65,536 elements of the course within the position's
range (R188). -/
def segOf (split : Bool) (b nw nc e : Nat) : Nat × Nat × Nat :=
  let pos := posOf split b nw nc e
  let c := e / nw
  let lo := if split then c * nw + pos * ceilDiv nw b else max (c * nw) (pos * ceilDiv (nw * nc) b)
  (c, pos, (e - lo) / 65536)

/-- Element e begins an element group of its segment: needle 0 processes it, or a segment begins with it (R161, R188, R190). -/
def groupStart (split : Bool) (b nw nc e : Nat) : Bool :=
  decide (laneOf split b nw nc (posOf split b nw nc e) e = 0) || decide (segOf split b nw nc e ≠ segOf split b nw nc (e - 1))

/-! ### Reading an element -/

/-- What evaluating an element gives: a value with its flags and the lines it loaded, a wait, or a fault at a slot (R183). -/
inductive EV where
  | ok (v flags : Nat) (lines : List Nat)
  | wait
  | fault (cause slot addr flags : Nat)
  deriving DecidableEq, Repr

/-- A byte as the bed at `pos` of an instance sees it: its own held writes over memory (R222). -/
def heldByte (p : Inst) (pos a : Nat) : Option Byte :=
  p.held.foldl (fun b h =>
    if h.lpos = pos ∧ h.addr ≤ a ∧ a < h.addr + h.bytes.length then h.bytes[a - h.addr]? else b) none

/-- Whether [a, a + n) lies in one of the memories that skeins may reach (R155). -/
def State.streamRange (s : State) (a : Int) (n : Nat) : Bool :=
  decide (0 ≤ a) &&
    (decide (stashBase ≤ a.toNat ∧ a.toNat + n ≤ stashBase + 0x8000000)
      || decide (ddrBase ≤ a.toNat ∧ a.toNat + n ≤ s.ddrTop))

/-- Whether a lifeline's scope holds a slot (R217). -/
def lifeCovers (l : Life) (slot : Nat) : Bool :=
  match l.kind with
  | .course => true
  | .ingest => true
  | .life => decide (l.slot < slot)
  | .branch => decide (l.slot < slot)

/-- The open lifelines of an instance whose scope holds a slot, outermost first. -/
def livesOver (p : Inst) (slot : Nat) : List Life := p.lives.filter fun l => lifeCovers l slot

/-- The checks of an element, in the order of R155: the cause of the first that fails. -/
def State.elemCheck (s : State) (k : Skein) (perm : Nat) (a : Int) (n : Nat) : Option Nat :=
  if !capHas k.cap perm || decide (a < 0) || !capCovers k.cap a.toNat n then some 1
  else if a.toNat % n ≠ 0 then some 2
  else if !s.streamRange a n then some 10
  else none

/-- A write held by another position's bed touches [a, a + n): the load waits for its release (R222). -/
def heldElsewhere (p : Inst) (pos a n : Nat) : Bool :=
  p.held.any fun h => decide (h.lpos ≠ pos ∧ h.addr < a + n ∧ a < h.addr + h.bytes.length)

/-- Load one element's n bytes (R151, R155, R220, R222). -/
def State.streamLoad (s : State) (p : Inst) (pos slot : Nat) (k : Skein) (a : Int) (n : Nat) : EV :=
  match s.elemCheck k pLoad a n with
  | some cause => .fault cause slot a.toNat 0
  | none =>
    let a := a.toNat
    if !(livesOver p slot).isEmpty && !(capPerms k.cap).testBit pIdem then .wait
    else if heldElsewhere p pos a n then .wait
    else
      let own := (List.range n).map fun d => heldByte p pos (a + d)
      if s.poisoned a n && own.any (·.isNone) then .fault 3 slot a 0
      else
        let bytes := (List.range n).map fun d => (heldByte p pos (a + d)).getD (s.peek (a + d))
        .ok (ofLeBytes bytes) 0 (unitsOf 64 a n)

/-- The element at (c, w) of a LINEAR, GRID or RING skein. -/
def State.loadCW (s : State) (p : Inst) (pos slot : Nat) (k : Skein) (c w : Int) : EV :=
  let a := skAddrCW k p.row0.toNat c w
  if k.ty = 12 then
    match s.streamLoad p pos slot k a 1 with
    | .ok v f l => .ok (if v.testBit (w.toNat % 8) then 1 else 0) f l
    | r => r
  else s.streamLoad p pos slot k a (tyBytes k.ty)

/-- The element of a skein at index e. -/
def State.loadElem (s : State) (p : Inst) (pos slot : Nat) (k : Skein) (e : Nat) : EV :=
  let e := skIndex k e
  s.loadCW p pos slot k (e / k.nw) (e % k.nw : Nat)

/-- The address of element e of an INDEX skein: base + X[e] × WSTR (R154). -/
def State.indexAddr (s : State) (p : Inst) (pos slot : Nat) (k : Skein) (e : Nat) : EV × Int :=
  let x := p.sk.getD k.idx default
  match s.loadElem p pos slot x e with
  | .ok v f l => (.ok v f l, skBase k + (toI (tySigned x.ty) (tyW x.ty) v) * k.wstr)
  | r => (r, 0)

/-! ### Elementwise results (R177 to R182) -/

/-- The rounding controls of a ply (R167). -/
def plyCtl (p : Inst) : FCtl := ⟨p.entry.opts.toNat % 8, p.entry.opts.toNat.testBit 3, p.entry.opts.toNat.testBit 4⟩

def dzTrap (p : Inst) : Bool := p.entry.opts.toNat.testBit 5

/-- CMP conditions (R181). -/
def cmpCond (c : FCtl) (t md a b : Nat) : Nat × Nat :=
  if tyIsF t then
    let f := tyFmt t
    let o := cmpF c f a b
    let s := isSNaN f a || isSNaN f b
    let nv := flagIf (s || (decide (2 ≤ md ∧ md ≤ 5) && o == .un)) fNV
    (b2n (match md with
      | 0 => o == .eq
      | 1 => o != .eq
      | 2 => o == .lt
      | 3 => o == .lt || o == .eq
      | 4 => o == .gt
      | 5 => o == .gt || o == .eq
      | 6 => o == .un
      | _ => o != .un), nv)
  else
    let x := toI (tySigned t) (tyW t) a
    let y := toI (tySigned t) (tyW t) b
    (b2n (match md with
      | 0 => decide (x = y)
      | 1 => decide (x ≠ y)
      | 2 => decide (x < y)
      | 3 => decide (x ≤ y)
      | 4 => decide (y < x)
      | 5 => decide (y ≤ x)
      | 6 => false
      | _ => true), 0)

/-- Σ of the four byte products of DOT4 and C (R180). -/
def dot4 (sat sg : Bool) (a b c : Nat) : Nat × Nat :=
  let by4 := fun (x k : Nat) => toI sg 8 (x / 256 ^ k % 256)
  fitI sat sg 32 (by4 a 0 * by4 b 0 + by4 a 1 * by4 b 1 + by4 a 2 * by4 b 2 + by4 a 3 * by4 b 3 + toI sg 32 c)

/-- MIN or MAX of either class. -/
def minmax (isMax : Bool) (c : FCtl) (t a b : Nat) : Nat × Nat :=
  if tyIsF t then minmaxF isMax c (tyFmt t) a b
  else (if isMax then maxOfI (tySigned t) (tyW t) a b else minOfI (tySigned t) (tyW t) a b, 0)

/-- CVT from type `g` to type `t` (R182). -/
def cvt (c : FCtl) (sat : Bool) (g t a : Nat) : Nat × Nat :=
  if tyIsF g && tyIsF t then cvtFF c (tyFmt g) (tyFmt t) a
  else if tyIsF g then cvtFI c (tyFmt g) sat (tySigned t) (tyW t) a
  else if tyIsF t then cvtIF c (tyFmt t) (toI (tySigned g) (tyW g) a)
  else fitI sat (tySigned t) (tyW t) (toI (tySigned g) (tyW g) a)

/-- R180, R262: floating-point ABSD, the exact |A - B| rounded once; where A - B is below 0 it is B - A
that is rounded (DEDUCED, notes/assumptions/97.md). -/
def absdF (c : FCtl) (f : Fmt) (a b : Nat) : Nat × Nat :=
  let r := subF c f a b
  if isNaN f r.1 then r
  else if fSign f r.1 then (let q := subF c f b a; (absF f q.1, q.2))
  else r

/-- The result of an elementwise instruction on its operand values, opcodes 0x01 to 0x52 but GATH, SCAT and LUT (R177). -/
def elemOp (c : FCtl) (i : SIns) (tyA a b d : Nat) : Nat × Nat :=
  let t := i.ot
  let w := tyW t
  let sg := tySigned t
  let sat := decide (i.md = 1)
  let f := tyFmt t
  let F? := tyIsF t
  match i.opc with
  | 0x01 => (a, 0)
  | 0x02 => cvt c sat tyA t a
  | 0x10 => if F? then addF c f a b else addI sat sg w a b
  | 0x11 => if F? then subF c f a b else subI sat sg w a b
  | 0x12 => if F? then mulF c f a b else mulI sat sg w a b
  | 0x13 => (mulhI sg w a b, 0)
  | 0x14 => fmaF c f false false a b d
  | 0x15 => fmaF c f false true a b d
  | 0x16 => fmaF c f true false a b d
  | 0x17 => minmax false c t a b
  | 0x18 => minmax true c t a b
  | 0x19 => if F? then (absF f a, 0) else absI sat sg w a
  | 0x1A => if F? then (negF f a, 0) else negI sat sg w a
  | 0x1B =>
    if F? then absdF c f a b
    else (((toI sg w a - toI sg w b).natAbs) % 2 ^ w, 0)
  | 0x1C => dot4 sat sg a b d
  | 0x1D => let m := minmax true c t a b; let r := minmax false c t m.1 d; (r.1, m.2 ||| r.2)
  | 0x30 => if F? then divF c f a b else divI sat sg w a b
  | 0x31 => remI sg w a b
  | 0x32 => sqrtF c f a
  | 0x40 => (a &&& b, 0)
  | 0x41 => (a ||| b, 0)
  | 0x42 => (a ^^^ b, 0)
  | 0x43 => (a &&& notI w b, 0)
  | 0x44 => (notI w a, 0)
  | 0x45 => (shlI w a b, 0)
  | 0x46 => (shrI w a b, 0)
  | 0x47 => (sarI w a b, 0)
  | 0x48 => (rolI w a b, 0)
  | 0x49 => (rorI w a b, 0)
  | 0x4A => (popcI w a, 0)
  | 0x4B => (clzI w a, 0)
  | 0x50 => cmpCond c t i.md a b
  | 0x51 =>
    if F? then
      let nv := flagIf (isNaN f a || isNaN f b || isNaN f d) fNV
      let lo := cmpF c f b a
      let hi := cmpF c f a d
      (b2n ((lo == .lt || lo == .eq) && (hi == .lt || hi == .eq)), nv)
    else (b2n (decide (toI sg w b ≤ toI sg w a ∧ toI sg w a ≤ toI sg w d)), 0)
  | _ => (if d = 0 then b else a, 0)

/-- The identity elements of SCAN and the reductions: "the empty value" of R189. -/
def emptyOf (op t : Nat) : Nat :=
  match op with
  | 1 => if tyIsF t then infBits (tyFmt t) false else wrapI (tyW t) (maxI (tySigned t) (tyW t))
  | 2 => if tyIsF t then infBits (tyFmt t) true else wrapI (tyW t) (minI (tySigned t) (tyW t))
  | _ => 0

/-- One step of a sum, minimum, maximum or count (R190, R192). -/
def combOp (c : FCtl) (op t a b : Nat) : Nat × Nat :=
  match op with
  | 1 => minmax false c t a b
  | 2 => minmax true c t a b
  | _ => if tyIsF t then addF c (tyFmt t) a b else addI false (tySigned t) (tyW t) a b

/-- Combine partial values, "empty op y = y". -/
def combOpt (c : FCtl) (op t : Nat) (x y : Option Nat × Nat) : Option Nat × Nat :=
  match x.1, y.1 with
  | none, _ => (y.1, x.2 ||| y.2)
  | _, none => (x.1, x.2 ||| y.2)
  | some a, some b => let r := combOp c op t a b; (some r.1, x.2 ||| y.2 ||| r.2)

/-- The in-group prefix of R192: x[j] := x[j - d] op x[j] for d = 1, 2, 4, 8, 16. -/
def groupPrefix (c : FCtl) (op t : Nat) (xs : List (Option Nat × Nat)) : List (Option Nat × Nat) :=
  [1, 2, 4, 8, 16].foldl (fun xs d => (List.range xs.length).map fun j =>
    let x := xs.getD j (none, 0)
    if d ≤ j then combOpt c op t (xs.getD (j - d) (none, 0)) x else x) xs

/-- SCAN over a course (R192): `xs` lists its elements in order, each with whether it begins a group (R190, R191) and its active value; the last is element e. Within
each group the prefix is formed first, then the carry is applied on its left; an exclusive scan forms the same partial values, with
their flags (DEDUCED, notes/assumptions/97.md). -/
def scanFold (c : FCtl) (op t : Nat) (excl : Bool) : List (Bool × Option Nat) → List (Option Nat × Nat) → Option Nat × Nat →
    Option Nat × Nat
  | [], grp, carry =>
    let pre := groupPrefix c op t grp
    let incl := combOpt c op t carry (pre.getD (grp.length - 1) (none, 0))
    if excl then
      let r := if grp.length ≤ 1 then carry else combOpt c op t carry (pre.getD (grp.length - 2) (none, 0))
      (r.1, r.2 ||| incl.2)
    else incl
  | (start, v) :: rest, grp, carry =>
    if start && !grp.isEmpty then
      let pre := groupPrefix c op t grp
      scanFold c op t excl rest [(v, 0)] (combOpt c op t carry (pre.getD (grp.length - 1) (none, 0)))
    else scanFold c op t excl rest (grp ++ [(v, 0)]) carry

/-- The elements that slot `slot` has processed, at every position (R188). -/
def combElems (p : Inst) (slot : Nat) : List CElem :=
  p.comb.flatMap fun e => if e.1 / 128 = slot then e.2 else []

/-- Evaluate several elements in order; the first wait or fault decides. -/
def evalAll (f : Nat → EV) : List Nat → Except EV (List Nat × Nat × List Nat)
  | [] => .ok ([], 0, [])
  | e :: t =>
    match f e with
    | .ok v fl l =>
      match evalAll f t with
      | .ok (vs, fs, ls) => .ok (v :: vs, fl ||| fs, l ++ ls)
      | .error r => .error r
    | r => .error r

/-- The wale a convolution reads for an index outside the course (R196); `none` reads 0. -/
def edgeWale (mode nw : Nat) (w : Int) : Option Nat :=
  if 0 ≤ w ∧ w < nw then some w.toNat
  else match mode with
    | 0 => some (if w < 0 then 0 else nw - 1)
    | 1 => none
    | _ => let m := (Int.fmod w (2 * nw : Nat)).toNat; some (if m < nw then m else 2 * nw - 1 - m)

/-- Σ of the taps of a convolution: fused multiply-adds in increasing t for F types, an exact sum for I types (R198). -/
def convSum (c : FCtl) (sat : Bool) (t tyA : Nat) (data kern : List Nat) : Nat × Nat :=
  if tyIsF t then
    let f := tyFmt t
    let conv := fun (x : Nat) => if tyIsF tyA then x else (cvtIF c f (x : Int)).1
    let taps := (data.map conv).zip kern
    match taps with
    | [] => (0, 0)
    | (x, k) :: rest => rest.foldl (fun (acc : Nat × Nat) y =>
        let r := fmaF c f false false y.1 y.2 acc.1
        (r.1, acc.2 ||| r.2)) (mulF c f x k)
  else
    let sg := tySigned t
    let w := tyW t
    fitI sat sg w ((data.zip kern).foldl (fun (x : Int) y => x + toI sg w y.1 * toI sg w y.2) 0)

/-- The value of element e of slot `slot`'s result, or of its source where it only combines. Structural on `fuel`, which need not
exceed the number of slots of a chain. -/
def State.evalSlot (s : State) (p : Inst) (pos : Nat) : Nat → Nat → Nat → EV
  | 0, _, _ => .wait
  | fuel + 1, slot, e =>
    let i := p.prog.getD slot default
    let c := plyCtl p
    let src := fun (r : Nat) (x : Nat) =>
      let k := p.sk.getD r default
      if k.chain then s.evalSlot p pos fuel (slot - 1) (skIndex k x)
      else if k.shape = 3 then
        match s.indexAddr p pos slot k x with
        | (.ok _ _ l, a) =>
          match s.streamLoad p pos slot k a (tyBytes k.ty) with
          | .ok v f l' => .ok v f (l ++ l')
          | r => r
        | (r, _) => r
      else s.loadElem p pos slot k x
    let active : EV := if i.pen then
        match src i.pm e with
        | .ok v f l => .ok (if i.pinv then 1 - v else v) f l
        | r => r
      else .ok 1 0 []
    match active with
    | .ok m f0 l0 =>
      let activeNow := decide (m ≠ 0)
      if !activeNow && decide (i.opc ≠ 0x68) then .ok 0 f0 l0 else
      let ka := p.sk.getD i.sa default
      match i.opc with
      | 0x05 =>
        match src i.sa e with
        | .ok a f l =>
          let kb := p.sk.getD i.sb default
          let x := if kb.nw ≤ a then kb.nw - 1 else a
          match s.loadCW p pos slot kb 0 x with
          | .ok v f' l' => .ok v (f0 ||| f ||| f' ||| flagIf (decide (kb.nw ≤ a)) fV) (l0 ++ l ++ l')
          | r => r
        | r => r
      | 0x68 =>
        -- SCAN: the elements of the course before e stand in the combine store or the bed
        let d := p.sk.getD i.dst default
        let first := e / d.nw * d.nw
        let prior := sortBy CElem.elem ((combElems p slot).filter fun x => decide (first ≤ x.elem ∧ x.elem < e))
        if prior.length < e - first then .wait
        else
          match (if activeNow then src i.sa e else EV.ok 0 0 []) with
          | .ok v f2 l2 =>
            let op := i.md % 4
            let start := groupStart p.split p.b d.nw d.nc
            let xs := prior.map (fun x => (start x.elem, x.val)) ++ [(start e, if activeNow then some v else none)]
            let r := scanFold c op i.ot (decide (4 ≤ i.md)) xs [] (none, 0)
            .ok (r.1.getD (emptyOf op i.ot)) (f0 ||| f2 ||| r.2) (l0 ++ l2)
          | r => r
      | 0x6B =>
        -- EXPD: the element of A whose number is the count of active elements before e in the course
        let d := p.sk.getD i.dst default
        let first := e / d.nw * d.nw
        let prior := (combElems p slot).filter fun x => decide (first ≤ x.elem ∧ x.elem < e)
        if prior.length < e - first then .wait
        else
          match src i.sa (first + (prior.filter fun x => x.val.isSome).length) with
          | .ok v f l => .ok v (f0 ||| f) (l0 ++ l)
          | r => r
      | 0x70 =>
        let d := p.sk.getD i.dst default
        let course := e / d.nw
        let taps := List.range i.aux
        let rd := fun (t : Nat) => match edgeWale (i.md % 4) d.nw ((e % d.nw + t : Nat) - (i.aux / 2 : Nat)) with
          | some w => if skCount ka = 1 then s.loadCW p pos slot ka 0 0 else s.loadCW p pos slot ka course w
          | none => .ok 0 0 []
        match evalAll rd taps, evalAll (fun t => s.loadCW p pos slot (p.sk.getD i.sb default) 0 t) taps with
        | .ok (xs, _, l1), .ok (ks, _, l2) =>
          let r := convSum c (i.md.testBit 3) i.ot ka.ty xs ks
          .ok r.1 (f0 ||| r.2) (l0 ++ l1 ++ l2)
        | .error r, _ => r
        | _, .error r => r
      | 0x71 =>
        let d := p.sk.getD i.dst default
        let taps := List.range i.aux
        let rd := fun (t : Nat) =>
          let cc : Int := (e / d.nw + t : Nat) - (i.aux - 1 : Nat)
          if ka.shape = 2 ∧ !ka.chain then s.loadCW p pos slot ka cc (e % d.nw : Nat)
          else src i.sa (if cc < 0 then e % d.nw else cc.toNat * d.nw + e % d.nw)
        match evalAll rd taps, evalAll (fun t => s.loadCW p pos slot (p.sk.getD i.sb default) 0 t) taps with
        | .ok (xs, _, l1), .ok (ks, _, l2) =>
          let r := convSum c (i.md.testBit 3) i.ot ka.ty xs ks
          .ok r.1 (f0 ||| r.2) (l0 ++ l1 ++ l2)
        | .error r, _ => r
        | _, .error r => r
      | _ =>
        match src i.sa e with
        | .ok a fa la =>
          if i.opc = 0x03 ∨ i.opc = 0x04 ∨ 0x60 ≤ i.opc then .ok a (f0 ||| fa) (l0 ++ la)
          else
            let useB := match sUse i with | some u => u.sb | none => false
            let useC := match sUse i with | some u => u.sc | none => false
            let tyB := if i.opc = 0x1C then 4 else i.ot
            match (if !useB then EV.ok 0 0 [] else if i.bimm then .ok (i.imm % 2 ^ tyW tyB) 0 [] else src i.sb e) with
            | .ok b fb lb =>
              match (if useC then src i.sc e else EV.ok 0 0 []) with
              | .ok d fc lc =>
                if tyIsI i.ot && decide (i.opc = 0x30 ∨ i.opc = 0x31) && decide (b = 0) && dzTrap p then .fault 4 slot 0 fDZ
                else
                  let r := elemOp c i ka.ty a b d
                  .ok r.1 (f0 ||| fa ||| fb ||| fc ||| r.2) (l0 ++ la ++ lb ++ lc)
              | r => r
            | r => r
        | r => r
    | r => r

/-- The value of operand register `r` of a slot at element e. -/
def State.evalReg (s : State) (p : Inst) (pos slot r e : Nat) : EV :=
  let k := p.sk.getD r default
  if k.chain then s.evalSlot p pos 32 (slot - 1) (skIndex k e)
  else if k.shape = 3 then
    match s.indexAddr p pos slot k e with
    | (.ok _ _ l, a) =>
      match s.streamLoad p pos slot k a (tyBytes k.ty) with
      | .ok v f l' => .ok v f (l ++ l')
      | r => r
    | (r, _) => r
  else s.loadElem p pos slot k e

/-- Whether element e of a slot is active (R173). -/
def State.activeAt (s : State) (p : Inst) (pos slot e : Nat) : EV :=
  let i := p.prog.getD slot default
  if i.pen then
    match s.evalReg p pos slot i.pm e with
    | .ok v f l => .ok (if i.pinv then 1 - v else v) f l
    | r => r
  else .ok 1 0 []

/-- Element e of a slot as a combining instruction takes it: its source A where it is active. -/
def State.evalComb (s : State) (p : Inst) (pos slot e : Nat) : Except EV (CElem × Nat × List Nat) :=
  match s.activeAt p pos slot e with
  | .ok 0 f l => .ok (⟨e, none⟩, f, l)
  | .ok _ f l =>
    match s.evalReg p pos slot (p.prog.getD slot default).sa e with
    | .ok v f' l' => .ok (⟨e, some v⟩, f ||| f', l ++ l')
    | r => .error r
  | r => .error r

end Sys2Proof.Machine
end

