-- ==== Sys2Proof/Machine/Admit.lean ====
section
/-!
DEFINITION. Sys2Proof/Machine/Admit.lean: bed sets, the submission entry and admission (R141, R146 to R148, R155 to R157, R170,
R171, R174, R203, R204, R210, R219, R388, R543, R548).
-/
namespace Sys2Proof.Machine

def State.plq (s : State) (q : Nat) : Plq := s.ply.q.get q Plq.init
def State.setPlq (s : State) (q : Nat) (x : Plq) : State := { s with ply := { s.ply with q := s.ply.q.set q x } }
def State.bset (s : State) (n : Nat) : BSet := s.ply.set.get n BSet.init
def State.setBset (s : State) (n : Nat) (x : BSet) : State := { s with ply := { s.ply with set := s.ply.set.set n x } }
def State.bed (s : State) (b : Nat) : Bed := s.ply.bed.get b Bed.init
def State.setBed (s : State) (b : Nat) (x : Bed) : State := { s with ply := { s.ply with bed := s.ply.bed.set b x } }

/-- The beds that hold a logical position of a set (R140). -/
def State.setBeds (s : State) (n : Nat) : List Nat :=
  (List.range 136).filter fun b =>
    s.flag F.BED_CTRL_EN b && !s.flag F.BED_CTRL_STANDBY b && decide (s.fld F.BED_CTRL_SET b = n)

/-- The bed at logical position `pos` of a set; where it has none, a remaining bed of the set runs the position (R163). -/
def State.bedAt (s : State) (n pos : Nat) : Option Nat :=
  let bs := s.setBeds n
  match bs.find? fun b => s.fld F.BED_CTRL_LPOS b == pos with
  | some b => some b
  | none => bs.head?

/-- The bed set that a queue is bound to (R141). -/
def State.setOf (s : State) (q : Nat) : Option Nat :=
  if s.flag F.PLQ_BIND_BOUND q then some (s.fld F.PLQ_BIND_SET q) else none

/-- The queues bound to a set. -/
def State.queuesOf (s : State) (n : Nat) : List Nat :=
  (List.range 64).filter fun q => s.setOf q == some n

/-! ### The submission entry (R146) -/

/-- An entry from the 16 words of a window and its tags. -/
def entryOf (w : KV Nat Word) (tags : Bool × Bool) : Entry :=
  let n := fun (o : Nat) => (w.get o 0).toNat
  let quad := fun (o : Nat) => n o + n (o + 4) * 2 ^ 32 + n (o + 8) * 2 ^ 64 + n (o + 12) * 2 ^ 96
  ⟨⟨BitVec.ofNat 128 (quad 0), tags.1⟩, ⟨BitVec.ofNat 128 (quad 0x10), tags.2⟩, BitVec.ofNat 64 (n 0x20 + n 0x24 * 2 ^ 32),
    BitVec.ofNat 64 (n 0x28 + n 0x2C * 2 ^ 32), BitVec.ofNat 32 (n 0x30), BitVec.ofNat 32 (n 0x34), n 0x38 % 256,
    n 0x38 / 256 % 256⟩

def optChecked (e : Entry) : Bool := e.opts.toNat.testBit 6
def optSplit (e : Entry) : Bool := e.opts.toNat.testBit 7
def optRaCourse (e : Entry) : Bool := e.opts.toNat.testBit 8
def optRaBranch (e : Entry) : Bool := e.opts.toNat.testBit 9

/-! ### Operands of an instruction -/

/-- The part that a skein register plays in an instruction. -/
inductive Role where
  | dst | a | b | c | pm
  deriving DecidableEq, Repr

/-- The registers that a word names, with their parts. -/
def rolesOf (i : SIns) : List (Role × Nat) :=
  match sUse i with
  | none => []
  | some u =>
    (if u.dst then [(Role.dst, i.dst)] else []) ++ (if u.sa then [(Role.a, i.sa)] else [])
      ++ (if u.sb && !i.bimm then [(Role.b, i.sb)] else []) ++ (if u.sc then [(Role.c, i.sc)] else [])
      ++ (if u.pred && i.pen then [(Role.pm, i.pm)] else [])

/-- The extent of a skein: its lowest element byte and the byte above its highest (R155). -/
def skExtent (k : Skein) : Int × Int :=
  if k.shape = 3 then (capBase k.cap, capTop k.cap)
  else
    let w : Int := if k.ty = 12 then ((k.nw - 1) / 8 : Nat) else (k.nw - 1 : Nat) * k.wstr
    let c : Int := match k.shape with
      | 2 => (k.rslots - 1 : Nat) * k.cstr
      | 1 => (k.nc - 1 : Nat) * k.cstr
      | _ => 0
    (skBase k + min 0 w + min 0 c, skBase k + max 0 w + max 0 c + tyBytes (if k.ty = 12 then 0 else k.ty))

/-- R155: the extent of a skein carries the permission, lies within CAP's bounds and in one of the memories. -/
def State.extentOk (s : State) (k : Skein) (perm : Nat) : Bool :=
  if k.shape = 3 then capHas k.cap perm
  else
    let (lo, hi) := skExtent k
    capHas k.cap perm && decide (0 ≤ lo) && capCovers k.cap lo.toNat (hi - lo).toNat && s.streamRange lo (hi - lo).toNat

/-- The permissions that an instruction needs of a skein in a part (R155, R194). -/
def permsFor (i : SIns) (r : Role) : List Nat :=
  match r with
  | .dst => if i.opc = 0x6C ∧ i.md.testBit 1 then [pStore, pLoad] else [pStore]
  | .c => if i.opc = 0x6A ∨ i.opc = 0x6D then [pStore] else [pLoad]
  | _ => [pLoad]

/-- Whether a type converts exactly to another: R189's rule for RSUM. -/
def convertsExactly (g t : Nat) : Bool :=
  if g = t then true
  else if tyIsI g && tyIsI t then
    (tySigned g == tySigned t && decide (tyW g ≤ tyW t)) || (!tySigned g && tySigned t && decide (tyW g < tyW t))
  else if tyIsI g && tyIsF t then
    let bits := if tySigned g then tyW g - 1 else tyW g
    decide (bits ≤ (match t with | 8 => 11 | 9 => 8 | 10 => 24 | _ => 53))
  else if tyIsF g && tyIsF t then
    match g, t with
    | 8, 10 => true
    | 9, 10 => true
    | 8, 11 => true
    | 9, 11 => true
    | 10, 11 => true
    | _, _ => false
  else false

/-- R171, R548: the types of an instruction's skeins. -/
def typesOk (i : SIns) (sk : List Skein) : Bool :=
  let ty := fun (r : Nat) => (sk.getD r default).ty
  let D := ty i.dst
  let A := ty i.sa
  let B := ty i.sb
  let C := ty i.sc
  let usesB := (rolesOf i).any fun x => x.1 == .b
  let usesC := (rolesOf i).any fun x => x.1 == .c
  let mask := !i.pen || decide (ty i.pm = 12)
  let small := fun (t : Nat) => decide (t = 0 ∨ t = 2 ∨ t = 4)
  let uns := fun (t : Nat) => decide (t = 4 ∨ t = 6)
  mask && (match i.opc with
    | 0x02 => decide (D = i.ot) && decide (A ≠ 12)
    | 0x03 => decide (D = i.ot ∧ A = i.ot)
    | 0x04 => decide (D = i.ot ∧ A = i.ot)
    | 0x05 => decide (D = i.ot ∧ B = i.ot) && small A
    | 0x1B => decide (A = i.ot) && (!usesB || decide (B = i.ot)) && decide (D = if tyIsI i.ot then i.ot / 2 * 2 else i.ot)
    | 0x1C => decide (A = 4) && (!usesB || decide (B = 4)) && decide (C = 4 + i.ot ∧ D = 4 + i.ot)
    | 0x50 => decide (A = i.ot) && (!usesB || decide (B = i.ot)) && decide (D = 12)
    | 0x51 => decide (A = i.ot) && (!usesB || decide (B = i.ot)) && decide (C = i.ot ∧ D = 12)
    | 0x52 => decide (A = i.ot) && (!usesB || decide (B = i.ot)) && decide (C = 12 ∧ D = i.ot)
    | 0x60 => decide (D = i.ot) && convertsExactly A i.ot
    | 0x63 => decide (A = i.ot) && uns D
    | 0x64 => decide (A = i.ot) && uns D
    | 0x65 => decide (A = i.ot) && decide (D = 12 ∨ D = 0)
    | 0x66 => decide (A = i.ot) && decide (D = 12 ∨ D = 0)
    | 0x67 => decide (D = i.ot ∧ A = 12)
    | 0x68 => decide (D = i.ot) && (if i.md % 4 = 3 then decide (A = 12) else decide (A = i.ot))
    | 0x6A => decide (A = i.ot ∧ D = i.ot ∧ C = 4)
    | 0x6B => decide (A = i.ot ∧ D = i.ot)
    | 0x6C => decide (D = i.ot) && small A
    | 0x6D => decide (A = i.ot ∧ D = 6 ∧ C = 4)
    | 0x70 => decide (D = i.ot ∧ B = i.ot) && (decide (A = i.ot) || (decide (i.ot = 10) && decide (A = 0 ∨ A = 2)))
    | 0x71 => decide (D = i.ot ∧ B = i.ot) && (decide (A = i.ot) || (decide (i.ot = 10) && decide (A = 0 ∨ A = 2)))
    | 0x78 => decide (A = i.ot) && (!usesC || decide (C = 4))
    | 0x83 => decide (A = i.ot)
    | 0x84 => decide (A = i.ot)
    | 0x85 => (decide (i.md ≠ 1) || decide (D = 6)) && (decide (i.md ≠ 2) || decide (A = 6))
    | 0x86 => decide (D = 0)
    | _ => (rolesOf i).all fun x => x.1 == .pm || decide (ty x.2 = i.ot))

/-- R157, R174: the element counts of an instruction agree. -/
def countsOk (i : SIns) (sk : List Skein) : Bool :=
  let k := fun (r : Nat) => sk.getD r default
  let A := k i.sa
  let D := k i.dst
  let C := k i.sc
  let lin := fun (x : Skein) => decide (x.shape = 0 ∧ x.nc = 1)
  let fromA := decide (0x60 ≤ i.opc ∧ i.opc ≤ 0x67) || decide (i.opc = 0x6A ∨ i.opc = 0x6C ∨ i.opc = 0x6D ∨ i.opc = 0x78)
  let S := if fromA then A else D
  let fits := fun (x : Skein) => decide ((x.nw = S.nw ∧ x.nc = S.nc) ∨ (x.nw = 1 ∧ x.nc = 1))
  let pmOk := !i.pen || decide ((k i.pm).nw = S.nw ∧ (k i.pm).nc = S.nc)
  let big := decide (S.nw * S.nc ≤ 2 ^ 32)
  if 0x80 ≤ i.opc then (rolesOf i).all fun x => decide ((k x.2).nw = 1 ∧ (k x.2).nc = 1)
  else big && pmOk && (match i.opc with
    | 0x05 => fits A && lin (k i.sb) && decide ((k i.sb).nw ≤ 65536)
    | 0x6A => fits D && decide (C.nw = 1 ∧ C.nc = A.nc)
    | 0x6C => lin D && decide (D.nw ≤ 4096)
    | 0x6D => decide (D.nc = A.nc ∧ C.nw = 1 ∧ C.nc = A.nc)
    | 0x70 => fits A && lin (k i.sb) && decide ((k i.sb).nw = i.aux)
    | 0x71 => fits A && lin (k i.sb) && decide ((k i.sb).nw = i.aux)
    | 0x78 => decide (i.md ≠ 1) || decide (C.nw = 1 ∧ C.nc = A.nc)
    | _ =>
      if 0x60 ≤ i.opc ∧ i.opc ≤ 0x67 then
        decide ((D.nw = 1 ∧ D.nc = A.nc) ∨ (D.nw = 1 ∧ D.nc = 1))
      else (rolesOf i).all fun x => x.1 == .pm || fits (k x.2))

/-! ### Chains (R209, R210) -/

/-- Opcodes that may produce into a chain. -/
def producerOpc (o : Nat) : Bool :=
  decide (o = 0x01 ∨ o = 0x02 ∨ o = 0x03 ∨ o = 0x05 ∨ o = 0x68 ∨ o = 0x70 ∨ o = 0x71) || decide (0x10 ≤ o ∧ o ≤ 0x52)

/-- Whether slot `j` is the producer of a link. -/
def isProducer (prog : List SIns) (sk : List Skein) (j : Nat) : Bool :=
  match prog[j]? with
  | none => false
  | some i => (match sUse i with | some u => u.dst | none => false) && (sk.getD i.dst default).chain
      && decide (j + 1 < prog.length)

/-- The slot that ends the chain of slot `j`. -/
def chainEnd (prog : List SIns) (sk : List Skein) : Nat → Nat → Nat
  | 0, j => j
  | fuel + 1, j => if isProducer prog sk j then chainEnd prog sk fuel (j + 1) else j

/-- The first slot of the chain of slot `j`. -/
def chainHead (prog : List SIns) (sk : List Skein) : Nat → Nat
  | 0 => 0
  | j + 1 => if isProducer prog sk j then chainHead prog sk j else j + 1

/-- R209, R210: the chain rules at slot `j`; a link that its consumer does not take fails at the producer, the lower of its two
slots (DEDUCED, notes/assumptions/98.md). An opcode of 0 stands for a word that was not loaded: that slot fails by itself. -/
def chainOk (prog : List SIns) (sk : List Skein) (j : Nat) : Bool :=
  match prog[j]? with
  | none => true
  | some i =>
    let k := fun (r : Nat) => sk.getD r default
    let from_ : Option Nat := if 0 < j && isProducer prog sk (j - 1) then (prog[j - 1]?).map (·.dst) else none
    let rs := rolesOf i
    let noChain := fun (r : Role) =>
      match r with
      | .a => decide (i.opc = 0x70)
      | .b => decide (i.opc = 0x05 ∨ i.opc = 0x70 ∨ i.opc = 0x71)
      | .c => decide (i.opc = 0x6A ∨ i.opc = 0x6D ∨ i.opc = 0x78)
      | _ => false
    let takes := match prog[j + 1]? with
      | some c => decide (c.opc = 0) || (decide (c.opc < 0x80) && (rolesOf c).any fun x => x.1 != .dst && x.2 == i.dst)
      | none => false
    let opsOk := rs.all fun x =>
      let y := k x.2
      (decide (y.shape ≠ 3) || !(k y.idx).chain)
        && (!y.chain || (if x.1 == .dst then producerOpc i.opc && takes else from_ == some x.2 && !noChain x.1))
    let brc := decide (i.opc ≠ 0x84) || !(decide (0 < i.aux) && isProducer prog sk (i.aux - 1))
    opsOk && brc

/-! ### Lifelines and branches (R203, R204, R219) -/

/-- Add a stack of open LIFE slots to those that reach a slot. -/
def addStack (m : KV Nat (List (List Nat))) (slot : Nat) (st : List Nat) : KV Nat (List (List Nat)) :=
  m.upd slot [] fun l => if l.contains st then l else l ++ [st]

/-- The stacks that reach each slot, slot by slot, and the slots that break R203 or R219. -/
def lifeWalk (n : Nat) : List SIns → Nat → KV Nat (List (List Nat)) → List Nat → List Nat
  | [], j, m, bad => if j = n then bad ++ (m.get j []).flatMap id else bad
  | i :: t, j, m, bad =>
    let sts := m.get j []
    let r := sts.foldl (fun (acc : KV Nat (List (List Nat)) × List Nat) st =>
      let (m, bad) := acc
      match i.opc with
      | 0x80 => if 4 ≤ st.length then (m, bad ++ [j]) else (addStack m (j + 1) (j :: st), bad)
      | 0x81 => match st with | [] => (m, bad ++ [j]) | _ :: r => (addStack m (j + 1) r, bad)
      | 0x82 => match st with | [] => (m, bad ++ [j]) | _ :: r => (addStack m (j + 1) r, bad)
      | 0x83 => match st with | [] => (m, bad ++ [j]) | _ :: r => (addStack m (j + 1) r, bad)
      | 0x84 => (addStack (addStack m (j + 1) st) (min i.aux n) st, bad)
      | _ => (addStack m (j + 1) st, bad)) (m, bad)
    lifeWalk n t (j + 1) r.1 r.2

/-- The slots that break the lifeline rules on some path; `prog` holds the slots below the first of the n that does not decode. -/
def lifeBad (prog : List SIns) (n : Nat) : List Nat := lifeWalk n prog 0 [(0, [[]])] []

/-- R199, R204: what an instruction's own entry asks of its fields, and INDEX skeins only where R174 lets them stand. -/
def ownOk (i : SIns) (j nins : Nat) (sk : List Skein) : Bool :=
  let index := (rolesOf i).all fun x =>
    let y := sk.getD x.2 default
    let want := (decide (i.opc = 0x03) && x.1 == .a) || (decide (i.opc = 0x04) && x.1 == .dst)
    if want then
      let X := sk.getD y.idx default
      decide (y.shape = 3 ∧ y.idx < sk.length ∧ 4 ≤ X.ty ∧ X.ty ≤ 7 ∧ X.shape ≠ 3 ∧ X.nw = y.nw ∧ X.nc = y.nc)
    else decide (y.shape ≠ 3)
  index && (match i.opc with
    | 0x84 => decide (j < i.aux ∧ i.aux ≤ nins)
    | 0x78 => decide (i.imm % 64 + bitsOf i.imm 12 6 ≤ 64 ∧ 1 ≤ bitsOf i.imm 12 6 ∧ 1 ≤ bitsOf i.imm 31 16)
    | _ => true)

/-! ### Admission (R148) -/

/-- What admission answers: an instance, or a refusal with its cause, slot and address. -/
inductive Admit where
  | ok (p : Inst)
  | refused (cause instr addr : Nat)
  deriving DecidableEq, Repr

/-- One skein register that slot `j` names, loaded and checked. -/
def State.loadSkein (s : State) (skt j fn : Nat) (i : SIns) (r : Nat) : Except Admit Skein × State :=
  let a := skt + 64 * r
  let b := s.peekN a 64
  if !skFieldsOk b then (.error (.refused 16 j 0), s)
  else
    let raw := skParse b capNull
    if raw.chain then (.ok raw, s)
    else
      match s.resolveCap (s.peekCap a) fn with
      | (.poison x, s) => (.error (.refused 3 j x), s)
      | (.invalid, s) => (.error (.refused 1 j 0), s)
      | (.ok c, s) =>
        let k := { raw with cap := c }
        let index := (rolesOf i).any fun x =>
          let y := skParse (s.peekN (skt + 64 * x.2) 64) capNull
          decide (y.shape = 3 ∧ y.idx = r)
        let perms := (if index then [pLoad] else []) ++
          (rolesOf i).flatMap fun x => if x.2 = r then permsFor i x.1 else []
        if perms.all fun p => s.extentOk k p then (.ok k, s) else (.error (.refused 16 j 0), s)

/-- The skein registers that a word names, ascending, with the index registers of INDEX skeins. -/
def State.namedRegs (s : State) (skt : Nat) (i : SIns) (nsk : Nat) : List Nat :=
  let rs := (rolesOf i).map (·.2)
  let idx := rs.filterMap fun r =>
    let k := skParse (s.peekN (skt + 64 * r) 64) capNull
    if k.shape = 3 ∧ k.idx < nsk then some k.idx else none
  (rs ++ idx).foldl setAdd []

/-- Load the registers of one slot. -/
def State.loadSlot (s : State) (skt j fn : Nat) (i : SIns) : List Nat → KV Nat Skein → Except Admit (KV Nat Skein) × State
  | [], m => (.ok m, s)
  | r :: t, m =>
    match s.loadSkein skt j fn i r with
    | (.error e, s) => (.error e, s)
    | (.ok k, s) => s.loadSlot skt j fn i t (m.set r k)

/-- Check 6 over the slots: words that decode, registers below NSK, descriptors. It answers the slots that pass, the registers they
name, and how the first slot that does not pass is refused. -/
def State.loadSlots (s : State) (skt nsk fn : Nat) : List Nat → Nat → List SIns → KV Nat Skein →
    (Option Admit × List SIns × KV Nat Skein) × State
  | [], _, prog, m => ((none, prog, m), s)
  | w :: t, j, prog, m =>
    match sDecode w with
    | none => ((some (.refused 16 j 0), prog, m), s)
    | some i =>
      let rs := s.namedRegs skt i nsk
      if rs.any fun r => decide (nsk ≤ r) then ((some (.refused 16 j 0), prog, m), s)
      else
        match s.loadSlot skt j fn i rs m with
        | (.error e, s) => ((some e, prog, m), s)
        | (.ok m, s) => s.loadSlots skt nsk fn t (j + 1) (prog ++ [i]) m

/-- The lowest slot that fails a test. -/
def firstBad (f : Nat → Bool) (n : Nat) : Option Nat := (List.range n).find? fun j => !f j

/-- Checks 6 and 7 over the slots: the lowest slot that fails gives the refusal. `prog` holds the slots that pass `loadSlots`, and
`err` is how the next one is refused. -/
def slotChecks (words : List Nat) (prog : List SIns) (sk : List Skein) (n : Nat) (err : Option Admit) : Option Admit :=
  let bad := lifeBad ((words.map sDecode).takeWhile (·.isSome) |>.filterMap id) n
  let all := prog ++ List.replicate (n - prog.length) default
  let ok6 := fun (j : Nat) =>
    let i := prog.getD j default
    typesOk i sk && ownOk i j n sk && chainOk all sk j && !bad.contains j
  match firstBad ok6 prog.length with
  | some j => some (.refused 16 j 0)
  | none =>
    match err with
    | some r => some r
    | none => (firstBad (fun j => countsOk (prog.getD j default) sk) n).map fun j => .refused 17 j 0

/-- R148, checks 6 and 7, for a program at `pa` and a skein table at `ta`. -/
def State.admitWords (s : State) (e : Entry) (pinned : Bool) (row0 : DWord) (b fn pa ta : Nat) : Admit × State :=
  let words := (List.range e.nins).map fun j => s.peekNat (pa + 16 * j) 16
  match s.loadSlots ta e.nsk fn words 0 [] [] with
  | (found, s) =>
    let prog := found.2.1
    let sk := (List.range e.nsk).map fun r => found.2.2.get r default
    match slotChecks words prog sk e.nins found.1 with
    | some r => (r, s)
    | none =>
      (.ok
          { uid := s.ply.nextUid, entry := e, pinned := pinned, row0 := row0, prog := prog, sk := sk
            b := if optChecked e then b / 2 else b, split := optSplit e, st := .armed
            done := [], part := [], issued := [], fin := [], skipped := [], comb := [], flags := 0, lost := none
            fault := none, deferred := [], lives := [], held := [], filter := [], spec := false, early := false
            waitOld := false },
          { s with ply := { s.ply with nextUid := s.ply.nextUid + 1 } })

/-- R148: admission of an entry of queue `q`. -/
def State.admitPly (s : State) (q : Nat) (e : Entry) (pinned : Bool) (row0 : DWord) : Admit × State :=
  let fn := s.queueFn q
  match s.setOf q with
  | none => (.refused 20 0 0, s)
  | some n =>
    let b := (s.setBeds n).length
    let opts := e.opts.toNat
    if b = 0 then (.refused 20 0 0, s)
    else if e.nins = 0 ∨ 32 < e.nins ∨ e.nsk = 0 ∨ 64 < e.nsk ∨ (optChecked e ∧ b % 2 = 1) then (.refused 19 0 0, s)
    else if 5 ≤ opts % 8 ∨ 1024 ≤ opts then (.refused 18 0 0, s)
    else
      match s.resolveCap e.prog fn with
      | (.poison a, s) => (.refused 3 0 a, s)
      | (.invalid, s) => (.refused 1 0 0, s)
      | (.ok prog, s) =>
        match s.resolveCap e.skt fn with
        | (.poison a, s) => (.refused 3 0 a, s)
        | (.invalid, s) => (.refused 1 0 0, s)
        | (.ok skt, s) =>
          let pa := capAddr prog
          let ta := capAddr skt
          if !(capHas prog pLoad && capHas prog pExecute && capCovers prog pa (16 * e.nins)
              && capHas skt pLoad && capHas skt pLoadCap && capCovers skt ta (64 * e.nsk)) then (.refused 1 0 0, s)
          else
            match (s.firstPoison pa (16 * e.nins)).orElse fun _ => s.firstPoison ta (64 * e.nsk) with
            | some a => (.refused 3 0 a, s)
            | none =>
              s.admitWords e pinned row0 b fn pa ta

end Sys2Proof.Machine
end

