-- ==== Sys2Proof/Machine/PlyOps.lean ====
section
/-!
DEFINITION. Sys2Proof/Machine/PlyOps.lean: instances of plies: records, lifelines, faults, starts and ends, migration and bind-off
(R142 to R152, R217 to R242).
-/
namespace Sys2Proof.Machine

/-! ### Instances -/

def State.inst (s : State) (q : Nat) (young : Bool) : Option Inst :=
  if young then (s.plq q).younger else (s.plq q).older

def State.setInst (s : State) (q : Nat) (young : Bool) (p : Option Inst) : State :=
  let x := s.plq q
  s.setPlq q (if young then { x with younger := p } else { x with older := p })

def State.updInst (s : State) (q : Nat) (young : Bool) (f : Inst → Inst) : State :=
  s.setInst q young ((s.inst q young).map f)

/-- The current epoch of a queue (R142). -/
def State.qEpoch (s : State) (q : Nat) : Half := BitVec.ofNat 16 (s.fld F.PLQ_BIND_EPOCH q)

/-- Bind the beds of a set to a queue: they carry its present epoch (R236). -/
def State.bindBeds (s : State) (n q : Nat) : State :=
  (s.setBeds n).foldl (fun s b => s.setBed b { s.bed b with epoch := s.qEpoch q }) s

/-- Count one item discarded for a stale epoch (R120, R142). -/
def State.bumpStale (s : State) : State :=
  s.setPair F.BED_STALE_LO F.BED_STALE_HI (s.pair F.BED_STALE_LO F.BED_STALE_HI + 1)

/-! ### Completion records (R149) -/

/-- Post a record. -/
def State.post (s : State) (q : Nat) (r : Cpl) : State :=
  let x := s.plq q
  if 32 ≤ x.cpl.length then (s.setPlq q { x with stopped := true }).setFld F.PLQ_STAT_CPLOVF 1 q
  else (s.setPlq q { x with cpl := x.cpl ++ [r] }).queueIrq q

/-- A record of an instance. -/
def recOf (p : Inst) (status cause instr lpos elem addr : Nat) : Cpl :=
  ⟨p.entry.cookie, status, cause, instr, lpos, p.flags, elem, match p.lost with | some a => if addr = 0 then a else addr | none => addr⟩

/-- A REFUSED record, counted (R148). -/
def State.postRefused (s : State) (q : Nat) (e : Entry) (cause instr addr : Nat) : State :=
  (s.post q ⟨e.cookie, 1, cause, instr, 0, 0, 0, addr⟩).bump F.PLQ_CNT_0 q

/-- R152: a write-lost report for a line of an instance, or of a ply that has retired. -/
def State.writeLost (s : State) (src : Poster) (line : Nat) : State :=
  let mark := fun (p : Inst) => { p with flags := p.flags ||| 128, lost := some (p.lost.getD line) }
  let x := s.plq src.q
  if (x.older.map (·.uid)) = some src.uid then s.updInst src.q false mark
  else if (x.younger.map (·.uid)) = some src.uid then s.updInst src.q true mark
  else s.post src.q ⟨src.cookie, 0, 0, 0, 0, 128, 0, line⟩

/-! ### Progress (R160 to R162, R188) -/

def slotIns (p : Inst) (k : Nat) : SIns := p.prog.getD k default

/-- Elements of the range of a position for slot `k`. -/
def slotLen (p : Inst) (k pos : Nat) : Nat :=
  let d := insShape p (slotIns p k)
  rangeLen p.split p.b d.nw d.nc pos

def slotFin (p : Inst) (k : Nat) : Bool := p.fin.contains k || p.skipped.contains k

/-- The slot that holds the committed counts of slot `k`: its chain's end (R162). -/
def endOf (p : Inst) (k : Nat) : Nat := chainEnd p.prog p.sk 32 k

def doneAt (p : Inst) (k pos : Nat) : Nat := p.done.get (endOf p k * 128 + pos) 0
def partAt (p : Inst) (k pos : Nat) : Nat := p.part.get (endOf p k * 128 + pos) 0

/-- The committed element index of a position (R162). -/
def prgOf (p : Inst) (k pos : Nat) : Nat :=
  let d := insShape p (slotIns p k)
  if p.skipped.contains k then d.nw * d.nc
  else rangeIndex p.split p.b d.nw d.nc pos (if p.fin.contains k then slotLen p k pos else doneAt p k pos)

/-- Every position has reached the end of its range. -/
def allDone (p : Inst) (k : Nat) : Bool :=
  (List.range p.b).all fun pos => decide (slotLen p k pos ≤ doneAt p k pos)

/-- An orderly stop: every bed hands over the state of its segment at its committed element (R188). -/
def handOver (p : Inst) : Inst :=
  { p with done := p.part.foldl (fun d e => d.upd e.1 0 (· + e.2)) p.done, part := [] }

/-- A bed is lost without handing over: the segments of its position restart (R188). -/
def loseSegment (p : Inst) (pos : Nat) : Inst :=
  { p with
    part := p.part.filter fun e => e.1 % 128 != pos
    comb := p.comb.map fun e => if e.1 % 128 = pos then (e.1, e.2.take (doneAt p (e.1 / 128) pos)) else e }

/-! ### Lifelines (R217 to R226) -/

/-- Lifelines open on a set (R219). -/
def State.openLives (s : State) (n : Nat) : Nat :=
  (s.queuesOf n).foldl (fun a q =>
    let c := fun (p : Option Inst) => match p with | some p => p.lives.length | none => 0
    a + c (s.plq q).older + c (s.plq q).younger) 0

/-- Open a lifeline of an instance under the set's present serial (R218). -/
def State.openLife (s : State) (n q : Nat) (young : Bool) (kind : LifeKind) (slot : Nat) (took : Bool) : State :=
  let b := s.bset n
  let s := s.setBset n { b with serial := (b.serial + 1) % 1024 }
  s.updInst q young fun p =>
    { p with lives := p.lives ++ [⟨BitVec.ofNat 16 (n * 1024 + b.serial), kind, slot, ⟨p.done, p.comb, p.fin, p.skipped, p.flags⟩, took⟩] }

/-- The instance with the scope of a lifeline back at its start state (R225). -/
def unwind (p : Inst) (l : Life) : Inst :=
  let inS := fun (k : Nat) => lifeCovers l k
  let mix := fun {α : Type} (now old : KV Nat α) =>
    now.filter (fun e => !inS (e.1 / 128)) ++ old.filter (fun e => inS (e.1 / 128))
  let mixL := fun (now old : List Nat) => now.filter (fun k => !inS k) ++ old.filter inS
  { p with
    done := mix p.done l.snap.done
    part := p.part.filter fun e => !inS (e.1 / 128)
    comb := mix p.comb l.snap.comb
    fin := mixL p.fin l.snap.fin
    skipped := mixL p.skipped l.snap.skipped
    issued := p.issued.filter fun k => !inS k
    flags := l.snap.flags }

/-- FROG of the lifeline at depth `i` of an instance and of every one nested within it: their held state, tentative events and
deferred faults go, the scope returns to its start state (R225). -/
def State.frogAt (s : State) (q : Nat) (young : Bool) (i : Nat) (external : Bool) : State :=
  match s.inst q young with
  | none => s
  | some p =>
    match p.lives[i]? with
    | none => s
    | some l =>
      let gone := (p.lives.drop i).map (·.id)
      let s := gone.foldl (fun s id => s.resolveEvents id false) s
      let dd := p.deferred.filter fun f => lifeCovers l f.instr
      let own := if external then 0 else 1
      let s := ((s.bump F.PLQ_SCNT_16 q own).bump F.PLQ_SCNT_8 q (gone.length - own)).bump F.PLQ_SCNT_0 q dd.length
      s.setInst q young (some
        { unwind p l with
          lives := p.lives.take i
          held := p.held.filter fun h => !gone.contains h.life
          deferred := p.deferred.filter fun f => !lifeCovers l f.instr
          filter := if l.kind = .course ∨ l.kind = .ingest then [] else p.filter })

/-- What follows an external frog of the outermost lifeline (R225). -/
def State.afterXFrog (s : State) (n q : Nat) (young : Bool) (l : Life) : State :=
  match l.kind with
  | .life => s.openLife n q young .life l.slot false
  | .branch => s.updInst q young fun p => { p with fin := p.fin.filter (· != l.slot) }
  | .course => s.updInst q young fun p => { p with waitOld := true }
  | .ingest =>
    match s.inst q young with
    | some p => if p.spec then s.openLife n q young .ingest 0 false else s
    | none => s

/-- Frog every open lifeline of an instance externally; its scope runs again unless `rerun` is false (R225, R241). -/
def State.xfrog (s : State) (n q : Nat) (young rerun : Bool) : State :=
  match s.inst q young with
  | none => s
  | some p =>
    match p.lives with
    | [] => s
    | l :: _ =>
      let s := s.frogAt q young 0 true
      if rerun then s.afterXFrog n q young l else s

/-- R150, R233: a fault of an element is reported, or deferred within the scope of an implicit lifeline. -/
def State.raiseFault (s : State) (q : Nat) (young : Bool) (f : SFault) : State :=
  s.updInst q young fun p =>
    if (livesOver p f.instr).any fun l => l.kind != .life then { p with deferred := p.deferred ++ [f] }
    else { p with fault := some (p.fault.getD f) }

/-- The lowest slot, then the lowest position (R233). -/
def lowestFault (l : List SFault) : Option SFault :=
  l.foldl (fun b f => match b with
    | none => some f
    | some g => if f.instr * 128 + f.lpos < g.instr * 128 + g.lpos then some f else some g) none

/-- Deferred faults that no implicit lifeline encloses any longer become a fault (R224, R233). -/
def State.settleDeferred (s : State) (q : Nat) (young : Bool) : State :=
  s.updInst q young fun p =>
    let still := fun (f : SFault) => (livesOver p f.instr).any fun l => l.kind != .life
    match lowestFault (p.deferred.filter fun f => !still f) with
    | none => p
    | some f => { p with deferred := p.deferred.filter still, fault := some (p.fault.getD f) }

/-- R229: a store of the older instance against the read filter of the younger. -/
def State.filterCheck (s : State) (q : Nat) (young : Bool) (a n : Nat) : State :=
  if young then s
  else match (s.plq q).younger with
    | none => s
    | some y =>
      if (y.lives.any fun l => l.kind == .course) && (unitsOf 64 a n).any fun x => y.filter.contains (Config.filterHash x % 8192) then
        (s.frogAt q true 0 false).updInst q true fun p => { p with waitOld := true }
      else s

/-- A write of an instance reaches its target (R118, R135, R229). -/
def State.plyWrite (s : State) (q : Nat) (young : Bool) (a : Nat) (bs : List Byte) : State :=
  match s.inst q young with
  | none => s
  | some p => (s.storeBy (some ⟨q, p.uid, p.entry.cookie⟩) a bs).filterCheck q young a bs.length

/-- COMMIT of the lifeline at depth `i` (R224, R233). -/
def State.commitAt (s : State) (q : Nat) (young : Bool) (i : Nat) : State :=
  match s.inst q young with
  | none => s
  | some p =>
    match p.lives[i]? with
    | none => s
    | some l =>
      let rest := p.lives.eraseIdx i
      let s := s.bump F.PLQ_SCNT_24 q
      match p.lives[i - 1]?, decide (0 < i) with
      | some e, true =>
        let s := s.relabelEvents l.id e.id
        (s.setInst q young (some { p with
          lives := rest
          held := p.held.map fun h => if h.life = l.id then { h with life := e.id } else h })).settleDeferred q young
      | _, _ =>
        let s := s.resolveEvents l.id true
        let out := p.held.filter fun h => h.life == l.id
        let s := s.setInst q young (some { p with lives := rest, held := p.held.filter fun h => h.life != l.id })
        (out.foldl (fun s h => s.plyWrite q young h.addr h.bytes) s).settleDeferred q young

/-! ### Starts (R143 to R145, R227, R228) -/

/-- A queue in bind-off. -/
def State.qBindoff (s : State) (q : Nat) : Bool := s.flag F.PLQ_STAT_BINDOFF q

/-- An instance that keeps a set from unpinned plies: a pinned one that is armed or runs. -/
def holdsSet (p : Option Inst) : Bool :=
  match p with
  | some p => p.pinned && (p.st == .armed || p.st == .running)
  | none => false

def State.pinnedBusy (s : State) (n : Nat) : Bool :=
  (s.queuesOf n).any fun q => holdsSet (s.plq q).older || holdsSet (s.plq q).younger

/-- R145: the unpinned ply of a set stops issuing; its open lifelines are frogged externally. -/
def State.suspendSet (s : State) (n : Nat) : State :=
  match (s.bset n).run with
  | none => s
  | some q =>
    match s.inst q false with
    | some p =>
      if p.st = .running then (s.xfrog n q false true).updInst q false fun p => { handOver p with st := .suspending } else s
    | none => s

/-- R145: the suspended ply of a set tinks when no pinned instance keeps the set. -/
def State.resumeSet (s : State) (n : Nat) : State :=
  if s.pinnedBusy n then s
  else match (s.bset n).run with
    | none => s
    | some q =>
      match s.inst q false with
      | some p =>
        if p.st = .suspending ∨ p.st = .suspended then
          (s.bindBeds n q).updInst q false fun p => { p with st := .running }
        else s
      | none => s

/-- The entry in a queue's pin slot. -/
def State.pinEntry (s : State) (q : Nat) : Entry :=
  entryOf ((List.range 16).map fun k => (4 * k, s.reg ⟨.PLQ_PIN, q, k⟩)) (s.plq q).pinTag

/-- A host-owned queue stops while the host function is lost: its link is down or PCIE_PERST_L is low (R14,
DEDUCED, notes/assumptions/26.md). -/
def State.hostGone (s : State) (q : Nat) : Bool :=
  s.flag F.PLQ_CTRL_OWNER q && (s.host.perst || (decide (s.queueFn q ≤ 8) && !s.flag F.PCI_STAT_UP))

/-- The queue may start plies (R149, R150, R240). -/
def State.qMayStart (s : State) (q : Nat) : Bool :=
  s.flag F.PLQ_CTRL_EN q && !s.qBindoff q && !(s.plq q).stopped && !s.hostGone q

/-- R227: arm the pin-slot ply for a row, as the older or the younger instance; a refusal passes the row. -/
def State.arm (s : State) (q row : Nat) : State :=
  let x := s.plq q
  if !s.qMayStart q || x.younger.isSome then s
  else
    let e := s.pinEntry q
    match x.older with
    | none =>
      match s.admitPly q e true (BitVec.ofNat 64 row) with
      | (.ok p, s) => s.setInst q false (some p)
      | (.refused c i a, s) => (s.postRefused q e c i a).passRow q row
    | some o =>
      if o.st = .armed then s
      else
        match s.admitPly q e true (BitVec.ofNat 64 row) with
        | (.ok p, s) => s.setInst q true (some p)
        | (.refused c i a, s) => (s.postRefused q e c i a).passRow q row

/-- Start an armed instance for a released row: under a course lifeline where the older one still runs, and under an ingest
lifeline for a course whose CRC is open (R97, R217, R219, R228). -/
def State.startPinned (s : State) (n q : Nat) (young spec : Bool) : State :=
  let s := s.suspendSet n
  let s := s.bindBeds n q
  let s := s.updInst q young fun p => { p with st := .running, spec := spec }
  let s := if young then s.openLife n q young .course 0 false else s
  if spec then s.openLife n q young .ingest 0 false else s

/-- Remove the head entry that waits for queue `q` on channel `c`. -/
def State.popFeed (s : State) (c q row : Nat) : State :=
  let x := s.ich c
  s.setIch c { x with feed := x.feed.filter fun f => !(f.q == q && f.row == row) }

/-- Whether queue `q` has passed a row on channel `c`. -/
def State.rowPassed (s : State) (c q row : Nat) : Bool :=
  (List.range 4).any fun k => s.consPly c k && decide (s.consQueue c k = q)
    && (decide (row < s.relRow c k) || ((s.ich c).passed.get k []).contains row)

/-- R144, R228: try to start the pin-slot ply for the oldest row released to queue `q`. -/
def State.pinStep (s : State) (q : Nat) : State :=
  let c := s.pinChan q
  match (s.ich c).feed.find? fun f => f.q == q with
  | none => s
  | some f =>
    if !s.pinnedOn q || s.qBindoff q then (s.popFeed c q f.row).passRow q f.row
    else if s.rowPassed c q f.row then s.popFeed c q f.row
    else if (s.plq q).stopped then s
    else
      let n := (s.setOf q).getD 0
      let room := 4 - s.openLives n
      let e := s.pinEntry q
      let fresh := fun (s : State) (young : Bool) =>
        match s.admitPly q e true (BitVec.ofNat 64 f.row) with
        | (.ok p, s) => ((s.setInst q young (some p)).popFeed c q f.row).startPinned n q young f.spec
        | (.refused cause i a, s) => ((s.postRefused q e cause i a).popFeed c q f.row).passRow q f.row
      let x := s.plq q
      match x.older with
      | none => if f.spec ∧ room = 0 then s else fresh s false
      | some o =>
        if o.st = .armed then
          if o.row0.toNat = f.row then
            if f.spec ∧ room = 0 then s else (s.popFeed c q f.row).startPinned n q false f.spec
          else s.setInst q false none
        else if o.st = .running ∧ o.fault = none ∧ optRaCourse o.entry ∧ b2n f.spec < room then
          match x.younger with
          | none => fresh s true
          | some y =>
            if y.st = .armed then
              if y.row0.toNat = f.row then (s.popFeed c q f.row).startPinned n q true f.spec else s.setInst q true none
            else s
        else s

/-- Start what can start on a pinned queue: an instance armed for another row is replaced, and two instances may run. -/
def State.pinTry (s : State) (q : Nat) : State := (List.range 4).foldl (fun s _ => s.pinStep q) s

/-- R19, R145, R227: the wake signal of channel `c` for a row reaches the bed sets of its pinned queues. -/
def State.wake (s : State) (c row : Nat) : State :=
  (List.range 16).foldl (fun s q =>
    if s.pinnedOn q && decide (s.pinChan q = c) && s.consumes q c then
      match s.setOf q with
      | none => s
      | some n =>
        let s := (s.setBeds n).foldl (fun s b => s.setFld F.BED_STAT_CLKGATED 0 b) s
        ((s.suspendSet n).arm q row).resumeSet n
    else s) s

/-! ### Ends -/

/-- The younger instance takes the older one's place; its course lifeline commits (R228, R229). -/
def State.promote (s : State) (q : Nat) : State :=
  match (s.plq q).younger with
  | none => s
  | some y =>
    let x := s.plq q
    let s := s.setPlq q { x with older := some y, younger := none }
    let s := if y.lives.any fun l => l.kind == .course then s.commitAt q false 0 else s
    if y.waitOld then
      let s := s.updInst q false fun p => { p with waitOld := false }
      match s.setOf q with
      | some n => if y.spec && y.lives.isEmpty then s.openLife n q false .ingest 0 false else s
      | none => s
    else s

/-- An instance has ended: its row passes, the set is free, the younger takes its place (R91, R143, R145, R228). -/
def State.endInst (s : State) (q : Nat) (young : Bool) : State :=
  match s.inst q young with
  | none => s
  | some p =>
    let s := s.setInst q young none
    let s := s.setPlq q { s.plq q with ended := some p }
    let s := if p.pinned then s.passRow q p.row0.toNat else s
    let n := (s.setOf q).getD 0
    let s := if !p.pinned && decide ((s.bset n).run = some q) then s.setBset n { s.bset n with run := none } else s
    let s := if young then s else s.promote q
    (s.pinTry q).resumeSet n

/-- R149: an instance retires. -/
def State.retire (s : State) (q : Nat) (young : Bool) : State :=
  match s.inst q young with
  | none => s
  | some p =>
    let s := (s.post q (recOf p 0 0 0 0 0 0)).bump F.PLQ_CNT_16 q
    (if p.pinned && !p.early then s.ringRow q p.row0.toNat else s).endInst q young

/-- The lowest unfinished slot and position, with its committed index (R241). -/
def lowestOpen (p : Inst) : Nat × Nat × Nat :=
  match (List.range p.prog.length).find? fun k => !slotFin p k with
  | none => (0, 0, 0)
  | some k =>
    let pos := ((List.range p.b).find? fun x => decide (doneAt p k x < slotLen p k x)).getD 0
    (k, pos, prgOf p k pos)

/-- R241: cut an instance. -/
def State.cutInst (s : State) (q : Nat) (young : Bool) : State :=
  match s.inst q young with
  | none => s
  | some p =>
    let n := (s.setOf q).getD 0
    let s := (s.updInst q young handOver).xfrog n q young false
    match s.inst q young with
    | none => s
    | some p' =>
      let (k, pos, e) := match p.fault with
        | some f => (f.instr, f.lpos, f.elem)
        | none => lowestOpen p'
      let s := if s.ect.bindoff.isSome then { s with ect := { s.ect with cut := true } } else s
      (s.post q (recOf p' 3 0 k pos e 0)).endInst q young

/-- R232: CRC resolution of a course for which instances of queue `q` were started speculatively. -/
def State.resolveSpec (s : State) (q : Nat) (young ok : Bool) (row : Nat) : State :=
  match s.inst q young with
  | none => s
  | some p =>
    if p.row0.toNat ≠ row ∨ !p.spec then s
    else
      let s := s.updInst q young fun p => { p with spec := false }
      match p.lives.findIdx? fun l => l.kind == .ingest with
      | none =>
        if ok then s
        else (s.post q (recOf p 4 9 0 0 0 0)).endInst q young
      | some i =>
        if ok then
          (((s.commitAt q young i).updInst q young fun p => { p with early := true }).passRow q row).ringRow q row
        else
          let s := s.frogAt q young i false
          let s := if 0 < i then s.frogAt q young 0 true else s
          match s.inst q young with
          | none => s
          | some p => (s.post q (recOf p 4 9 0 0 0 0)).endInst q young

/-! ### Bind-off and migration -/

/-- An armed instance that was never released is discarded. -/
def dropArmed (p : Option Inst) : Option Inst := p.filter fun p => !(p.pinned && p.st == .armed)

/-- R240: the bind-off of a queue starts: waiting entries end as ABORTED, and no pinned instance starts. -/
def State.startQBindoff (s : State) (q : Nat) : State :=
  if s.qBindoff q then s
  else
    let x := s.plq q
    let s := (s.setPlq q { x with wait := [], older := dropArmed x.older, younger := dropArmed x.younger, bindAfter := false }).setFld
      F.PLQ_STAT_BINDOFF 1 q
    let s := x.wait.foldl (fun s e => s.post q ⟨e.cookie, 4, 0, 0, 0, 0, 0, 0⟩) s
    (s.pinTry q).resumeSet ((s.setOf q).getD 0)

/-- R142: raise the epoch of a queue. -/
def State.raiseEpoch (s : State) (q : Nat) : State := s.setFld F.PLQ_BIND_EPOCH ((s.fld F.PLQ_BIND_EPOCH q + 1) % 65536) q

/-- R235, R237: migrate logical position `lpos` of the set of queue `q` to bed `nb`; with no bed to take it a remaining bed of the
set runs the position (R163). -/
def State.migrate (s : State) (q lpos : Nat) (nb : Option Nat) (hw : Bool) : State :=
  match s.setOf q with
  | none => s
  | some n =>
    let old := (s.setBeds n).find? fun b => s.fld F.BED_CTRL_LPOS b == lpos
    let bad := match nb with
      | some b => !s.flag F.BED_CTRL_EN b || decide (s.fld F.BED_CTRL_SET b ≠ n) || old == some b
      | none => false
    if (s.bset n).mig.isSome || bad then s
    else
      let s := (s.setFld F.PLQ_MIG_BUSY 1 q).raiseEpoch q
      let s := if hw then s.setFld F.PLQ_MIG_HWSTART 1 q else s
      let each := fun (f : State → Nat → Bool → State) (s : State) =>
        (s.queuesOf n).foldl (fun s q => f (f s q false) q true) s
      let s := each (fun s q y => s.xfrog n q y true) s
      let s := each (fun s q y => s.updInst q y fun p => handOver (if hw then loseSegment p lpos else p)) s
      let s := match old with
        | some b => (s.setFld F.BED_STAT_FENCED 1 b).setFld F.BED_CTRL_EN 0 b
        | none => s
      let s := match nb with
        | some b =>
          if s.flag F.BED_CTRL_STANDBY b then
            ((s.setFld F.BED_CTRL_STANDBY 0 b).setFld F.BED_CTRL_LPOS lpos b).setFld F.BED_STAT_CLKGATED 0 b
          else s
        | none => s
      let s := s.setBset n { s.bset n with mig := some ⟨q, lpos, old.getD 0, nb.getD 0, hw⟩ }
      s.bindBeds n (match (s.bset n).run with | some r => if s.pinnedBusy n then q else r | none => q)

/-- A hardware-started migration takes the standby bed of the set, or a free position of another of its beds (R163, R505). -/
def State.spareBed (s : State) (n : Nat) : Option Nat :=
  (List.range 136).find? fun b =>
    s.flag F.BED_CTRL_EN b && s.flag F.BED_CTRL_STANDBY b && decide (s.fld F.BED_CTRL_SET b = n) && !s.flag F.BED_STAT_RETIRED b

/-- R505: the hardware migration of a bed whose request timed out: to the standby bed of its set, else to none of its own. -/
def State.migrateHw (s : State) (b : Nat) : State :=
  let n := s.fld F.BED_CTRL_SET b
  match (match (s.bset n).run with | some q => some q | none => (s.queuesOf n).head?) with
  | none => (s.setFld F.BED_STAT_FENCED 1 b).setFld F.BED_CTRL_EN 0 b
  | some q => s.migrate q (s.fld F.BED_CTRL_LPOS b) (s.spareBed n) true

/-! ### Retirement and spares (R22, R495, R498) -/

/-- A bed is retired in service: out of its set for good, in the map, unsaved until a record holds it. -/
def State.retireBed (s : State) (b : Nat) : State :=
  let s := (s.setFld F.BED_STAT_RETIRED 1 b).setFld F.BED_CTRL_EN 0 b
  let s := s.setFld F.RPR_BEDR (s.fld F.RPR_BEDR (b / 32) ||| 2 ^ (b % 32)) (b / 32)
  (s.setFld F.RPR_STAT_UNSAVED 1).raise 178

/-- R495: the gauge retires a bed. -/
def State.gaugeRetire (s : State) (b : Nat) : State :=
  let s := s.retireBed b
  let s := s.setFld F.GAU_RETIRE (s.fld F.GAU_RETIRE (b / 32) ||| 2 ^ (b % 32)) (b / 32)
  (s.bump F.GAU_CNT_8).raise 179

/-- A free spare: in no set, not retired, not fenced, not being measured or taken. -/
def State.freeBed (s : State) : Option Nat :=
  (List.range 136).find? fun b =>
    !s.flag F.BED_CTRL_EN b && !s.flag F.BED_STAT_RETIRED b && !s.flag F.BED_STAT_FENCED b && !(s.bed b).swapped
      && s.gau.bed != some b && !(s.gau.take.any fun t => t.1 == b) && !(s.gau.plan.contains b)

/-- A spare is taken for a set, if one is free: as its standby bed, or for a position (R22, R495). -/
def State.takeSpare (s : State) (n : Nat) (pos : Option Nat) : State :=
  match s.freeBed with
  | some b => { s with gau := { s.gau with take := s.gau.take ++ [(b, n, pos)] } }
  | none => s

/-- R505: the migration that a request timeout starts; a second timeout within an hour retires the bed. -/
def State.timeoutMove (s : State) (b : Nat) (retire : Bool) : State :=
  let n := s.fld F.BED_CTRL_SET b
  let s := s.migrateHw b
  if retire then (s.gaugeRetire b).takeSpare n none else s

/-- R513: what a bed reset clears, and the patch copied again (R418). -/
def State.resetBed (s : State) (b : Nat) : State :=
  let s := ((s.setFld F.BED_STAT_OUTST 0 b).setFld F.BED_STAT_SPECFULL 0 b).setFld F.BED_STAT_FENCED 0 b
  s.setBed b { s.bed b with patched := s.flag F.BED_UC_STAT_PATCHED }

/-- R237, R505: a migration ends; a bed that a request timeout fenced is reset, and a timeout that waited starts its own. -/
def State.endMigration (s : State) (n : Nat) (timedOut : Bool) : State :=
  match (s.bset n).mig with
  | none => s
  | some m =>
    let s := (s.setBset n { s.bset n with mig := none }).setFld F.PLQ_MIG_BUSY 0 m.q
    let s := if timedOut then ((((s.setFld F.PLQ_MIG_DRAINTO 1 m.q).bump F.TMO_CNT0_16).expiry).raise 178).resetBed m.old
      else if m.hw then s.resetBed m.old else s.setFld F.BED_STAT_FENCED 0 m.old
    match (s.setBeds n).find? fun b => (s.bed b).toWait.isSome with
    | some b =>
      let retire := (s.bed b).toWait.getD false
      (s.setBed b { s.bed b with toWait := none }).timeoutMove b retire
    | none => s

end Sys2Proof.Machine
end

