-- ==== Sys2Proof/Machine/Boundary.lean ====
section
/-!
DEFINITION. Sys2Proof/Machine/Boundary.lean: rows in flight: their finish, their drop, their release, and course boundaries with
the entry of a channel to RUN (R41 to R49, R83, R88, R92 to R102).
-/
namespace Sys2Proof.Machine

/-! ### Links and cameras -/

/-- The camera entry that a link belongs to. -/
def State.camOfLink (s : State) (l : Nat) : Option Nat :=
  (List.range 32).find? fun k => s.flag F.CXP_CAM_CTRL_EN k && (s.fld F.CXP_CAM_LINKS k).testBit l

/-- Whether every link of a camera is up. -/
def State.camUp (s : State) (k : Nat) : Bool :=
  (List.range 32).all fun l => !(s.fld F.CXP_CAM_LINKS k).testBit l || s.flag F.CXP_LNK_STAT_UP l

/-- R83: the camera takes its TAG_BASE from the first header at or after the boundary of row `row`. -/
def State.rebase (s : State) (k row : Nat) : State := s.setCam k { s.cam k with baseRow := row, want := true, cur := none }

/-- A camera whose line for a row is still to come or is arriving. -/
def linePending : LineSt → Bool
  | .pending => true
  | .arriving => true
  | _ => false

/-- R84: a row is pending for a camera until its line is verified or declared missing. -/
def rowPending (r : IRow) (k : Nat) : Bool := r.fin.isNone && linePending (r.lines.get k .verified)

/-! ### Finish and release -/

def State.updRow (s : State) (n row : Nat) (f : IRow → IRow) : State :=
  let c := s.ich n
  s.setIch n { c with rows := c.rows.map fun r => if r.row = row then f r else r }

def State.delRow (s : State) (n row : Nat) : State :=
  let c := s.ich n
  s.setIch n { c with rows := c.rows.filter fun r => r.row != row }

/-- Camera masks of a row: verified and not (R89). -/
def rowMasks (r : IRow) : Nat × Nat :=
  (r.lines.foldl (fun a e => if e.2 = .verified then a + 2 ^ e.1 else a) 0,
   r.lines.foldl (fun a e => match e.2 with | .failed _ => a + 2 ^ e.1 | _ => a) 0)

/-- R100: the first cause, cameras ascending. -/
def rowCause (r : IRow) : Nat :=
  ((sortBy (fun e => e.1) r.lines).findSome? fun e => match e.2 with | .failed c => some c | _ => none).getD 0

/-- Wales that a camera contributes (R81). -/
def State.camWales (s : State) (k : Nat) : Nat :=
  s.fld F.CXP_CAM_WIDTH k - s.fld F.CXP_CAM_TRIM_0 k - s.fld F.CXP_CAM_TRIM_16 k

/-- The verified wales of a row (R99). -/
def State.goodWales (s : State) (r : IRow) : Nat :=
  r.lines.foldl (fun a e => if e.2 = .verified then a + s.camWales e.1 else a) 0

/-- 0x2110 and 0x6000: a row has its final marker. -/
def State.noteFinal (s : State) (n : Nat) (m : Marker) : State :=
  let c := s.ich n
  let up := match c.last with
    | some l => decide (l.row.toNat ≤ m.row.toNat)
    | none => true
  if up then s.setIch n { c with last := some m } else s

/-- R67: the uninspected WINDOWs of a dropped row. -/
def State.markUninspected (s : State) (n row : Nat) : State :=
  if s.flag F.CXP_CH_ICTRL_UMARKEN n then
    (List.range 64).foldl (fun s o => if (s.odv (0x2100 + n) 0x13).testBit o then s.uninspected o row else s) s
  else s

/-- The consumers of a dropped row pass it (R91), and an instance armed for it is discarded. -/
def State.consumersDrop (s : State) (n row : Nat) : State :=
  (s.consumers n).foldl (fun s k =>
    if s.consPly n k then
      let q := s.consQueue n k
      if s.pinnedOn q then
        let gone := fun (p : Option Inst) => p.filter fun p => !(p.pinned && p.st == .armed && p.row0.toNat == row)
        let s := if s.pinChan q = n then
            let x := s.plq q
            s.setPlq q { x with older := gone x.older, younger := gone x.younger }
          else s
        ((s.popFeed n q row).passCons n k row).resumeSet ((s.setOf q).getD 0)
      else s.raiseRel n k (row + 1)
    else s) s

/-- R99, R101, R102: a row becomes a dropped course. -/
def State.recordDrop (s : State) (n row : Nat) (cause : Nat) : State :=
  let c := s.ich n
  let s := if 64 ≤ c.dlog.length then s.setFld F.CXP_CH_ISTAT_DLOGOVF 1 n
    else s.setIch n { c with dlog := c.dlog ++ [(BitVec.ofNat 64 row, cause)] }
  let c := s.ich n
  let s := s.setIch n { c with dropped := c.dropped + 1, lastDrop := some (row, cause) }
  ((s.bump F.CXP_CH_CNT_16 n).markUninspected n row).raise (128 + n)

/-- A row that owns its slot is dropped: its marker stands at once. -/
def State.dropRow (s : State) (n : Nat) (r : IRow) (cause : Nat) : State :=
  let (ok, bad) := rowMasks r
  let s := (s.delRow n r.row).writeMarker n r.marker 2 cause 0 ok bad
  ((s.noteFinal n (sealMarker r.marker 2 cause 0)).recordDrop n r.row cause).consumersDrop n r.row

/-- R99: the wales of failed cameras take the fill byte. -/
def State.fillFailed (s : State) (n : Nat) (r : IRow) : State :=
  r.lines.foldl (fun s e => match e.2 with
    | .failed _ =>
      s.store (s.slotAddr n r.row + 64 + s.fld F.CXP_CAM_DEST e.1 * s.chBpw n)
        (List.replicate (s.camWales e.1 * s.chBpw n) (BitVec.ofNat 8 (s.fld F.CXP_CH_ICTRL_FILL n)))
    | _ => s) s

/-- The oldest row that has not been released. -/
def State.headRow (s : State) (n : Nat) : Option IRow := (s.ich n).rows.find? fun r => !r.rel

/-- R93, R96: once a finished row is the oldest, its marker becomes valid. -/
def State.showHead (s : State) (n : Nat) : State :=
  match s.headRow n with
  | none => s
  | some r =>
    if r.written then s
    else
      let (ok, bad) := rowMasks r
      match r.fin with
      | none => s
      | some .complete =>
        let w := s.fld F.CXP_CH_WALES n
        (((s.writeMarker n r.marker 0 0 w ok bad).noteFinal n (sealMarker r.marker 0 0 w)).updRow n r.row fun r => { r with written := true })
      | some .partialCourse =>
        let w := s.goodWales r
        (((s.writeMarker n r.marker 1 (rowCause r) w ok bad).noteFinal n (sealMarker r.marker 1 (rowCause r) w)).updRow n r.row
          fun r => { r with written := true })
      | some .spec =>
        ((s.writeMarker n r.marker 3 0 (s.fld F.CXP_CH_WALES n) ok bad).setFld F.CXP_CH_ISTAT_SPECOPEN 1 n).updRow n r.row
          fun r => { r with written := true, open_ := true }

/-- Whether every line of a row is settled, and whether all its data is in stash (R96, R97). -/
def rowSettled (r : IRow) : Bool := r.lines.all fun e => match e.2 with | .verified => true | .failed _ => true | _ => false
def rowInStash (r : IRow) : Bool := r.lines.all fun e => match e.2 with | .verified => true | .unresolved => true | _ => false

/-- R96, R97, R99: finish a row whose lines allow it. -/
def State.checkRow (s : State) (n row : Nat) : State :=
  match (s.ich n).rows.find? fun r => decide (r.row = row) && r.fin.isNone with
  | none => s
  | some r =>
    if rowSettled r then
      let (ok, bad) := rowMasks r
      if bad = 0 then
        let c := s.ich n
        ((s.setIch n { c with completed := c.completed + 1 }).updRow n row fun r => { r with fin := some .complete }).showHead n
      else if s.flag F.CXP_CH_ICTRL_PARTPOL n && decide (ok ≠ 0) then
        let c := s.ich n
        let s := (s.setIch n { c with partials := c.partials + 1 }).fillFailed n r
        ((s.bump F.CXP_CH_CNT_0 n).updRow n row fun r => { r with fin := some .partialCourse }).showHead n
      else (s.dropRow n r (rowCause r)).showHead n
    else if s.flag F.CXP_CH_ICTRL_SPEC n && rowInStash r then
      (s.updRow n row fun r => { r with fin := some .spec }).showHead n
    else s

/-- A camera's line for a row takes a new state. -/
def State.setLine (s : State) (n row k : Nat) (x : LineSt) : State :=
  let s := s.updRow n row fun r => { r with lines := r.lines.set k x }
  let s := match x with
    | .arriving => s
    | _ => if (s.cam k).cur = some row then s.setCam k { s.cam k with cur := none } else s
  s.checkRow n row

/-- Every line of a camera that is pending fails with a cause (R105, R106). -/
def State.failCam (s : State) (k cause : Nat) : State :=
  let n := s.fld F.CXP_CAM_CTRL_CHAN k
  ((s.ich n).rows.filter fun r => rowPending r k).foldl (fun s r => s.setLine n r.row k (.failed cause)) s

/-- R93: release the oldest row to the consumers. -/
def State.releaseRow (s : State) (n : Nat) (r : IRow) : State :=
  let spec := decide (r.fin = some .spec)
  let s := if spec then s.updRow n r.row fun r => { r with rel := true } else s.delRow n r.row
  let s := (s.consumers n).foldl (fun s k =>
    if s.consPly n k then
      let q := s.consQueue n k
      if s.pinnedOn q then
        if s.pinChan q = n then
          let c := s.ich n
          (s.setIch n { c with feed := c.feed ++ [⟨q, r.row, spec⟩] }).pinTry q
        else s.passCons n k r.row
      else s.raiseRel n k (r.row + 1)
    else s) s
  s.showHead n

/-! ### Boundaries -/

/-- R92, R98: the row of a boundary takes its slot, or is dropped with cause RING_FULL. -/
def State.admitRow (s : State) (n : Nat) : State :=
  let x := s.chan n
  match x.marker with
  | none => s
  | some m =>
    let row := x.row.toNat
    if s.maySlot n row then
      let c := s.ich n
      let slots := max 1 (s.fld F.CXP_CH_NSLOTS n)
      let lines := (s.camsOf n).map fun k =>
        (k, if !s.camUp k then LineSt.failed 3 else if (s.cam k).lost then .failed 8 else .pending)
      let s := s.setIch n { c with
        waiting := c.waiting.filter fun w => w.row.toNat % slots != row % slots
        rows := c.rows ++ [⟨row, m, lines, none, false, false, false⟩] }
      s.checkRow n row
    else
      let c := s.ich n
      let s := s.setIch n { c with waiting := c.waiting ++ [m] }
      let s := (s.setFld F.CXP_CH_ISTAT_OVERFLOWED 1 n).noteFinal n (sealMarker m 2 1 0)
      (s.recordDrop n row 1).consumersDrop n row

/-- The channels that take a boundary of channel `n`: itself, or every member of its group in RUN (R46). -/
def State.boundaryOf (s : State) (n : Nat) : List Nat :=
  if s.locked n then (s.members n).filter fun m => (s.chan m).st == .run else [n]

/-- R48: trigger packets of a boundary on the links of every member of the group. -/
def State.triggerGroup (s : State) (n : Nat) : State :=
  let g := if s.locked n then s.members n else [n]
  if (s.boundaryOf n).any (fun m => s.flag F.TIO_CH_CTRL_TRIGEN m) && decide (s.bsrc n ≠ 3) then
    g.foldl (fun s m => (s.trigLinks m).foldl (fun s l => s.send (.trigger m l (s.chan n).row)) s) s
  else s

/-- A boundary of channel `n` and of the members of its group that are in RUN. -/
def State.boundaryAll (s : State) (n : Nat) (time : Nat) (pos : Int) : State :=
  let g := s.boundaryOf n
  let s := g.foldl (fun s m => s.boundary m time pos) s
  let s := (s.triggerGroup n).reproject
  g.foldl (fun s m => if s.flag F.CXP_CH_ISTAT_RUN m then s.admitRow m else s) s

/-- The interpolated position at a time that may lie before the last count edges; a time before all recorded edges leaves it
open (R39). -/
def State.encPosAt (s : State) (e t : Nat) : Int × State :=
  let x := s.enc e
  let after := (x.edges.filter fun y => decide (t < y)).length
  if after = 0 then
    let f := encProgress x t
    (x.count.toInt * 65536 + (if s.upstream e then -(f : Int) else f), s)
  else if after < x.edges.length then
    let y := { x with edges := x.edges.drop after, count := if s.upstream e then x.count + BitVec.ofNat 64 after else x.count - BitVec.ofNat 64 after }
    let f := encProgress y t
    (y.count.toInt * 65536 + (if s.upstream e then -(f : Int) else f), s)
  else let (v, s) := s.fresh; (signedOf 64 v, s)

/-- The next boundary of a channel that has come, by its source (R42, R43): its time, its encoder position and the next k. -/
def State.dueBoundary (s : State) (n : Nat) : Option (Nat × Int × Int × State) :=
  let x := s.chan n
  if s.bsrc n = 1 then
    let p := s.encPos (s.encOf n)
    let d : Int := s.fld F.TIO_CH_DIV (s.srcChan n)
    if x.p0 + x.k * d ≤ p then some (s.now, p, x.k + 1, s)
    else if !x.revHold && decide (p < x.p0 + (x.k - 1) * d) then some (s.now, p, x.k - 1, s)
    else none
  else if s.bsrc n = 2 then
    let t := x.t0 + x.k.toNat * s.fld F.TIO_CH_PERIOD (s.srcChan n)
    if t ≤ s.now then
      let (p, s) := if s.encValid n then s.encPosAt (s.encOf n) t else (0, s)
      some (t, p, x.k + 1, s)
    else none
  else none

/-- The k of every channel that takes the boundaries of `n`. -/
def State.setK (s : State) (n : Nat) (k : Int) : State :=
  (s.boundaryOf n).foldl (fun s m => s.setChan m { s.chan m with k := k }) s

def execCourseBoundary (dt : Nat) (n : Nat) (s : State) : Host.Outcome State Fault Refusal :=
  let s := s.advance dt
  .next (s.when (decide (n < 16) && decide (s.srcChan n = n) && (s.chan n).st == .run) fun s =>
    match s.dueBoundary n with
    | some (t, p, k, s) => (s.boundaryAll n t p).setK n k
    | none => s)

/-! ### Entry to RUN (R42, R46, R83, R88, R91, R95) -/

/-- R94, R95: whether a channel's ring fails the sizing rule. -/
def State.ringShort (s : State) (n : Nat) : Bool :=
  let trec := (s.fld F.TMO_BEDREQ + s.fld F.TMO_DRAIN + 4) * 1000
  let thold := s.odv (0x2100 + n) 0x16 * 1000
  decide (s.fld F.CXP_CH_NSLOTS n < ceilDiv (trec + thold) (max 1 (s.odv (0x2100 + n) 0x15)) + 3)

/-- R81: the ranges of a channel's cameras cover its course exactly. -/
def State.coverOk (s : State) (n : Nat) : Bool :=
  let rs := sortBy (fun (r : Nat × Nat) => r.1) ((s.camsOf n).map fun k => (s.fld F.CXP_CAM_DEST k, s.camWales k))
  let end_ := rs.foldl (fun (a : Option Nat) r => match a with
    | some x => if r.1 = x ∧ 0 < r.2 then some (x + r.2) else none
    | none => none) (some 0)
  end_ == some (s.fld F.CXP_CH_WALES n) && !(s.camsOf n).isEmpty

/-- The stash range of a channel's ring. -/
def State.ringRange (s : State) (n : Nat) : Nat × Nat :=
  (stashBase + s.fld F.CXP_CH_RING_BASE n * 65536, s.fld F.CXP_CH_RING_SIZE n * 65536)

def overlap (a b : Nat × Nat) : Bool := decide (a.1 < b.1 + b.2) && decide (b.1 < a.1 + a.2)

/-- R88: the ring holds at least 4 slots, and meets no other channel's ring and no result or command block. Rings of channels that
are neither enabled nor out of IDLE do not count (DEDUCED, notes/assumptions/81.md). -/
def State.ringOk (s : State) (n : Nat) : Bool :=
  let r := s.ringRange n
  decide (4 ≤ s.slotsOf n) && (List.range 16).all fun m =>
    let blk := fun (sub len : Nat) => let a := s.odv (0x2100 + m) sub; decide (a ≠ 0) && overlap r (a, len)
    !(decide (m ≠ n) && (decide (s.odv (0x2100 + m) 1 = 1) || (s.chan m).st != .idle) && overlap r (s.ringRange m))
      && !blk 0x1E 64 && !blk 0x1F 32

/-- The checks of R458 that refuse RUN: R81, R88, R408. -/
def State.runOk (s : State) (n : Nat) : Bool := s.coverOk n && s.ringOk n && s.ddrReady

/-- The channel's pinned queue is enabled again with it (R242, R512, DEDUCED, notes/assumptions/80.md). -/
def State.pinnedBack (s : State) (n : Nat) : State :=
  (List.range 16).foldl (fun s q =>
    if s.flag F.PLQ_CTRL_PINEN q && decide (s.pinChan q = n) && s.consumes q n && s.flag F.PLQ_BIND_BOUND q && !s.qBindoff q then
      s.setFld F.PLQ_CTRL_EN 1 q
    else s) s

/-- Ingest's part of the entry: slots, cameras, release rows. -/
def State.ingestEnter (s : State) (n r0 : Nat) : State :=
  let s := s.setFld F.CXP_CH_NSLOTS (s.slotsOf n) n
  let s := (s.setFld F.CXP_CH_ISTAT_RUN (s.fld F.CXP_CH_ICTRL_EN n) n).setFld F.CXP_CH_ISTAT_RINGSHORT (b2n (s.ringShort n)) n
  let s := (List.range (s.fld F.CXP_CH_NSLOTS n)).foldl (fun s i => s.store (s.slotAddr n i) (List.replicate 8 0xFF)) s
  let s := ((s.camsOf n).foldl (fun s k => s.rebase k r0) s).pinnedBack n
  let c := s.ich n
  let s := s.setIch n { c with rows := [], passed := [], feed := [], waiting := [] }
  (List.range 4).foldl (fun s k => if s.consPly n k then s.raiseRel n k r0 else s) s

/-- What a member takes over from its leader: the row counter, and the boundary rule as it stands. -/
def State.followLeader (s : State) (m : Nat) : State :=
  let l := s.chan (s.srcChan m)
  let d : Int := s.fld F.TIO_CH_DIV (s.srcChan m)
  let r0 := l.row + 1
  s.setChan m { s.chan m with
    row := l.row, r0 := r0, p0 := l.p0 + ((r0.toNat : Int) - l.r0.toNat) * d, t0 := l.t0, k := l.k, revHold := l.revHold }

/-- The entry of channel `n` to RUN. -/
def State.enterRun (s : State) (n : Nat) : State :=
  let src := s.srcChan n
  let x := s.chan n
  let r0 := x.row + 1
  let fresh : Chan := { x with
    st := .run, r0 := r0, p0 := s.encPos (s.encOf n), t0 := s.now, k := 1, revHold := s.flag F.TIO_CH_CTRL_REVHOLD src
    reversed := false, lastTime := none, interval := none, log := [], marker := none }
  let s := s.setChan n fresh
  if src = n then
    -- members already waiting in RUN take the leader's values with it
    let s := ((s.members n).filter fun m => decide (m ≠ n) && (s.chan m).st == .run).foldl (fun s m =>
      s.setChan m { s.chan m with row := x.row, r0 := r0, p0 := fresh.p0, t0 := fresh.t0, k := 1, revHold := fresh.revHold }) s
    let s := s.ingestEnter n r0.toNat
    if s.bsrc n = 1 ∨ s.bsrc n = 2 then
      let p := if s.encValid n || decide (s.bsrc n = 1) then fresh.p0 else 0
      s.boundaryAll n s.now p
    else s
  else
    let s := if (s.chan src).st == .run then s.followLeader n else s
    s.ingestEnter n (s.chan n).r0.toNat

def execChannelEnterRun (dt : Nat) (n : Nat) (s : State) : Host.Outcome State Fault Refusal :=
  let s := s.advance dt
  .next (s.when (decide (n < 16) && (s.chan n).st == .idle && s.chanWanted n && s.runOk n) fun s =>
    (s.enterRun n).setOd (0x2100 + n) 2 2)

/-- R446: a channel's bind-off has ended when ingest's and its pinned queue's have. -/
def State.settleChan (s : State) (n : Nat) : State :=
  let busy := s.flag F.CXP_CH_ISTAT_BINDOFF n || (List.range 16).any fun q =>
    decide (s.pinChan q = n) && ((s.plq q).bindAfter || (s.qBindoff q && s.flag F.PLQ_CTRL_PINEN q))
  if (s.chan n).st == .bindoff && !busy then
    (s.setChan n { s.chan n with st := .idle }).setOd (0x2100 + n) 2 2
  else s

def State.settleChans (s : State) : State := (List.range 16).foldl State.settleChan s

end Sys2Proof.Machine
end

