-- ==== Sys2Proof/Machine/Container.lean ====
section
/-!
DEFINITION. Sys2Proof/Machine/Container.lean: signed containers and their verification, measurement registers, key slots, the boot
flash with its headers and stores (R403 to R406, R421 to R426, R436).
-/
namespace Sys2Proof.Machine

/-- Bytes [o, o + n) of a list, 0 where it is shorter. -/
def slice (l : List Byte) (o n : Nat) : List Byte := (List.range n).map fun k => l.getD (o + k) 0

/-- A little-endian number in a list of bytes. -/
def leAt (l : List Byte) (o n : Nat) : Nat := ofLeBytes (slice l o n)

/-- A big-endian number, as RFC 8554 writes its typecodes. -/
def beAt (l : List Byte) (o n : Nat) : Nat := ofLeBytes (slice l o n).reverse

/-- One step of CRC-32 with the IEEE 802.3 polynomial in reflected form (R403). -/
def crcStep (c : Nat) : Nat := if c % 2 = 1 then c / 2 ^^^ 0xEDB88320 else c / 2

/-- CRC-32 (IEEE 802.3 polynomial) of a byte string. -/
def crc32 (l : List Byte) : Nat :=
  l.foldl (fun c b => (List.range 8).foldl (fun c _ => crcStep c) (c ^^^ b.toNat)) 0xFFFFFFFF ^^^ 0xFFFFFFFF

/-! ### Containers (R405) -/

/-- A parsed container. -/
structure Container where
  typ : Nat
  signer : Nat
  version : Nat
  load : Nat
  entry : Nat
  pub : List Byte
  payload : List Byte
  /-- What the signature covers, the signature, and the whole container. -/
  msg : List Byte
  sig : List Byte
  whole : List Byte

/-- Length of a signature (R405). -/
def sigLen : Nat := 3284

/-- Parse a container of a type: FORMAT where MAGIC, TYPE or a reserved field is not as R405 gives it. -/
def parseContainer (l : List Byte) (typ : Nat) : Option Container :=
  let n := leAt l 0x0C 4
  let t := leAt l 4 1
  if leAt l 0 4 = 0x4D494755 ∧ t = typ ∧ leAt l 5 1 ≤ 2 ∧ leAt l 6 2 = 0 ∧ leAt l 0x1C 4 = 0 ∧ leAt l 0x5C 4 = 0
      ∧ (t = 1 ∨ (leAt l 0x10 8 = 0 ∧ leAt l 0x18 4 = 0)) ∧ 0x60 + n + sigLen ≤ l.length then
    some { typ := t, signer := leAt l 5 1, version := leAt l 8 4, load := leAt l 0x10 8, entry := leAt l 0x18 4
           pub := slice l 0x20 60, payload := slice l 0x60 n, msg := slice l 0 (0x60 + n)
           sig := slice l (0x60 + n) sigLen, whole := slice l 0 (0x60 + n + sigLen) }
  else none

/-- R421: the parameter sets of a public key: L, LMS and LM-OTS typecodes. -/
def pubOk (p : List Byte) : Bool := decide (p.length = 60) && decide (beAt p 0 4 = 2 ∧ beAt p 4 4 = 7 ∧ beAt p 8 4 = 4)

/-- R421: the parameter sets of a signature, level by level. -/
def sigOk (g : List Byte) : Bool :=
  decide (g.length = sigLen) && decide (beAt g 0 4 = 1) && decide (beAt g 8 4 = 4 ∧ beAt g 1132 4 = 7)
    && decide (beAt g 1616 4 = 7 ∧ beAt g 1620 4 = 4) && decide (beAt g 1676 4 = 4 ∧ beAt g 2800 4 = 7)

/-! ### Key slots (R422, R423) -/

/-- The hash in a slot: V0, V1, I0, I1. -/
def State.slotHash (s : State) (k : Nat) : BitVec 256 := s.kth.hash.get k (if k < 2 then Config.vendorHash k else 0)

/-- KTH_SLOTS[7:0]. -/
def State.slotBits (s : State) : Nat :=
  (List.range 4).foldl (fun a k => a + b2n (s.kth.prog.contains k) * 2 ^ (2 * k) + b2n (s.kth.revoke.contains k) * 2 ^ (2 * k + 1)) 0

/-- A slot is usable. -/
def State.slotUsable (s : State) (k : Nat) : Bool := s.kth.prog.contains k && !s.kth.revoke.contains k

/-- A public key hashes to a usable slot of the list. -/
def State.keyIn (s : State) (ks : List Nat) (pub : List Byte) : Bool :=
  ks.any fun k => s.slotUsable k && decide (Config.sha256 pub = s.slotHash k)

/-- The slots that may sign a type (R423); none for SIGNER 2, whose key is the device's own (R436). -/
def slotsFor (typ signer : Nat) : List Nat :=
  match signer, typ with
  | 0, 3 => []
  | 0, _ => [0, 1]
  | 1, 1 => if Config.fwInt then [2, 3] else []
  | 1, 2 => []
  | 1, _ => [2, 3]
  | _, _ => []

/-- Whether a container's key is one that its SIGNER and TYPE allow. -/
def State.keyAllowed (s : State) (c : Container) : Bool :=
  if c.signer = 2 then decide (c.typ = 3) && decide (c.pub = Config.level0Key) else s.keyIn (slotsFor c.typ c.signer) c.pub

/-- KTH_STAT.ERR codes. -/
def eFormat : Nat := 1
def eKeyhash : Nat := 2
def eSig : Nat := 3
def eParam : Nat := 4

/-- R423: the error of a container, in the order of checking FORMAT, KEYHASH, PARAM, SIG; the container where it is accepted. -/
def State.verify (s : State) (l : List Byte) (typ : Nat) : Except Nat Container :=
  match parseContainer l typ with
  | none => .error eFormat
  | some c =>
    if !s.keyAllowed c then .error eKeyhash
    else if !(pubOk c.pub && sigOk c.sig) then .error eParam
    else if !Config.hssVerify c.pub c.msg c.sig then .error eSig
    else .ok c

/-- A verification, its failure counted in KTH_CNT. -/
def State.verifyCount (s : State) (l : List Byte) (typ : Nat) : Except Nat Container × State :=
  match s.verify l typ with
  | .error e => (.error e, s.bump F.KTH_CNT_24)
  | .ok c => (.ok c, s)

/-! ### Measurement registers (R426) -/

def State.meas (s : State) (m : Nat) : BitVec 256 :=
  BitVec.ofNat 256 ((List.range 8).foldl (fun a w => a + s.fld F.KTH_MEAS (8 * m + w) * 2 ^ (32 * w)) 0)

def State.setMeas (s : State) (m : Nat) (h : BitVec 256) : State :=
  (List.range 8).foldl (fun s w => s.setFld F.KTH_MEAS (bitsOf h.toNat (32 * w + 31) (32 * w)) (8 * m + w)) s

/-- M := SHA-256(M ‖ h). -/
def State.extend (s : State) (m : Nat) (h : BitVec 256) : State :=
  s.setMeas m (Config.sha256 (leBytes 32 (s.meas m).toNat ++ leBytes 32 h.toNat))

/-- Register 4: the RPR_ map registers in address order, 0x100 to 0x53C. -/
def State.rprBytes (s : State) : List Byte :=
  let w := fun (k : RegKind) (n : Nat) => (List.range n).flatMap fun i => leBytes 4 (s.reg ⟨k, i, 0⟩).toNat
  w .RPR_NEED 136 ++ w .RPR_SLICE 64 ++ w .RPR_BEDF 5 ++ w .RPR_BEDR 5

/-- Register 5: the retire mask and the frequency tables of all beds, in address order (DEDUCED, notes/assumptions/73.md). -/
def State.gauBytes (s : State) : List Byte :=
  ((List.range 5).flatMap fun i => leBytes 4 (s.reg ⟨.GAU_RETIRE, i, 0⟩).toNat)
    ++ (List.range 136).flatMap fun b => (List.range 16).flatMap fun k => leBytes 4 (s.reg ⟨.GAU_B_VF, b, k⟩).toNat

/-- Register 7. -/
def State.measSlots (s : State) : State :=
  s.setMeas 7 (Config.slotsHash ((List.range 4).map s.slotHash) s.slotBits Config.fwInt)

/-! ### Boot flash (R402 to R404) -/

/-- A byte of the flash; erased bytes read 0xFF. -/
def State.flashByte (s : State) (a : Nat) : Byte := s.cast.flash.get a 0xFF

def State.flashBytes (s : State) (a n : Nat) : List Byte := (List.range n).map fun k => s.flashByte (a + k)

/-- Image regions: base and end of region A (0) and B (1). -/
def State.flashRegion (s : State) (h : Nat) : Nat × Nat :=
  let half := (s.cast.size - 0x20000) / 2
  let len := if s.cast.erase = 0 then half else half / s.cast.erase * s.cast.erase
  if h = 0 then (0x20000, 0x20000 + len) else (0x20000 + len, s.cast.size)

/-- A header of the flash, where it is valid; entries outside its own region or of a reserved type are ignored (R403). -/
def State.flashHdr (s : State) (h : Nat) : Option FlashHdr :=
  let b := s.flashBytes (h * 0x10000) 0xD4
  let n := leAt b 6 2
  if leAt b 0 4 = 0x46424755 ∧ 1 ≤ n ∧ n ≤ 16 ∧ leAt b 0xD0 4 = crc32 (b.take 0xD0) then
    let (lo, hi) := s.flashRegion h
    let dir := (List.range n).map fun i =>
      let o := 0x10 + 12 * i
      (⟨leAt b o 1, leAt b (o + 1) 1, leAt b (o + 4) 4, leAt b (o + 8) 4⟩ : DirEnt)
    some ⟨leAt b 8 4, (leAt b 0xC 4).testBit 0,
      dir.filter fun e => decide (1 ≤ e.typ ∧ e.typ ≤ 5 ∧ lo ≤ e.off ∧ e.off + e.len ≤ hi)⟩
  else none

/-- The valid headers, the higher SEQ first; of equal ones A first (DESIGN CHOICE, notes/assumptions/30.md). -/
def State.flashOrder (s : State) : List (Nat × FlashHdr) :=
  match s.flashHdr 0, s.flashHdr 1 with
  | none, none => []
  | some a, none => [(0, a)]
  | none, some b => [(1, b)]
  | some a, some b => if a.seq < b.seq then [(1, b), (0, a)] else [(0, a), (1, b)]

/-- The images of a type that the header in use names. -/
def State.flashImages (s : State) (typ : Nat) : List (List Byte) :=
  match s.cast.used with
  | none => []
  | some h => match s.flashHdr h with
    | none => []
    | some f => (f.dir.filter fun e => e.typ == typ).map fun e => s.flashBytes e.off e.len

/-- Write bytes into the flash. -/
def flashPut (f : KV Nat Byte) (a : Nat) (l : List Byte) : KV Nat Byte :=
  ((List.range l.length).foldl (fun f k => f ++ [(a + k, l.getD k 0)]) (f.filter fun e => !(decide (a ≤ e.1) && decide (e.1 < a + l.length))))

/-- The bytes of a header with its directory. -/
def hdrBytes (seq : Nat) (attest : Bool) (dir : List DirEnt) : List Byte :=
  let body := leBytes 4 0x46424755 ++ leBytes 2 1 ++ leBytes 2 dir.length ++ leBytes 4 seq ++ leBytes 4 (b2n attest)
    ++ (List.range 16).flatMap fun i => match dir[i]? with
      | some e => leBytes 1 e.typ ++ leBytes 1 e.slot ++ leBytes 2 0 ++ leBytes 4 e.off ++ leBytes 4 e.len
      | none => leBytes 12 0
  body ++ leBytes 4 (crc32 body)

/-- Lay images out one after another from an offset: their entries and the offset after them. -/
def layOut : Nat → List (Nat × Nat × List Byte) → List (DirEnt × List Byte)
  | _, [] => []
  | o, (t, k, l) :: rest => (⟨t, k, o, l.length⟩, l) :: layOut (o + l.length) rest

/-- R404: store into the region of the header not in use: the images of the header in use that `keep` leaves, and the new one. `none`
where the region or the directory has no room. -/
def State.flashStore (s : State) (keep : DirEnt → Bool) (new : Option (Nat × Nat × List Byte)) : Option State :=
  let used := s.flashOrder.head?
  let h := match used with | some (0, _) => 1 | some _ => 0 | none => 0
  let old := match used with
    | some (_, f) => (f.dir.filter keep).map fun e => (e.typ, e.slot, s.flashBytes e.off e.len)
    | none => []
  let all := old ++ new.toList
  let (lo, hi) := s.flashRegion h
  let out := layOut lo all
  let size := out.foldl (fun a e => a + e.2.length) 0
  if 16 < all.length ∨ hi < lo + size then none
  else
    let seq := match used with | some (_, f) => f.seq + 1 | none => 1
    let attest := match used with | some (_, f) => f.attest | none => false
    let gone := fun (a : Nat) => (decide (lo ≤ a) && decide (a < hi)) || (decide (h * 0x10000 ≤ a) && decide (a < (h + 1) * 0x10000))
    let f := s.cast.flash.filter fun e => !gone e.1
    let f := out.foldl (fun f e => flashPut f e.1.off e.2) f
    let f := flashPut f (h * 0x10000) (hdrBytes seq attest (out.map (·.1)))
    some ({ s with cast := { s.cast with flash := f } }.send (.flashWrite h))

end Sys2Proof.Machine
end

