-- ==== Sys2Proof/Machine/HookOps.lean ====
section
/-!
DEFINITION. Sys2Proof/Machine/HookOps.lean: hook threads and their registers, the issue of an instruction with its checks and
load delay, the entry of exceptions, and what resets make of a thread (09_hook_core.md, 11_exceptions_capabilities.md).
-/
namespace Sys2Proof

/-! ### Banks and registers (R285, R286) -/

/-- A bank that nothing has written. -/
def Bank.init : Bank := ⟨[], [], Machine.capNull, 0, 1, 0, 0, none⟩

/-- Base of a thread's lifeline stack (R357). -/
def lifelineBase (core thr : Nat) : Nat := 0x203C000 + 0x40000 * core + 0x1000 * thr

/-- c15 of the lifeline bank (R340). -/
def lifelineCap (core thr : Nat) : CapV :=
  let b := lifelineBase core thr
  Machine.capMk (b + 0x1000) 0 (b / 65536 % 2) (b % 65536) 0x1000 0x1B 0 true

/-- A thread after a reset of the hook complex (R278, R340). -/
def Thread.reset (core thr : Nat) : Thread where
  st := if thr = 0 then .running else .stopped
  pcap := Machine.capRoot
  stat := 0
  sscap := Machine.capNull
  vtab := Machine.capRoot
  sstat := 0
  slink := Machine.capNull
  gates := []
  banks := [(0, { Bank.init with c := [(0, Machine.capRoot)] }), (8, { Bank.init with c := [(15, lifelineCap core thr)] })]
  vec := []
  active := [0]
  loads := []
  sb := []
  fault := none
  esc := none
  barrier := none
  started := 0
  waits := 0
  kicked := 0

/-- The thread's level. -/
def Thread.lvl (t : Thread) : Nat := t.stat.toNat % 16

def Thread.bankOf (t : Thread) (l : Nat) : Bank := t.banks.get l Bank.init
def Thread.setBank (t : Thread) (l : Nat) (b : Bank) : Thread := { t with banks := t.banks.set l b }

/-- The bank in use (R285). -/
def Thread.bank (t : Thread) : Bank := t.bankOf t.lvl
def Thread.updBank (t : Thread) (f : Bank → Bank) : Thread := t.setBank t.lvl (f t.bank)

/-- The register of a bank that g`n` names with window pointer `wp` (R286). -/
def gPhys (wp n : Nat) : Nat :=
  if n < 8 then n
  else if n < 16 then 56 + 8 * ((wp + 5) % 6) + (n - 8)
  else if n < 24 then 8 + 8 * wp + (n - 16)
  else 56 + 8 * wp + (n - 24)

def Bank.reg (b : Bank) (p : Nat) : DWord := b.r.get p 0
def Bank.setReg (b : Bank) (p : Nat) (v : DWord) : Bank := { b with r := b.r.set p v }

/-- g, w, c, f and v registers of the bank in use. -/
def Thread.g (t : Thread) (n : Nat) : Nat := (t.bank.reg (gPhys t.bank.wp n)).toNat
def Thread.setG (t : Thread) (n v : Nat) : Thread :=
  t.updBank fun b => b.setReg (gPhys b.wp n) (BitVec.ofNat 64 v)
def Thread.w (t : Thread) (n : Nat) : Nat := (t.bank.reg (104 + n)).toNat
def Thread.setW (t : Thread) (n v : Nat) : Thread := t.updBank fun b => b.setReg (104 + n) (BitVec.ofNat 64 v)
def Thread.c (t : Thread) (n : Nat) : CapV := t.bank.c.get n Machine.capNull
def Thread.setC (t : Thread) (n : Nat) (v : CapV) : Thread := t.updBank fun b => { b with c := b.c.set n v }
def Thread.v (t : Thread) (k : Nat) : Nat := (t.vec.get k 0).toNat

/-- R365: f(4k + j) lies in bits [64j + 63 : 64j] of v_k. -/
def Thread.f (t : Thread) (i : Nat) : Nat := t.v (i / 4) / 2 ^ (64 * (i % 4)) % 2 ^ 64

/-- Registers as they lie in the thread, for overlap (R280, R282). -/
def Thread.rg (t : Thread) (n : Nat) : HReg := .g t.lvl (gPhys t.bank.wp n)
def Thread.rw (t : Thread) (n : Nat) : HReg := .g t.lvl (104 + n)
def Thread.rc (t : Thread) (n : Nat) : HReg := .c t.lvl n

/-- Whether two names reach the same register bits; v_k overlaps f(4k) to f(4k + 3) (R365). -/
def HReg.overlaps : HReg → HReg → Bool
  | .f i, .v k => decide (i / 4 = k)
  | .v k, .f i => decide (i / 4 = k)
  | a, b => decide (a = b)

/-- Whether a register is an f or a v register (R374). -/
def HReg.isFp : HReg → Bool
  | .f _ => true
  | .v _ => true
  | _ => false

/-! ### STAT (R341) -/

def Thread.sbits (t : Thread) (hi lo : Nat) : Nat := bitsOf t.stat.toNat hi lo
def Thread.setSbits (t : Thread) (hi lo v : Nat) : Thread := { t with stat := BitVec.ofNat 64 (putBits t.stat.toNat hi lo v) }
def Thread.sbit (t : Thread) (k : Nat) : Bool := t.stat.toNat.testBit k

/-- The controls of floating-point instructions. -/
def Thread.fctl (t : Thread) : Machine.FCtl := ⟨t.sbits 16 14, t.sbit 17, t.sbit 18⟩

/-- Set sticky flags from a mask in the order of R168: NV, DZ, OF, UF, NX (R243). -/
def Thread.sticky (t : Thread) (m : Nat) : Thread := t.setSbits 12 8 (t.sbits 12 8 ||| (m % 32))

/-- Write N, Z, C and V. -/
def Thread.setNZCV (t : Thread) (n z c v : Bool) : Thread := t.setSbits 7 4 (b2n n + 2 * b2n z + 4 * b2n c + 8 * b2n v)

/-- A load-return fault is pending at the current level (R345). -/
def Thread.lfNow (x : Thread) : Bool := x.bank.lf.isSome

/-- R514: the thread's state after a thread reset, its stores drained; PCAP takes VTAB's value. -/
def Thread.restart (x : Thread) (c t now : Nat) : Thread :=
  { Thread.reset c t with
    st := .running, pcap := x.vtab, vtab := x.vtab, gates := x.gates, started := now, kicked := now }

namespace Machine

/-! ### Threads of the state -/

/-- The thread `t` of core `c`. -/
def State.th (s : State) (c t : Nat) : Thread := s.hook.th.get (4 * c + t) (Thread.reset c t)
def State.setTh (s : State) (c t : Nat) (x : Thread) : State :=
  { s with hook := { s.hook with th := s.hook.th.set (4 * c + t) x } }
def State.updTh (s : State) (c t : Nat) (f : Thread → Thread) : State := s.setTh c t (f (s.th c t))

/-- The core's threads live: in voted mode the three cores are one, kept as core 0 (R278). -/
def State.coreLive (s : State) (c : Nat) : Bool := decide (c = 0) || (!s.voted && decide (c < 3))

/-- Mark the dirty bit of group `k` (R372). -/
def State.markDirty (s : State) (c t k : Nat) : State :=
  s.setFld F.HKC_T_FPST_DIRTY (s.fld F.HKC_T_FPST_DIRTY c t ||| 2 ^ k) c t

/-- Write the low `bits` bits of v_k and mark its group. -/
def State.setV (s : State) (c t k bits v : Nat) : State :=
  (s.updTh c t fun x =>
    { x with vec := x.vec.set k (BitVec.ofNat 4096 (x.v k / 2 ^ bits * 2 ^ bits + v % 2 ^ bits)) }).markDirty c t k

/-- Write f`i` (R304, R365). -/
def State.setF (s : State) (c t i v : Nat) : State :=
  (s.updTh c t fun x =>
    { x with vec := x.vec.set (i / 4) (BitVec.ofNat 4096 (putBits (x.v (i / 4)) (64 * (i % 4) + 63) (64 * (i % 4)) v)) }).markDirty
    c t (i / 4)

/-! ### Exceptions -/

/-- An exception with no escalation. -/
def exc (vec code faddr detail : Nat) : Exc := ⟨vec, code, 0, faddr, detail, false, false, false⟩

/-- A synchronous fault waits for its entry; a failed spill or fill (R289), and any fault at level 8, escalates (R355). -/
def State.setFault (s : State) (c t : Nat) (e : Exc) : State :=
  s.updTh c t fun x =>
    if e.esc ≠ 0 then { x with esc := some e }
    else if x.lvl = 8 then { x with esc := some { e with esc := 5 } }
    else { x with fault := some e }

/-- An escalation with its ESC code (R350). -/
def State.escalate (s : State) (c t code : Nat) (e : Exc) : State :=
  s.updTh c t fun x => { x with esc := some { e with esc := code }, fault := none }

/-- A load's data is written into its destination, or its fault becomes pending at its level; one fault is held per level
(R345). -/
def State.deliver (s : State) (c t : Nat) (l : HLoad) : State :=
  if l.fault ≠ 0 then
    s.updTh c t fun x =>
      let b := x.bankOf l.lvl
      x.setBank l.lvl
        { b with lf := match b.lf with
            | some f => some { f with multi := true }
            | none => some ⟨l.fault, l.addr, l.pc, false, l.slotB⟩ }
  else
    match l.dest with
    | none => s
    | some (.g lv p) => s.updTh c t fun x => x.setBank lv ((x.bankOf lv).setReg p (BitVec.ofNat 64 l.val))
    | some (.c lv i) =>
      s.updTh c t fun x =>
        let b := x.bankOf lv
        x.setBank lv { b with c := b.c.set i ⟨BitVec.ofNat 128 l.val, l.tag⟩ }
    | some (.f i) => s.setF c t i l.val
    | some (.v k) => s.setV c t k l.bits l.val

/-- Deliver the outstanding loads that satisfy `p`, oldest first. -/
def State.settle (s : State) (c t : Nat) (p : HLoad → Bool) : State :=
  let ls := (s.th c t).loads
  (ls.filter p).foldl (fun s l => s.deliver c t l) (s.updTh c t fun x => { x with loads := ls.filter fun l => !p l })

/-! ### Issue of an instruction -/

/-- What an instruction asks for at issue: the registers it reads and writes, its count (R315 to R317), and whether it needs
System (R321). -/
structure HReq where
  uses : List HReg
  writes : List HReg
  count : Nat
  sys : Bool

/-- How an instruction ends: complete; with a fault, in the state it leaves; or interrupted at an iteration boundary (R328). -/
inductive HOut where
  | ok (s : State)
  | fault (s : State) (e : Exc)
  | again (s : State)

/-- An instruction may issue: its thread runs, no exception waits and it stands at no barrier. -/
def State.canIssue (s : State) (hi : HI) : Bool :=
  let x := s.th hi.core hi.thr
  s.coreLive hi.core && decide (hi.thr < 4 ∧ 1 ≤ hi.len ∧ hi.len ≤ 15) && decide (x.st = .running) && x.fault.isNone
    && x.esc.isNone && !x.lfNow

/-- The fetch check: vector 2 with its CODE (R301, R343). -/
def fetchFault (p : CapV) (len : Nat) : Option Exc :=
  let code :=
    if !p.tag then 1 else if capOtype p ≠ 0 then 2 else if !(capPerms p).testBit pExecute then 3
    else if !capCovers p (capAddr p) len then 4 else 0
  if code = 0 then none else some (exc 2 code (capAddr p) 0)

/-- The checks before an instruction's operands: vectors 2 and 12 and capability code 5, in this order (R344). -/
def State.issueFault (s : State) (hi : HI) (r : HReq) : Option Exc :=
  let x := s.th hi.core hi.thr
  match fetchFault x.pcap hi.len with
  | some e => some e
  | none =>
    if x.sbit 22 && (r.uses ++ r.writes).any HReg.isFp then some (exc 12 0 (capAddr x.pcap) 0)
    else if r.sys && !(capPerms x.pcap).testBit pSystem then some (exc 4 5 (capAddr x.pcap) 0)
    else none

/-- A register list meets a load's destination. -/
def meets (rs : List HReg) (l : HLoad) : Bool :=
  match l.dest with
  | none => false
  | some d => rs.any fun r => r.overlaps d

/-- Loads whose data the instruction waits for (R282 to R284): every load past its delay slot that it touches, and in its delay
slot a load that it reads with a count above 1. -/
def waitsFor (r : HReq) (l : HLoad) : Bool :=
  if l.slot then decide (1 < r.count) && meets r.uses l else meets (r.uses ++ r.writes) l

/-- Issue an instruction: the waits of the load delay, the checks, its body with PCAP advanced, and what its end leaves
(R282 to R284, R344). -/
def State.hookIssue (s : State) (hi : HI) (r : Thread → HReq) (body : State → HOut) : State :=
  if !s.canIssue hi then s
  else
    let c := hi.core
    let t := hi.thr
    let q := r (s.th c t)
    let s := s.updTh c t fun x => { x with waits := x.waits + hi.waits }
    let s := s.settle c t (waitsFor q)
    if (s.th c t).lfNow then s
    else
      -- the delay slot is this instruction's alone
      let late := (s.th c t).loads.filter fun l => l.slot && meets q.writes l
      let s := s.updTh c t fun x => { x with loads := x.loads.map fun l => { l with slot := false } }
      let p := (s.th c t).pcap
      match s.issueFault hi q with
      | some e => s.setFault c t { e with slotB := hi.slotB }
      | none =>
        match body (s.updTh c t fun x => { x with pcap := capSetAddr p (capAddr p + hi.len) }) with
        | .ok s =>
          -- the instruction's own result stands over the load's (R284)
          s.updTh c t fun x =>
            { x with loads := x.loads.map fun l => if late.contains { l with slot := true } then { l with dest := none } else l }
        | .fault s e =>
          (s.updTh c t fun x => { x with pcap := p }).setFault c t { e with slotB := hi.slotB }
        | .again s => s.updTh c t fun x => { x with pcap := p }

/-- An instruction on registers alone: it changes its thread, or faults with nothing changed. -/
def State.hookReg (s : State) (hi : HI) (r : Thread → HReq) (f : Thread → Thread) : Host.Outcome State Fault Refusal :=
  .next (s.hookIssue hi r fun s => .ok (s.updTh hi.core hi.thr f))

/-- The address of an instruction that is executing, PCAP having advanced past it. -/
def State.insAddr (s : State) (hi : HI) : Nat := capAddr (s.th hi.core hi.thr).pcap - hi.len

/-! ### Resets of threads -/

/-- R509, R511, R515: the hook complex is reinitialised: threads, TCM, the HKC_ block apart from the halt records, voter compare
state, MTX_REMAP, MTX_FWBASE, MTX_FWLEN and TMO_TWD_EN. -/
def State.hookInit (s : State) : State :=
  let keep := fun (r : Reg) =>
    match r.kind with
    | .HKC_T_HALT => true
    | .HKC_T_HALTA_LO => true
    | .HKC_T_HALTA_HI => true
    | .HKC_T_STAT => true
    | .MTX_REMAP => false
    | .MTX_FWBASE => false
    | .MTX_FWLEN => false
    | .TMO_TWD_EN => false
    | k => decide (k.info.block ≠ .HKC)
  let s := { s with regs := s.regs.filter fun e => keep e.1, hook := { th := [], wdAt := s.hook.wdAt } }
  let s := (s.setFld F.VOT_STAT_RESYNC 0).setFld F.VOT_STAT_HELD 0
  let s := s.setFld F.VOT_STAT_DEGRADED 0
  let out := fun (a : Nat) => !(decide (0x2000000 ≤ a) && decide (a < 0x20C0000))
  let m := s.mem
  { s with
    hook := { s.hook with th := (List.range 12).map fun k => (k, { Thread.reset (k / 4) (k % 4) with started := s.uptime, kicked := s.uptime }) }
    mem := { cells := m.cells.filter fun e => out e.1, poison := m.poison.filter out, bad := m.bad, tags := m.tags.filter out } }

/-! ### Interrupts (R297) -/

/-- The requests of a thread that can be entered at a level: pending, enabled, routed here at a level of 1 to 7. -/
def State.requests (s : State) (c t : Nat) : List (Nat × Nat) :=
  ((List.range 192).map (· + 64)).filterMap fun v =>
    let l := s.fld F.HKC_IRQ_CFG_LEVEL c v
    if s.flag F.HKC_IRQ_CFG_EN c v && s.flag F.HKC_IRQ_CFG_PEND c v && decide (s.fld F.HKC_IRQ_CFG_THREAD c v = t)
      && decide (1 ≤ l) then some (l, v) else none

/-- Of (level, vector) pairs the one of the highest level, and of these the lowest vector. -/
def bestRequest : List (Nat × Nat) → Option (Nat × Nat)
  | [] => none
  | a :: t => match bestRequest t with
    | none => some a
    | some b => if a.1 < b.1 then some b else some a

/-- The request that an interrupt entry takes. -/
def State.nextIrq (s : State) (c t : Nat) : Option (Nat × Nat) :=
  let x := s.th c t
  bestRequest ((s.requests c t).filter fun p => decide (x.lvl < p.1) && !x.active.contains p.1)

end Machine
end Sys2Proof
end

