-- ==== Sys2Proof/Machine/Resets.lean ====
section
/-!
DEFINITION. Sys2Proof/Machine/Resets.lean: the reset levels: what each reinitialises and what is known after it (R509 to R511,
R515, R25, R392).
-/
namespace Sys2Proof

/-- TMO_RCAUSE.TRIG (19_faults_reset.md). -/
def Trig.code : Trig → Nat
  | .powerOn => 0 | .sysrst => 1 | .dictionary => 2 | .tmo => 3 | .thermal => 4 | .noMajority => 5 | .threadWatchdog => 6
  | .stageWatchdog => 7 | .safeCommand => 8 | .restartFailed => 9 | .refck => 10

namespace Machine

/-- Bits [hi:lo] as a mask. -/
def maskOf (hi lo : Nat) : Nat := (2 ^ (hi + 1 - lo) - 1) * 2 ^ lo

/-- Register bits that a cold reset keeps: those of the always-on island (R25, R75). A warm reset also keeps the records and
counters of the voter, the halt records (R509), OFFLINE (R137) and the straps (R536). -/
def keepMask (warm : Bool) (k : RegKind) : Nat :=
  let aon := k.info.fields.foldl (fun m f => if f.aon then m ||| maskOf f.hi f.lo else m) 0
  if !warm then aon
  else match k with
    | .VOT_CNT => 0xFFFFFFFF
    | .VOT_TCMFIX => 0xFFFFFFFF
    | .VOT_STAT => 0x70
    | .HKC_T_HALT => 0xFFFFFFFF
    | .HKC_T_HALTA_LO => 0xFFFFFFFF
    | .HKC_T_HALTA_HI => 0xFFFFFFFF
    | .HKC_T_STAT => 0x10
    | .DDR_CH_STAT => 0x8
    | .PCI_STAT => 0xF000
    | _ => aon

/-- The registers after a cold or warm reset. -/
def keptRegs (warm : Bool) (regs : KV Reg Word) : KV Reg Word :=
  regs.filterMap fun e =>
    let m : Word := BitVec.ofNat 32 (keepMask warm e.1.kind)
    let r := e.1.kind.resetWord
    let v := (e.2 &&& m) ||| (r &&& ~~~m)
    if v = r then none else some (e.1, v)

/-- A channel as a reset leaves it: IDLE, its row counter at its last value (R510, R515). -/
def chanKept (x : Chan) : Chan := { Chan.init with row := x.row }

/-- Memory after a warm reset: DDR alone keeps contents and tags, but not on a channel that was recovering or lost (R510). -/
def State.warmMem (s : State) : Mem :=
  let ok := fun (a : Nat) => decide (ddrBase ≤ a) && !(s.flag F.DDR_CH_STAT_RECOVER (s.ddrChan a) || s.flag F.DDR_CH_STAT_LOST (s.ddrChan a))
  { cells := s.mem.cells.filter fun e => ok e.1, poison := s.mem.poison.filter ok, bad := s.mem.bad.filter ok, tags := s.mem.tags.filter ok }

/-- The latches of the always-on island at a reset's assertion (R510, R511). -/
def State.latchReset (s : State) (level : Nat) (trig : Trig) : State :=
  let s := s.bump F.TMO_RCAUSE_COUNT
  let s := (s.setFld F.TMO_RCAUSE_TRIG trig.code).setFld F.TMO_RCAUSE_LEVEL level
  let s := s.setPair F.TMO_RTIME_LO F.TMO_RTIME_HI s.now
  (List.range 8).foldl (fun s e => s.setPair F.TMO_RENC_LO F.TMO_RENC_HI (s.enc e).count.toNat e) s

/-- Everything but the always-on island and what outlasts every reset is reinitialised (R509, R515). -/
def State.reinit (s : State) (warm : Bool) : State :=
  { State.reset with
    pending := s.pending
    regs := keptRegs warm s.regs
    uptime := s.uptime
    free := s.free
    sent := s.sent
    rd := s.rd
    tb := s.tb
    web := { State.reset.web with enc := s.web.enc, chan := s.web.chan.map fun e => (e.1, chanKept e.2) }
    mem := if warm then s.warmMem else State.reset.mem
    ddr := if warm then { State.reset.ddr with recoveries := s.ddr.recoveries, capacity := s.ddr.capacity } else State.reset.ddr
    host := { HostIf.init with perst := s.host.perst }
    ect := { Ect.init with portUp := s.ect.portUp }
    hook := { th := (List.range 12).map fun k => (k, { Thread.reset (k / 4) (k % 4) with started := s.uptime, kicked := s.uptime }), wdAt := [] }
    vot := { State.reset.vot with ds := if warm then s.vot.ds else [] }
    cast := { Cast.init with
      flash := s.cast.flash, size := s.cast.size, erase := s.cast.erase, warm := warm, started := s.uptime
      refill := if warm then s.ddrChans.filter fun c => s.flag F.DDR_CH_STAT_RECOVER c || s.flag F.DDR_CH_STAT_LOST c else [] }
    kth := { Kth.init with hash := s.kth.hash, prog := s.kth.prog, revoke := s.kth.revoke, burned := s.kth.burned, trees := s.kth.trees }
    pwr := { Pwr.init with coreEn := s.pwr.coreEn, porst := s.pwr.porst, sysrst := s.pwr.sysrst } }

/-- Every output drives its safe level (R72). -/
def State.driveSafe (s : State) : State := (List.range 64).foldl State.drivePin s

/-- R510: a cold (1) or warm (2) reset. A reset during cast-on restarts cast-on at the level of its trigger (R526). -/
def State.systemReset (s : State) (level : Nat) (trig : Trig) : State :=
  ((s.disarm.latchReset level trig).reinit (decide (level = 2))).driveSafe

/-- R509, R510: a power-on reset reinitialises everything; what no reset changes stands: fuses, the boot counter, the flash and
the world outside. -/
def State.powerOnReset (s : State) : State :=
  let t := (s.disarm.reinit false)
  { t with
    regs := []
    tb := { State.reset.tb with refLost := s.tb.refLost }
    web := State.reset.web }.driveSafe

/-- R509, R511, R395: a hook complex reset. In cast-on it restarts at stage 1; outside it the complex restarts under R511. -/
def State.hookReset (s : State) (trig : Trig) : State :=
  let s := ((s.disarm.latchReset 3 trig).bump F.TMO_CNT0_0).hookInit
  if s.flag F.TMO_CASTON_DONE || s.flag F.TMO_CASTON_SAFE then
    { s.setFld F.TMO_CASTON_STAGE 1 with cast := { s.cast with hookOnly := true } }
  else { s.setFld F.TMO_CASTON_STAGE 1 with cast := { s.cast with restart := true } }

/-- Firmware runs and serves the dictionary: cast-on has ended in IDLE and no restart of the complex is under way (R393, R511). -/
def State.fwUp (s : State) : Bool := s.castOnDone && !s.cast.hookOnly

end Machine
end Sys2Proof
end

