-- ==== Sys2Proof/Machine/Kethar.lean ====
section
/-!
DEFINITION. Sys2Proof/Machine/Kethar.lean: the operations of the Kethar block (15_trust.md R419 to R443).
-/
namespace Sys2Proof.Machine

/-- KTH_CMD.OP. -/
def opVerifyPly : Nat := 1
def opVerifyDomain : Nat := 2
def opAttest : Nat := 3
def opSign : Nat := 4
def opSignRepair : Nat := 5
def opOpen : Nat := 6
def opRekey : Nat := 7
def opChallenge : Nat := 8
def opUnlock : Nat := 9
def opKeyop : Nat := 10
def opPathDone : Nat := 11

/-- The boot counter N (R428). -/
def State.bootN (s : State) : Nat := s.kth.burned.foldl (fun m b => max m (b + 1)) 0

/-- Level-1 leaves remaining (R433). -/
def State.leavesLeft (s : State) : Nat := if s.flag F.KTH_TREE_OPEN then 32768 - s.fld F.KTH_TREE_Q else 0

/-- Whether an operation is accepted (R434, DEDUCED, notes/assumptions/74.md). -/
def State.opAccepted (s : State) (op : Nat) : Bool :=
  if op = opOpen then s.flag F.KTH_POLICY && !s.flag F.KTH_TREE_OPEN && !s.kth.opened
  else if op = opRekey then s.kth.pend.isNone
  else decide (1 ≤ op ∧ op ≤ 11)

/-- R419: an operation starts, or the GO is ignored and sets REFUSED. -/
def State.kthStart (s : State) (o : KOp) : State :=
  if s.flag F.KTH_STAT_BUSY || !s.opAccepted o.op then s.setFld F.KTH_STAT_REFUSED 1
  else
    let s := (((s.setFld F.KTH_STAT_BUSY 1).setFld F.KTH_STAT_DONE 0).setFld F.KTH_STAT_LASTOP o.op).setFld F.KTH_STAT_ERR 0
    let s := if o.op = opOpen then s.setOd 0x2800 1 1 else s
    { s with kth := { s.kth with op := some o, opened := s.kth.opened || decide (o.op = opOpen) } }

/-- A write of KTH_CMD with GO (R419): the operands are those of the registers. -/
def State.kthGo (s : State) (op : Nat) : State :=
  s.kthStart ⟨op, s.pair F.KTH_SRC_LO F.KTH_SRC_HI, s.fld F.KTH_LEN, s.pair F.KTH_DST_LO F.KTH_DST_HI, none, 0⟩

/-- The attestation state 0x2800:01 after an OPEN or REKEY ended with an error. -/
def attFailed (err : Nat) : Nat := if err = 7 then 3 else 4

/-- R440, R454: what the dictionary reports of an operation that it started. -/
def State.kthReport (s : State) (op od err : Nat) : State :=
  let s := if op = opOpen then s.setOd 0x2800 1 (if err = 0 then 2 else attFailed err) else s
  if od = 0 then s else (s.setOd 0x2800 6 (if err = 0 then 2 else 3)).setOd 0x2800 7 err

/-- An operation ends: DONE, the outcome, and vector 183 or 184 (R346). -/
def State.kthDone (s : State) (op od err : Nat) : State :=
  let s := (((s.setFld F.KTH_STAT_BUSY 0).setFld F.KTH_STAT_DONE 1).setFld F.KTH_STAT_ERR err).setFld F.KTH_STAT_LASTOP op
  ({ s with kth := { s.kth with op := none } }.kthReport op od err).raise (if err = 0 then 183 else 184)

/-- R420: a range that the block may read: working SRAM or DDR. -/
def State.kthRead (s : State) (a n : Nat) : Bool :=
  decide (n = 0) || (let r := s.regionOfRange a n; decide (r = .sram) || decide (r = .ddr))

/-- R420: a range that a result may go to. -/
def State.kthWrite (s : State) (a n : Nat) : Bool := decide (n = 0) || (s.kthRead a n && !s.inFwWindow a n)

/-- The operand of an operation: bytes given by the dictionary or JTAG, else from memory. -/
def State.kthBytes (s : State) (o : KOp) : List Byte := match o.bytes with | some b => b | none => s.peekN o.src o.len

/-- The bytes of a result and where it is written in memory. -/
def kthResult (op len : Nat) : Nat :=
  if op = opAttest then 3620 else if op = opSign then sigLen else if op = opSignRepair then len else 0

/-- Whether operand and result ranges pass R420. -/
def State.kthAddrOk (s : State) (o : KOp) : Bool :=
  let needs := decide (o.op = opVerifyPly ∨ o.op = opVerifyDomain ∨ o.op = opSign ∨ o.op = opSignRepair ∨ o.op = opUnlock ∨ o.op = opKeyop)
  (o.bytes.isSome || !needs || s.kthRead o.src o.len) && (decide (o.od ≠ 0) || s.kthWrite o.dst (kthResult o.op o.len))

/-! ### Signatures (R432, R433) -/

/-- A signature by the open tree: Q advances first; the error where there is none to give. -/
def State.kthSign (s : State) (msg : List Byte) : Except Nat (List Byte) × State :=
  match s.kth.tree with
  | none => (.error 6, s)
  | some t =>
    let q := s.fld F.KTH_TREE_Q
    if 32768 ≤ q then (.error 8, s)
    else
      let s := s.setFld F.KTH_TREE_Q (q + 1)
      let s := if q + 1 = 31744 then (s.setFld F.KTH_STAT_LOW 1).raise 184 else s
      (.ok (slice (Config.hssSign t s.kth.leaf q msg) 0 sigLen), s)

/-- STATE of a report (R439). -/
def State.reportState (s : State) : Nat :=
  b2n (!s.voted) + 2 * b2n s.kth.dbgEver + 4 * b2n (s.flag F.VOT_STEST_FAIL) + 8 * b2n (s.flag F.BED_UC_STAT_REJECT)
    + 16 * b2n (s.cast.flags.testBit 0) + 32 * b2n s.cast.integrator + 64 * b2n (s.flag F.TBS_STAT_LOCKED)

/-- The enabled-bed limit of the order code (R1). -/
def bedLimit : Nat := match Config.orderCode with | .ug6128 => 128 | .ug6096 => 96 | .ug6064 => 64

/-- The 336 bytes of a report's body (R439). -/
def State.reportBody (s : State) : List Byte :=
  leBytes 4 0x54414755 ++ leBytes 2 1 ++ leBytes 2 0 ++ leBytes 8 Config.serial.toNat
    ++ ((List.range 8).flatMap fun k => leBytes 4 (s.fld F.KTH_NONCE k)) ++ leBytes 8 s.now
    ++ leBytes 4 s.kth.leaf ++ leBytes 4 (s.fld F.KTH_TREE_Q) ++ leBytes 4 s.reportState
    ++ leBytes 4 (Config.romRel.toNat * 65536 + bedLimit) ++ leBytes 8 0
    ++ (List.range 64).flatMap fun w => leBytes 4 (s.fld F.KTH_MEAS w)

/-- A result goes to memory, or to the dictionary where it started the operation. -/
def State.kthPut (s : State) (o : KOp) (bs : List Byte) : State :=
  if o.od = 0 then s.store o.dst bs else { s with kth := { s.kth with report := bs } }

/-! ### The operations -/

/-- VERIFY_PLY and VERIFY_DOMAIN (R425, R426). -/
def State.kthVerify (s : State) (o : KOp) (typ m : Nat) : Nat × State :=
  match s.verifyCount (s.kthBytes o) typ with
  | (.error e, s) => (e, s)
  | (.ok c, s) => (0, s.extend m (Config.sha256 c.whole))

/-- ATTEST (R439). -/
def State.kthAttest (s : State) (o : KOp) : Nat × State :=
  let s := s.setMeas 5 (Config.sha256 s.gauBytes)
  let body := s.reportBody
  match s.kthSign body with
  | (.error e, s) => (e, s)
  | (.ok g, s) => (0, s.kthPut o (body ++ g))

/-- SIGN: 0x4753_4755 and a digest of 32 bytes (R435). -/
def State.kthSignDigest (s : State) (o : KOp) : Nat × State :=
  if (s.kthBytes o).length ≠ 32 then (eFormat, s)
  else match s.kthSign (leBytes 4 0x47534755 ++ s.kthBytes o) with
    | (.error e, s) => (e, s)
    | (.ok g, s) => (0, s.kthPut o g)

/-- A field repair container with the device's key and signature (R436). -/
def signRepair (c : Container) (g : List Byte) : List Byte := slice c.msg 0 0x20 ++ slice Config.level0Key 0 60 ++ (c.msg.drop 0x5C) ++ g

/-- SIGN_REPAIR (R436). -/
def State.kthSignRepair (s : State) (o : KOp) : Nat × State :=
  match parseContainer (s.kthBytes o) 3 with
  | none => (eFormat, s)
  | some c =>
    if c.signer ≠ 2 ∨ (c.pub ++ c.sig).any (fun b => b != 0) then (eFormat, s)
    else match s.kthSign (signRepair c []) with
      | (.error e, s) => (e, s)
      | (.ok g, s) => (0, s.kthPut o (signRepair c g))

/-- CHALLENGE: 32 bytes of the DRBG, the serial number, N and a zero word (R441). -/
def State.kthChallenge (s : State) : State :=
  let s := (List.range 8).foldl (fun s k =>
    let (x, s) := s.fresh
    s.setFld F.KTH_CHAL (x % 2 ^ 32) k) s
  let s := (s.setFld F.KTH_CHAL (Config.serial.toNat % 2 ^ 32) 8).setFld F.KTH_CHAL (Config.serial.toNat / 2 ^ 32) 9
  let s := (s.setFld F.KTH_CHAL s.bootN 10).setFld F.KTH_CHAL 0 11
  { s with kth := { s.kth with chal := true } }

/-- The challenge's 48 bytes. -/
def State.chalBytes (s : State) : List Byte := (List.range 12).flatMap fun k => leBytes 4 (s.fld F.KTH_CHAL k)

/-- UNLOCK: the challenge is consumed whatever the outcome (R441, R442). -/
def State.kthUnlock (s : State) (o : KOp) : Nat × State :=
  let r := s.kthBytes o
  let had := s.kth.chal
  let s := { s with kth := { s.kth with chal := false } }
  let scope := leAt r 0 4
  let pub := slice r 4 60
  let g := slice r 64 sigLen
  if r.length ≠ 3348 ∨ 4 ≤ scope then (eFormat, s)
  else if !had then (12, s)
  else if !s.keyIn [2, 3] pub then (eKeyhash, s)
  else if !(pubOk pub && sigOk g) then (eParam, s)
  else if !Config.hssVerify pub (leBytes 4 0x544A4755 ++ s.chalBytes ++ leBytes 4 scope) g then (eSig, s)
  else
    (0, ({ s with kth := { s.kth with scope := scope, dbgEver := true } }.setFld F.KTH_STAT_DBG 1).bump F.KTH_CNT_0)

/-- A fuse is blown; `ok` is what the read-back with margin shows (R424). -/
def State.blow (s : State) (op slot : Nat) (h : BitVec 256) (ok : Bool) : Nat × State :=
  let s := if !ok then s
    else if op = 1 then { s with kth := { s.kth with prog := s.kth.prog ++ [slot], hash := s.kth.hash.set slot h } }
    else { s with kth := { s.kth with revoke := s.kth.revoke ++ [slot] } }
  (if ok then 0 else 9, s.measSlots)

/-- KEYOP (R424). -/
def State.kthKeyop (s : State) (o : KOp) (ok : Bool) : Nat × State :=
  match parseContainer (s.kthBytes o) 5 with
  | none => (eFormat, s.bump F.KTH_CNT_24)
  | some c =>
    let p := c.payload
    let op := leAt p 4 1
    let slot := leAt p 5 1
    let h := BitVec.ofNat 256 (leAt p 8 32)
    if p.length ≠ 40 ∨ leAt p 0 4 ≠ 0x594B4755 ∨ leAt p 6 2 ≠ 0 ∨ 4 ≤ slot ∨ op = 0 ∨ 3 ≤ op then (eFormat, s.bump F.KTH_CNT_24)
    else if op = 1 ∧ slot = 2 then
      if s.kth.prog.contains 2 then (eKeyhash, s) else s.blow 1 2 h ok
    else
      match s.verifyCount (s.kthBytes o) 5 with
      | (.error e, s) => (e, s)
      | (.ok c, s) =>
        if op = 1 then
          if slot = 3 ∧ !s.kth.prog.contains 3 ∧ c.signer = 1 ∧ Config.sha256 c.pub = s.slotHash 2 then s.blow 1 3 h ok
          else (eKeyhash, s)
        else
          let other := if slot % 2 = 0 then slot + 1 else slot - 1
          if s.slotUsable other ∧ Config.sha256 c.pub = s.slotHash other then s.blow 2 slot h ok else (eKeyhash, s)

/-! ### Trees (R429 to R434) -/

/-- The burn of R429 from bit `n`: `rs` gives, for each bit tried, whether it reads programmed afterwards and its margin read. -/
def burnBits (n : Nat) : Nat → List (Bool × Bool) → List Nat × Nat × Except Nat Nat
  | 0, _ => ([], 0, .error 9)
  | k + 1, rs =>
    if n = 32768 then ([], 0, .error 7)
    else
      let (prog, margin) := rs.headD (false, false)
      let here := if prog || margin then [n] else []
      if margin then (here, 0, .ok n)
      else
        let (bs, sk, r) := burnBits (n + 1) k rs.tail
        (here ++ bs, sk + 1, r)

/-- The burn of OPEN or REKEY: the operation goes on in the background while BUSY = 0 (R419, R429). -/
def State.kthBurn (s : State) (o : KOp) (rs : List (Bool × Bool)) : State :=
  let (bs, skipped, r) := burnBits s.bootN 4 rs
  let s := { s with kth := { s.kth with burned := s.kth.burned ++ bs.filter fun b => !s.kth.burned.contains b } }
  let s := s.bump F.KTH_CNT_8 0 skipped
  match r with
  | .error e => s.kthDone o.op o.od e
  | .ok j =>
    let s := ((s.setFld F.KTH_STAT_BUSY 0).setFld F.KTH_STAT_PATHREQ 1).setFld F.KTH_STAT_GEN 1
    let s := s.setFld F.KTH_TREE_J j
    { s with kth := { s.kth with op := none, fresh := some j, pend := some ⟨o.op, j, false, none, o.od⟩ } }

/-- R429, R438: generation has ended and the path has been taken: the path is checked, the level-0 leaf signs, the tree opens. -/
def State.kthFinishTree (s : State) : State :=
  match s.kth.pend with
  | none => s
  | some p =>
    match p.gen, p.path with
    | true, some path =>
      let s := { s.setFld F.KTH_STAT_PATHREQ 0 with kth := { s.kth with fresh := none, pend := none } }
      if Config.pathOk p.j path then
        let s := { s with kth := { s.kth with tree := some s.kth.trees, leaf := p.j, trees := s.kth.trees + 1 } }
        let s := (((s.setFld F.KTH_TREE_OPEN 1).setFld F.KTH_TREE_J p.j).setFld F.KTH_TREE_Q 0).setFld F.KTH_STAT_LOW 0
        ((s.setFld F.KTH_STAT_DONE 1).setFld F.KTH_STAT_ERR 0).kthReport p.op p.od 0 |>.raise 183
      else
        ((s.setFld F.KTH_STAT_DONE 1).setFld F.KTH_STAT_ERR 10).kthReport p.op p.od 10 |>.raise 184
    | _, _ => s

/-- R431: background generation ends. -/
def execTreeGenerationEnd (s : State) : Host.Outcome State Fault Refusal :=
  .next (match s.kth.pend with
    | some p => ({ s.setFld F.KTH_STAT_GEN 0 with kth := { s.kth with pend := some { p with gen := true } } }).kthFinishTree
    | none => s)

/-- PATH_DONE: the 15 nodes in KTH_PATH are taken (R438). -/
def State.kthPath (s : State) : State :=
  match s.kth.pend with
  | some p =>
    let nodes := (List.range 120).flatMap fun k => leBytes 4 (s.fld F.KTH_PATH k)
    ({ s with kth := { s.kth with pend := some { p with path := some nodes } } }).kthFinishTree
  | none => s

/-- What an operation other than OPEN, REKEY and PATH_DONE does, and its error; `ok` is a fuse's read-back. -/
def State.kthRun (s : State) (o : KOp) (ok : Bool) : Nat × State :=
  if !s.kthAddrOk o then (5, s)
  else if o.op = opVerifyPly then s.kthVerify o 4 3
  else if o.op = opVerifyDomain then s.kthVerify o 5 6
  else if o.op = opAttest then s.kthAttest o
  else if o.op = opSign then s.kthSignDigest o
  else if o.op = opSignRepair then s.kthSignRepair o
  else if o.op = opChallenge then (0, s.kthChallenge)
  else if o.op = opUnlock then s.kthUnlock o
  else s.kthKeyop o ok

/-- R419: the operation in progress ends; `rs` are a burn's reads, `ok` a fuse's read-back. -/
def State.kthEnd (s : State) (rs : List (Bool × Bool)) (ok : Bool) : State :=
  match s.kth.op with
  | none => s
  | some o =>
    if o.op = opOpen then s.kthBurn o rs
    else if o.op = opRekey then (if s.flag F.KTH_TREE_OPEN then s.kthBurn o rs else s.kthDone o.op o.od 6)
    else if o.op = opPathDone then (s.kthDone o.op o.od (if s.kth.pend.isSome then 0 else 10)).kthPath
    else
      let r := s.kthRun o ok
      r.2.kthDone o.op o.od r.1

def execKetharOperationEnd (rs : List (Bool × Bool)) (ok : Bool) (s : State) : Host.Outcome State Fault Refusal := .next (s.kthEnd rs ok)

/-- R443: an operation is abandoned; leaves and bits already consumed stay consumed. -/
def execKetharTimeout (s : State) : Host.Outcome State Fault Refusal :=
  .next (match s.kth.op, s.kth.pend with
    | some o, _ => ((s.bump F.KTH_CNT_16).expiry).kthDone o.op o.od 11
    | none, some p =>
      let s := ((s.setFld F.KTH_STAT_GEN 0).setFld F.KTH_STAT_PATHREQ 0).bump F.KTH_CNT_16
      let s := { s with kth := { s.kth with pend := none, fresh := none } }
      ((s.expiry.setFld F.KTH_STAT_DONE 1).setFld F.KTH_STAT_ERR 11).kthReport p.op p.od 11 |>.raise 184
    | none, none => s)

/-- R441: an unlock response arrives over JTAG, which is open after cast-on has ended in IDLE (R411). -/
def execJtagKunlock (bs : List Byte) (s : State) : Host.Outcome State Fault Refusal :=
  .next (s.when s.castOnDone fun s => s.kthStart ⟨opUnlock, 0, bs.length, 0, some bs, 0⟩)

end Sys2Proof.Machine
end

