-- ==== Sys2Proof/Machine/Stash.lean ====
section
/-!
DEFINITION. Sys2Proof/Machine/Stash.lean: bank queues, the grant order and the same-word rules, check bits, conflict counters and
the transparent bank test (04_stash_memory.md, R112 to R126).
-/
namespace Sys2Proof.Machine

/-- Cycles pass in the stash clock domain. -/
def State.stCycles (s : State) (dc : Nat) : State := { s with stash := { s.stash with cycle := s.stash.cycle + dc } }

/-- The rank of a port in the present cycle (R117). -/
def State.rank (s : State) (p : Nat) : Nat := (p + 146 - s.stash.cycle % 146) % 146

/-- A request enters its bank's queue, or waits in the fabric where the queue is full (R115). -/
def State.stEnqueue (s : State) (bank : Nat) (r : StReq) : State :=
  let q := s.stash.queues.get bank []
  if q.length < 16 then { s with stash := { s.stash with queues := s.stash.queues.set bank (q ++ [r]) } }
  else { s with stash := { s.stash with fabric := s.stash.fabric ++ [(bank, r)] } }

/-- Move a waiting request into a queue that has room again (R115, R116). -/
def State.stAdmit (s : State) (bank : Nat) : State :=
  match s.stash.fabric.find? (fun e => e.1 == bank) with
  | some e =>
    if (s.stash.queues.get bank []).length < 16 then
      ({ s with stash := { s.stash with fabric := s.stash.fabric.erase e } }).stEnqueue bank { e.2 with age := s.stash.cycle }
    else s
  | none => s

/-- R115: a word request occupies one entry, a line request one entry in each of its 4 banks. -/
def State.stRequest (s : State) (port id off : Nat) (line wr : Bool) (data : List Byte) (be : DWord) (epoch : Half)
    (plq : Nat) : State :=
  let base := if line then off / 64 * 64 else off / 16 * 16
  (List.range (if line then 4 else 1)).foldl (fun s w =>
    let o := base + 16 * w
    s.stEnqueue (stBank o)
      ⟨port, id, o, wr, BitVec.ofNat 128 (ofLeBytes ((data.drop (16 * w)).take 16)), BitVec.ofNat 16 (be.toNat / 2 ^ (16 * w)),
        s.stash.cycle, epoch, plq⟩) s

/-- The request a bank grants: one that timed out, else the oldest, else the lowest rank among the oldest (R117, R121). -/
def State.stChoose (s : State) (bank : Nat) : Option StReq :=
  match s.stash.urgent.find? (fun e => e.1 == bank) with
  | some e => some e.2
  | none => (s.stash.queues.get bank []).foldl (fun b r => match b with
    | none => some r
    | some m => if r.age < m.age ∨ (r.age = m.age ∧ s.rank r.port < s.rank m.port) then some r else b) none

/-- Bytes of a word that a request's enables choose. -/
def mergeBytes (old new : List Byte) (be : Half) : List Byte :=
  (List.range 16).map fun k => if be.toNat.testBit k then new.getD k 0 else old.getD k 0

/-- Whether byte enables make a merge write: some half neither whole nor untouched (R119). -/
def isMerge (be : Half) : Bool :=
  let lo := be.toNat % 256
  let hi := be.toNat / 256
  !(decide (lo = 0 ∨ lo = 255) && decide (hi = 0 ∨ hi = 255))

/-- R120: a write from a bed port lands only under the current epoch of the queue it names. -/
def State.stStale (s : State) (r : StReq) : Bool := decide (r.port < 136) && decide (r.epoch.toNat ≠ s.fld F.PLQ_BIND_EPOCH r.plq)

/-- What the check bits of one half found (R123, R124). -/
def State.stEcc (s : State) (half : Nat) (e : Ecc) : State :=
  match e with
  | .clean => s
  | .corrected =>
    let s := s.bump F.STH_ECC_CNT_16
    if s.flag F.STH_CTRL_DEMANDWB then { s with stash := { s.stash with writeBack := s.stash.writeBack ++ [half] } } else s
  | .uncorrectable =>
    if s.mem.poison.contains half then s
    else
      let s := { s with mem := { s.mem with bad := setAdd s.mem.bad half } }
      (((s.bump F.STH_ECC_CNT_0).setReg ⟨.STH_ECC_ADDR, 0, 0⟩ (BitVec.ofNat 32 ((half - stashBase) / 16 * 16))).setFld
        F.STH_STAT_UE 1).raise 165

/-- A write of the merge set lands: whole halves clear their poison, partly written ones keep it (R118, R124). -/
def State.stLand (s : State) (r : StReq) : State :=
  let a := stashBase + r.off
  let old := s.peekN a 16
  let new := mergeBytes old (leBytes 16 r.data.toNat) r.be
  let s := s.poke a new
  let half := fun (m : Mem) (x e : Nat) =>
    if e = 255 then { m with poison := setDel m.poison x, bad := setDel m.bad x }
    else if e ≠ 0 ∧ m.bad.contains x then { m with poison := setAdd m.poison x, bad := setDel m.bad x } else m
  { s with mem := half (half s.mem a (r.be.toNat % 256)) (a + 8) (r.be.toNat / 256) }

/-- R229: a bed's store that lands is compared with the read filter of its queue's younger instance. -/
def State.stFilter (s : State) (r : StReq) : State :=
  if r.port < 136 then s.filterCheck r.plq false (stashBase + r.off) 16 else s

/-- R122: a bed whose request waited while the bank granted another merge set counts at most once a cycle. -/
def State.stConflict (s : State) (b : Nat) : State :=
  if s.stash.conflict.get b 0 = s.stash.cycle + 1 then s
  else ({ s with stash := { s.stash with conflict := s.stash.conflict.set b (s.stash.cycle + 1) } }).setPair
    F.STH_CONFL_LO F.STH_CONFL_HI (s.pair F.STH_CONFL_LO F.STH_CONFL_HI b + 1) b

/-- R117 to R120: grant the merge set of the chosen request. -/
def State.stGrant (s : State) (bank : Nat) (g : StReq) (eccLo eccHi : Ecc) : State :=
  let q := s.stash.queues.get bank []
  let inSet := fun (r : StReq) => decide (r.off = g.off ∧ r.age = g.age)
  let set := q.filter inSet
  let rest := q.filter fun r => !inSet r
  let stale := set.filter fun r => r.wr && s.stStale r
  let live := set.filter fun r => !(r.wr && s.stStale r)
  let a := stashBase + g.off
  let reads := live.any (fun r => !r.wr) || live.any (fun r => r.wr && isMerge r.be)
  let s := if reads then (s.stEcc a eccLo).stEcc (a + 8) eccHi else s
  let data : Quad := BitVec.ofNat 128 (s.peekNat a 16)
  let poison := s.poisoned a 16
  let writes := sortBy (fun r => s.rank r.port) (live.filter (·.wr))
  let s := writes.foldl (fun s r => (s.stLand r).stFilter r) s
  let s := s.setPair F.BED_STALE_LO F.BED_STALE_HI (s.pair F.BED_STALE_LO F.BED_STALE_HI + stale.length)
  let s := (rest.filter fun r => decide (r.port < 136)).foldl (fun s r => s.stConflict r.port) s
  let busy := if live.any (fun r => r.wr && isMerge r.be) then s.stash.busy.set bank (s.stash.cycle + 1) else s.stash.busy
  ({ s with stash := { s.stash with
    queues := s.stash.queues.set bank rest
    urgent := s.stash.urgent.del bank
    busy := busy
    resp := s.stash.resp ++ live.map fun (r : StReq) =>
      (⟨r.port, r.id, r.off, r.wr, if r.wr then 0 else data, !r.wr && poison⟩ : StResp) } }).stAdmit bank

def execStashRequest (port id off : Nat) (line wr : Bool) (data : List Byte) (be : DWord) (epoch : Half) (plq : Nat)
    (s : State) : Host.Outcome State Fault Refusal :=
  .next (s.when (decide (port < 146) && decide (off < 0x8000000) && decide (plq < 64)) fun s =>
    s.stRequest port id off line wr data be epoch plq)

def execBankGrant (bank dc : Nat) (eccLo eccHi : Ecc) (s : State) : Host.Outcome State Fault Refusal :=
  let s := s.stCycles dc
  .next (s.when (decide (bank < 4096) && decide (s.stash.busy.get bank 0 < s.stash.cycle ∨ s.stash.busy.get bank 0 = 0)) fun s =>
    match s.stChoose bank with
    | some g => s.stGrant bank g eccLo eccHi
    | none => s)

def execArbitrationTimeout (bank dc : Nat) (s : State) : Host.Outcome State Fault Refusal :=
  let s := s.stCycles dc
  .next (s.when (decide (bank < 4096)) fun s =>
    match s.stChoose bank with
    | some g =>
      if g.age + s.fld F.STH_ARB_TO ≤ s.stash.cycle then
        ((({ s with stash := { s.stash with urgent := s.stash.urgent.set bank g } }).bump F.STH_STARVE).setFld
          F.STH_STAT_STARVED 1).expiry.raise 165
      else s
    | none => s)

def execDemandWriteback (off : Nat) (s : State) : Host.Outcome State Fault Refusal :=
  .next { s with stash := { s.stash with writeBack := s.stash.writeBack.erase (stashBase + off / 8 * 8) } }

/-! ### The transparent bank test (R125, R126) -/

/-- The holder code of a spare of a slice: SP0 for physical bank 64, SP1 for 65. -/
def State.spareCode (s : State) (slice pb : Nat) : Nat :=
  if pb = 64 then s.fld F.STH_SLICE_SPARE_SP0 slice else s.fld F.STH_SLICE_SPARE_SP1 slice

def State.setSpare (s : State) (slice pb v : Nat) : State :=
  if pb = 64 then s.setFld F.STH_SLICE_SPARE_SP0 v slice else s.setFld F.STH_SLICE_SPARE_SP1 v slice

/-- A free spare of a slice, other than the bank under test. -/
def State.freeSpare (s : State) (slice pb : Nat) : Option Nat :=
  if s.spareCode slice 64 = 0x40 ∧ pb ≠ 64 then some 64
  else if s.spareCode slice 65 = 0x40 ∧ pb ≠ 65 then some 65
  else none

/-- The physical banks of a slice recorded as failed: those whose logical bank a spare holds, and failed spares. -/
def State.bankFailed (s : State) (slice pb : Nat) : Bool :=
  if pb < 64 then decide (s.spareCode slice 64 = pb ∨ s.spareCode slice 65 = pb) else decide (s.spareCode slice pb = 0xFF)

/-- NOSPARE: at least one slice has no free spare. -/
def State.noSpareNow (s : State) : Bool :=
  (List.range 64).any fun sl => decide (s.spareCode sl 64 ≠ 0x40 ∧ s.spareCode sl 65 ≠ 0x40
    ∧ s.spareCode sl 64 ≠ 0x41 ∧ s.spareCode sl 65 ≠ 0x41)

/-- The slot of the present bank ends; after the last bank a pass is complete (R125). -/
def State.nextBank (s : State) : State :=
  let n := s.stash.next + 1
  if n = 4224 then ({ s with stash := { s.stash with next := 0 } }).bump F.STH_TEST_CNT_16
  else { s with stash := { s.stash with next := n } }

/-- Banks recorded as failed take no slot. -/
def State.skipFailed (s : State) : Nat → State
  | 0 => s
  | n + 1 => if s.bankFailed (s.stash.next / 66) (s.stash.next % 66) then s.nextBank.skipFailed n else s

/-- TEST_POS and TEST_ACTIVE as the engine shows them. -/
def State.showTest (s : State) (phase : Nat) : State :=
  (((s.setFld F.STH_TEST_POS_16 phase).setFld F.STH_TEST_POS_8 (s.stash.next / 66)).setFld F.STH_TEST_POS_0
    (s.stash.next % 66)).setFld F.STH_STAT_TESTACTIVE (b2n (decide (phase ≠ 0)))

/-- A bank slot starts: the next bank that has not failed is selected (R125, R126). -/
def State.startSlot (s : State) : State :=
  let s := s.skipFailed 4224
  let sl := s.stash.next / 66
  let pb := s.stash.next % 66
  if 64 ≤ pb ∧ s.spareCode sl pb = 0x40 then
    ({ s with stash := { s.stash with phase := .test, spare := pb } }).showTest 2
  else match s.freeSpare sl pb with
    | some sp => (({ s with stash := { s.stash with phase := .copy, spare := sp } }).setSpare sl sp 0x41).showTest 1
    | none =>
      ((({ s with stash := { s.stash with phase := .resting } }).bump F.STH_TEST_CNT_8).setFld F.STH_STAT_NOSPARE 1
        |>.raise 165).showTest 0

/-- R125; the first slot comes after stage 4 of cast-on (R410). -/
def execBankTestSlot (s : State) : Host.Outcome State Fault Refusal :=
  .next (match s.stash.phase with
    | .idle => if s.flag F.STH_CTRL_TESTEN && s.flag F.RPR_STAT_DONE then s.startSlot else s
    | .resting =>
      let s := ({ s with stash := { s.stash with phase := .idle } }).nextBank
      if s.flag F.STH_CTRL_TESTEN then s.startSlot else s.showTest 0
    | _ => s)

def execBankTestCopyEnd (s : State) : Host.Outcome State Fault Refusal :=
  .next (s.when (s.stash.phase == .copy) fun s =>
    let stt := s.stash.next / 66
    let pb := s.stash.next % 66
    let logical := if pb < 64 then pb else s.spareCode stt pb
    -- poisoned halves keep the poison code; the redirect sends the logical bank to the spare
    let base := stashBase
    let mine := fun (x : Nat) => decide (stBank (x - base) = stt * 64 + logical)
    let s := { s with mem := { s.mem with
      poison := (s.mem.bad.filter mine).foldl setAdd s.mem.poison, bad := s.mem.bad.filter fun x => !mine x } }
    ({ s with stash := { s.stash with phase := .test } }).showTest 2)

def execBankTestCopyAbandon (s : State) : Host.Outcome State Fault Refusal :=
  .next (s.when (s.stash.phase == .copy) fun s =>
    ((({ s with stash := { s.stash with phase := .resting } }).setSpare (s.stash.next / 66) s.stash.spare 0x40).bump
      F.STH_TEST_CNT_8).showTest 0)

def execBankTestResult (pass : Bool) (s : State) : Host.Outcome State Fault Refusal :=
  .next (s.when (s.stash.phase == .test) fun s =>
    let sl := s.stash.next / 66
    let pb := s.stash.next % 66
    let own := decide (s.stash.spare = pb)
    if pass then
      if own then ({ s with stash := { s.stash with phase := .resting } }).showTest 0
      else ({ s with stash := { s.stash with phase := .copyBack } }).showTest 3
    else
      let logical := if pb < 64 then pb else s.spareCode sl pb
      let s := if own then s.setSpare sl pb 0xFF
        else
          let s := s.setSpare sl s.stash.spare logical
          if 64 ≤ pb then s.setSpare sl pb 0xFF else s
      let s := ((s.setFld F.STH_SLICE_SPARE_RETIRED (s.fld F.STH_SLICE_SPARE_RETIRED sl + 1) sl).bump F.STH_TEST_CNT_0).setFld
        F.STH_STAT_TESTFAIL 1
      let s := if own then s
        else if s.stash.spare = 64 then (s.setFld F.RPR_SLICE_PB0 pb sl).setFld F.RPR_SLICE_FIELD0 1 sl
        else (s.setFld F.RPR_SLICE_PB1 pb sl).setFld F.RPR_SLICE_FIELD1 1 sl
      let s := s.setFld F.RPR_STAT_UNSAVED 1
      let s := s.setFld F.STH_STAT_NOSPARE (b2n s.noSpareNow)
      ((({ s with stash := { s.stash with phase := .resting } }).raise 165).emergency 0x5000).showTest 0)

def execBankTestCopyBackEnd (s : State) : Host.Outcome State Fault Refusal :=
  .next (s.when (s.stash.phase == .copyBack) fun s =>
    (({ s with stash := { s.stash with phase := .resting } }).setSpare (s.stash.next / 66) s.stash.spare 0x40).showTest 0)

end Sys2Proof.Machine
end

