-- ==== Sys2Proof/Machine/Combine.lean ====
section
/-!
DEFINITION. Sys2Proof/Machine/Combine.lean: what the combine store makes of the elements it holds: reductions, counts, runs and
histograms (R188 to R195).
-/
namespace Sys2Proof.Machine

/-- Split a list of elements, in increasing element order, into segments. -/
def segments (f : Nat → Nat × Nat × Nat) : List CElem → List (List CElem)
  | [] => []
  | x :: t =>
    match segments f t with
    | [] => [[x]]
    | g :: gs =>
      match g with
      | y :: _ => if f x.elem = f y.elem then (x :: g) :: gs else [x] :: g :: gs
      | [] => [x] :: gs

/-- R190: the value of one segment. -/
def segValue (c : FCtl) (op t : Nat) (lane : Nat → Nat) (xs : List CElem) : Option Nat × Nat :=
  let lanes : List (Option Nat × Nat) := (List.range 32).map fun j =>
    xs.foldl (fun acc x => if lane x.elem = j then combOpt c op t acc (x.val, 0) else acc) (none, 0)
  let tree := [16, 8, 4, 2, 1].foldl (fun (ls : List (Option Nat × Nat)) d => (List.range d).map fun j =>
    combOpt c op t (ls.getD j (none, 0)) (ls.getD (j + d) (none, 0))) lanes
  tree.getD 0 (none, 0)

/-- R190: sum, minimum or maximum of a course or of all elements. -/
def reduceVal (c : FCtl) (op t : Nat) (lane : Nat → Nat) (seg : Nat → Nat × Nat × Nat) (xs : List CElem) : Nat × Nat :=
  let vs := (segments seg xs).map (segValue c op t lane)
  let r := vs.foldl (combOpt c op t) (none, 0)
  (r.1.getD (emptyOf op t), r.2)

/-- R189: the index of the extreme, the lowest among equals; NaN elements are ignored. -/
def indexVal (c : FCtl) (isMax : Bool) (t w first : Nat) (xs : List CElem) : Nat × Nat :=
  let better := fun (a b : Nat) =>
    if tyIsF t then
      let o := cmpF c (tyFmt t) a b
      if isMax then o == .gt else o == .lt
    else
      let x := toI (tySigned t) (tyW t) a
      let y := toI (tySigned t) (tyW t) b
      if isMax then decide (y < x) else decide (x < y)
  let step := fun (acc : Option (Nat × Nat) × Nat) (x : CElem) =>
    match x.val with
    | none => acc
    | some v =>
      if tyIsF t && isNaN (tyFmt t) v then (acc.1, acc.2 ||| flagIf (isSNaN (tyFmt t) v) fNV)
      else match acc.1 with
        | none => (some (v, x.elem - first), acc.2)
        | some (u, _) => if better v u then (some (v, x.elem - first), acc.2) else acc
  let r := xs.foldl step (none, 0)
  (match r.1 with | some (_, k) => k % 2 ^ w | none => 2 ^ w - 1, r.2)

/-- The value of a reduction 0x60 to 0x67 over some elements, the first of them numbered `first` (R189). -/
def reduction (c : FCtl) (i : SIns) (dTy first : Nat) (lane : Nat → Nat) (seg : Nat → Nat × Nat × Nat) (xs : List CElem) :
    Nat × Nat :=
  let ones := (xs.filter fun x => x.val == some 1).length
  match i.opc with
  | 0x60 => reduceVal c 0 i.ot lane seg xs
  | 0x61 => reduceVal c 1 i.ot lane seg xs
  | 0x62 => reduceVal c 2 i.ot lane seg xs
  | 0x63 => indexVal c false i.ot (tyW dTy) first xs
  | 0x64 => indexVal c true i.ot (tyW dTy) first xs
  | 0x65 => (b2n (decide (0 < ones)), 0)
  | 0x66 => (b2n (xs.all fun x => x.val != some 0), 0)
  | _ => (ones % 2 ^ tyW dTy, flagIf (decide (2 ^ tyW dTy ≤ ones)) fV)

/-- R195: the runs of 1 in a course with gaps of at most `gap` bridged: start and length, in order. -/
def runsOf (gap : Nat) : List (Nat × Bool) → Option (Nat × Nat) → List (Nat × Nat)
  | [], none => []
  | [], some (a, z) => [(a, z - a)]
  | (w, true) :: t, none => runsOf gap t (some (w, w + 1))
  | (w, true) :: t, some (a, z) =>
    if w ≤ z + gap then runsOf gap t (some (a, w + 1)) else (a, z - a) :: runsOf gap t (some (w, w + 1))
  | (_, false) :: t, r => runsOf gap t r

/-- R195: the runs of a course that are kept. -/
def rleRuns (i : SIns) (nw : Nat) (xs : List CElem) : List (Nat × Nat) :=
  (runsOf (i.imm % 65536) (xs.map fun x => (x.elem % nw, x.val == some 1)) none).filter fun r =>
    decide (bitsOf i.imm 31 16 ≤ r.2)

/-- The bytes of an element value of a type. -/
def elemBytes (ty v : Nat) : List Byte := leBytes (tyBytes ty) v

/-- What finishing course `cc` of a combining instruction writes: register, element, value; and the flags it raises (R189, R193,
R195). -/
def courseWrites (p : Inst) (k cc : Nat) : List (Nat × Nat × Nat) × Nat :=
  let i := slotIns p k
  let d := insShape p i
  let D := p.sk.getD i.dst default
  let c := plyCtl p
  let xs := sortBy CElem.elem ((combElems p k).filter fun x => decide (x.elem / d.nw = cc))
  let lane := fun (e : Nat) => laneOf p.split p.b d.nw d.nc (posOf p.split p.b d.nw d.nc e) e
  let seg := segOf p.split p.b d.nw d.nc
  if 0x60 ≤ i.opc ∧ i.opc ≤ 0x67 then
    if D.nc = d.nc then
      let r := reduction c i D.ty (cc * d.nw) lane seg xs
      ([(i.dst, cc, r.1)], r.2)
    else ([], 0)
  else if i.opc = 0x6A then
    let n := (xs.filter fun x => x.val.isSome).length
    let fill := if i.md.testBit 0 then
        (List.range (D.nw - n)).map fun j => (i.dst, cc * D.nw + n + j, i.imm % 2 ^ tyW i.ot)
      else []
    (fill ++ [(i.sc, cc, n)], 0)
  else if i.opc = 0x6D then
    let rs := rleRuns i d.nw xs
    (((rs.take D.nw).zip (List.range D.nw)).map (fun (r, j) => (i.dst, cc * D.nw + j, r.1 + r.2 * 2 ^ 32))
      ++ [(i.sc, cc, rs.length)], 0)
  else ([], 0)

/-- What finishing the whole instruction writes: a total (R189). -/
def totalWrites (p : Inst) (k : Nat) : List (Nat × Nat × Nat) × Nat :=
  let i := slotIns p k
  let d := insShape p i
  let D := p.sk.getD i.dst default
  if 0x60 ≤ i.opc ∧ i.opc ≤ 0x67 ∧ D.nc ≠ d.nc then
    let lane := fun (e : Nat) => laneOf p.split p.b d.nw d.nc (posOf p.split p.b d.nw d.nc e) e
    let r := reduction (plyCtl p) i D.ty 0 lane (segOf p.split p.b d.nw d.nc) (sortBy CElem.elem (combElems p k))
    ([(i.dst, 0, r.1)], r.2)
  else ([], 0)

/-- R194: the bins a HIST adds: one count per element that falls in a bin. -/
def histBins (i : SIns) (nw : Nat) (xs : List CElem) : List Nat :=
  xs.filterMap fun x => match x.val with
    | none => none
    | some v => if v < nw then some v else if i.md.testBit 0 then some (nw - 1) else none

/-- R194: a bin's value with its count added, saturating. -/
def histAdd (w old n : Nat) : Nat × Nat :=
  if old + n < 2 ^ w then (old + n, 0) else (2 ^ w - 1, flagIf (decide (2 ^ w ≤ old + n)) fV)

end Sys2Proof.Machine
end

