-- ==== Sys2Proof/Machine/StreamOps.lean ====
section
/-!
DEFINITION. Sys2Proof/Machine/StreamOps.lean: one step of a stream instruction: readiness, elements, the speculation buffer, the
combine store, MARK and the control instructions (R150 to R168, R173, R183 to R208, R217 to R233).
-/
namespace Sys2Proof.Machine

/-! ### Readiness (R158, R203 to R206, R217) -/

def overlaps (x y : Int × Int) : Bool := decide (x.1 < y.2 ∧ y.1 < x.2)

/-- The extents that a slot reads from and writes to memory (R158). -/
def slotReads (p : Inst) (k : Nat) : List (Int × Int) :=
  let i := slotIns p k
  (rolesOf i).flatMap fun x =>
    let y := p.sk.getD x.2 default
    let idx := if y.shape = 3 ∧ !y.chain then [skExtent (p.sk.getD y.idx default)] else []
    let reads := (permsFor i x.1).contains pLoad
    idx ++ (if reads && !y.chain then [skExtent y] else [])

def slotWrites (p : Inst) (k : Nat) : List (Int × Int) :=
  let i := slotIns p k
  (rolesOf i).flatMap fun x =>
    let y := p.sk.getD x.2 default
    if (permsFor i x.1).contains pStore && !y.chain then [skExtent y] else []

/-- R158: whether an earlier unfinished instruction outside the chain of slot `k` holds it back. -/
def hazard (p : Inst) (k : Nat) : Bool :=
  let head := chainHead p.prog p.sk k
  (List.range head).any fun j =>
    !slotFin p j &&
      (((slotReads p k ++ slotWrites p k).any fun x => (slotWrites p j).any (overlaps x))
        || (slotWrites p k).any fun x => (slotReads p j).any (overlaps x))

/-- Every slot of a chain is free of hazards. -/
def chainHazard (p : Inst) (k : Nat) : Bool :=
  let head := chainHead p.prog p.sk k
  (List.range (endOf p k + 1 - head)).any fun d => hazard p (head + d)

def isControl (i : SIns) : Bool := decide (0x80 ≤ i.opc)

/-- Every earlier control instruction has finished; a control instruction other than BRC, an acquire and WROW waits for every
earlier instruction (R205, R217); a HIST waits for an earlier HIST (R194). -/
def orderOk (p : Inst) (k : Nat) : Bool :=
  let i := slotIns p k
  let all := decide (0x80 ≤ i.opc ∧ i.opc ≤ 0x83) || (decide (i.opc = 0x85) && decide (i.md ≠ 2))
  (List.range k).all fun j =>
    slotFin p j || (!all && !isControl (slotIns p j) && !(decide (i.opc = 0x6C) && decide ((slotIns p j).opc = 0x6C)))

/-- The instance may issue: it runs, nothing has stopped it and its set runs it. -/
def State.instLive (s : State) (n q : Nat) (p : Inst) : Bool :=
  p.st == .running && !p.waitOld && p.fault.isNone && (p.pinned || decide ((s.bset n).run = some q))

/-- The beds that run a position: a pair for a checked ply (R388). -/
def State.bedsFor (s : State) (n : Nat) (p : Inst) (pos : Nat) : List Nat :=
  if optChecked p.entry then ((s.bedAt n (2 * pos)).toList ++ (s.bedAt n (2 * pos + 1)).toList)
  else (s.bedAt n pos).toList

/-- The window of R164 takes `x` more lines on some beds. -/
def State.useLines (s : State) (bs : List Nat) (x : Nat) : State :=
  bs.foldl (fun s b => s.setFld F.BED_STAT_OUTST (min 256 (s.fld F.BED_STAT_OUTST b + x)) b) s

/-! ### Writes of an instance (R159, R166, R220, R221) -/

/-- Lines that the speculation buffer at a position holds, both instances counted (R221). -/
def State.heldLines (s : State) (q pos : Nat) : List Nat :=
  let of := fun (p : Option Inst) => match p with
    | some p => (p.held.filter fun (h : Held) => h.lpos == pos).flatMap fun (h : Held) => unitsOf 64 h.addr h.bytes.length
    | none => []
  ((of (s.plq q).older) ++ (of (s.plq q).younger)).foldl setAdd []

/-- Whether some writes fit into the buffer at a position. -/
def State.heldFits (s : State) (q pos : Nat) (ws : List (Nat × List Byte)) : Bool :=
  let now := s.heldLines q pos
  decide (((ws.flatMap fun w => unitsOf 64 w.1 w.2.length).foldl setAdd now).length ≤ 768)

/-- One write: held under the innermost lifeline over the slot, or performed. -/
def State.writeOne (s : State) (q : Nat) (young : Bool) (k pos : Nat) (w : Nat × List Byte) : State :=
  match s.inst q young with
  | none => s
  | some p =>
    match (livesOver p k).getLast? with
    | some l => s.setInst q young (some { p with held := p.held ++ [⟨l.id, pos, w.1, w.2⟩] })
    | none => s.plyWrite q young w.1 w.2

/-- Some writes together; `none` where the buffer has no room: the bed stops with SPECFULL (R221). -/
def State.writeAll (s : State) (q : Nat) (young : Bool) (k pos : Nat) (ws : List (Nat × List Byte)) : Option State :=
  match s.inst q young with
  | none => some s
  | some p =>
    if (livesOver p k).isEmpty || s.heldFits q pos ws then some (ws.foldl (fun s w => s.writeOne q young k pos w) s)
    else none

/-- The bed stops on a full buffer (R221). -/
def State.specFull (s : State) (bs : List Nat) : State :=
  bs.foldl (fun s b => (s.setFld F.BED_STAT_SPECFULL 1 b).bump F.BED_SSTALL b) s

/-- Where element `e` of register `r` is written and with which bytes, or the cause that stops it (R154 to R156). -/
def State.destWrite (s : State) (p : Inst) (pos slot r e v : Nat) : Except EV (Nat × List Byte) :=
  let k := p.sk.getD r default
  let e := skIndex k e
  let at_ := fun (a : Int) =>
    let n := tyBytes k.ty
    match s.elemCheck k pStore a n with
    | some cause => Except.error (.fault cause slot a.toNat 0)
    | none =>
      if heldElsewhere p pos a.toNat n then .error .wait
      else if k.ty = 12 then
        let old := ((heldByte p pos a.toNat).getD (s.peek a.toNat)).toNat
        .ok (a.toNat, [BitVec.ofNat 8 (putBits old (e % k.nw % 8) (e % k.nw % 8) v)])
      else .ok (a.toNat, elemBytes k.ty v)
  if k.shape = 3 then
    match s.indexAddr p pos slot k e with
    | (.ok _ _ _, a) => at_ a
    | (r, _) => .error r
  else at_ (skAddrCW k p.row0.toNat (e / k.nw : Nat) (e % k.nw : Nat))

/-- Several element writes of a slot. -/
def State.destWrites (s : State) (p : Inst) (pos slot : Nat) : List (Nat × Nat × Nat) → Except EV (List (Nat × List Byte))
  | [] => .ok []
  | (r, e, v) :: t =>
    match s.destWrite p pos slot r e v with
    | .error x => .error x
    | .ok w =>
      match s.destWrites p pos slot t with
      | .error x => .error x
      | .ok ws => .ok (w :: ws)

/-! ### Elements -/

/-- A fault that an element met becomes one of the instance (R150, R183). -/
def State.evFault (s : State) (q : Nat) (young : Bool) (k pos : Nat) (r : EV) : State :=
  match r with
  | .fault cause slot addr fl =>
    match s.inst q young with
    | none => s
    | some p => (s.updInst q young fun p => { p with flags := p.flags ||| fl }).raiseFault q young
        ⟨cause, slot, pos, (let d := insShape p (slotIns p k)
          rangeIndex p.split p.b d.nw d.nc pos (doneAt p k pos + partAt p k pos)), addr⟩
  | _ => s

/-- Lines that a younger instance loads enter its read filter (R229). -/
def noteFilter (young : Bool) (p : Inst) (lines : List Nat) : Inst :=
  if young && p.lives.any (fun l => l.kind == .course) then
    { p with filter := lines.foldl (fun f x => setAdd f (Config.filterHash x % 8192)) p.filter }
  else p

/-- Mark the slots of a chain finished once every position has reached the end of its range (R162). -/
def finishChain (p : Inst) (k : Nat) : Inst :=
  if allDone p k && !slotFin p k then
    let head := chainHead p.prog p.sk k
    { p with fin := p.fin ++ (List.range (endOf p k + 1 - head)).map (head + ·) }
  else p

/-- The combine-store elements that SCAN producers of a chain keep for element `e`. -/
def State.scanNotes (s : State) (p : Inst) (pos k e : Nat) : List (Nat × CElem) :=
  let head := chainHead p.prog p.sk k
  (List.range (endOf p k - head)).filterMap fun d =>
    let j := head + d
    if (slotIns p j).opc = 0x68 then
      match s.evalComb p pos j e with
      | .ok (x, _, _) => some (j, x)
      | .error _ => none
    else none

/-- Element `e` has been processed: counts, flags, filter and combine-store notes. -/
def elemCommit (young : Bool) (k pos : Nat) (fl : Nat) (lines : List Nat) (notes : List (Nat × CElem)) (p : Inst) : Inst :=
  let p := noteFilter young p lines
  { p with
    flags := p.flags ||| fl
    done := p.done.upd (endOf p k * 128 + pos) 0 (· + 1)
    comb := notes.foldl (fun c x => c.upd (x.1 * 128 + pos) [] (· ++ [x.2])) p.comb }

/-- One element of an instruction that does not combine; false where the position stops; the line requests it makes: loads by
line, stores by line where the destination is contiguous and by element elsewhere (R164, R166). -/
def State.plainElem (s : State) (q : Nat) (young : Bool) (k pos e : Nat) (p : Inst) (bs : List Nat) : State × Bool × List Nat :=
  let i := slotIns p k
  match s.activeAt p pos k e, s.evalSlot p pos 32 k e with
  | .ok m _ _, .ok v fl lines =>
    let notes := s.scanNotes p pos k e
    let commit := fun (s : State) => s.updInst q young (elemCommit young k pos fl lines notes)
    if m = 0 then (commit s, true, lines.map (4 * ·))
    else
      match s.destWrite p pos k i.dst e v with
      | .error .wait => (s, false, [])
      | .error r => (s.evFault q young k pos r, false, [])
      | .ok w =>
        match s.writeAll q young k pos [w] with
        | none => (s.specFull bs, false, [])
        | some s' =>
          let D := p.sk.getD i.dst default
          let st :=
            if !(livesOver p k).isEmpty then []
            else if D.shape ≠ 3 ∧ D.wstr = tyBytes D.ty then (unitsOf 64 w.1 w.2.length).map (4 * · + 1)
            else [4 * w.1 + 2]
          (commit s', true, lines.map (4 * ·) ++ st)
  | .ok _ _ _, .wait => (s, false, [])
  | .ok _ _ _, r => (s.evFault q young k pos r, false, [])
  | .wait, _ => (s, false, [])
  | r, _ => (s.evFault q young k pos r, false, [])

/-! ### Combining instructions (R188 to R195) -/

/-- Elements of a position's range whose course is at most `cc`. -/
def upToCourse (p : Inst) (k pos cc : Nat) : Nat :=
  let d := insShape p (slotIns p k)
  let n := slotLen p k pos
  if p.split then
    let per := if d.nc = 0 then 0 else n / d.nc
    min n ((cc + 1) * per)
  else min n ((cc + 1) * d.nw - pos * ceilDiv (d.nw * d.nc) p.b)

/-- Whether the range of a position meets course `cc`. -/
def meetsCourse (p : Inst) (k pos cc : Nat) : Bool :=
  decide ((if cc = 0 then 0 else upToCourse p k pos (cc - 1)) < upToCourse p k pos cc)

/-- Every segment of course `cc` has been handed over. -/
def courseDone (p : Inst) (k cc : Nat) : Bool :=
  (List.range p.b).all fun pos => !meetsCourse p k pos cc || decide (upToCourse p k pos cc ≤ doneAt p k pos)

/-- R191: every lower segment of the course has reached the combine store. -/
def carryReady (p : Inst) (k pos cc : Nat) : Bool :=
  (List.range pos).all fun x => !meetsCourse p k x cc || decide (upToCourse p k x cc ≤ doneAt p k x)

/-- R188: whether the position would run more than 64 courses ahead of the slowest. -/
def tooFar (p : Inst) (k pos cc : Nat) : Bool :=
  let d := insShape p (slotIns p k)
  (List.range p.b).any fun x =>
    decide (x ≠ pos ∧ doneAt p k x < slotLen p k x) &&
      decide (rangeElem p.split p.b d.nw d.nc x (doneAt p k x) / d.nw + 64 < cc)

/-- What the bed writes at once for an element of a combining instruction: SCAN, EXPD and CMPS (R192, R193). -/
def State.combDirect (s : State) (p : Inst) (pos k e : Nat) (x : CElem) : Except EV (List (Nat × Nat × Nat) × Nat × List Nat) :=
  let i := slotIns p k
  let d := insShape p i
  match i.opc with
  | 0x68 =>
    match s.evalSlot p pos 32 k e with
    | .ok v f l => .ok ([(i.dst, e, v)], f, l)
    | r => .error r
  | 0x6B =>
    if x.val.isSome then
      match s.evalSlot p pos 32 k e with
      | .ok v f l => .ok ([(i.dst, e, v)], f, l)
      | r => .error r
    else .ok (if i.md.testBit 0 then [(i.dst, e, i.imm % 2 ^ tyW i.ot)] else [], 0, [])
  | 0x6A =>
    match x.val with
    | none => .ok ([], 0, [])
    | some v =>
      let first := e / d.nw * d.nw
      let c := ((combElems p k).filter fun y => decide (first ≤ y.elem ∧ y.elem < e) && y.val.isSome).length
      .ok ([(i.dst, first + c, v)], 0, [])
  | _ => .ok ([], 0, [])

/-- The element a combining instruction takes: EXPD takes only whether it is active, RSUM converts it to OT. -/
def State.combTake (s : State) (p : Inst) (pos k e : Nat) : Except EV (CElem × Nat × List Nat) :=
  let i := slotIns p k
  if i.opc = 0x6B then
    match s.activeAt p pos k e with
    | .ok m f l => .ok (⟨e, if m = 0 then none else some 1⟩, f, l)
    | r => .error r
  else
    match s.evalComb p pos k e with
    | .ok (x, f, l) =>
      let g := (p.sk.getD i.sa default).ty
      match x.val with
      | some v =>
        if i.opc = 0x60 ∧ g ≠ i.ot then
          let r := cvt (plyCtl p) false g i.ot v
          .ok (⟨e, some r.1⟩, f ||| r.2, l)
        else .ok (x, f, l)
      | none => .ok (x, f, l)
    | .error r => .error r

/-- The state of a segment goes to the combine store, and the values that this completes are written (R188, R189). -/
def State.handSegment (s : State) (q : Nat) (young : Bool) (k pos cc : Nat) (bs : List Nat) : State × Bool × List Nat :=
  match s.inst q young with
  | none => (s, false, [])
  | some p =>
    let key := endOf p k * 128 + pos
    let p' := { p with done := p.done.upd key 0 (· + p.part.get key 0), part := p.part.del key }
    let (w1, f1) := if courseDone p' k cc then courseWrites p' k cc else ([], 0)
    let (w2, f2) := if allDone p' k then totalWrites p' k else ([], 0)
    match s.destWrites p' pos k (w1 ++ w2) with
    | .error .wait => (s, false, [])
    | .error r => (s.evFault q young k pos r, false, [])
    | .ok ws =>
      match s.writeAll q young k pos ws with
      | none => (s.specFull bs, false, [])
      | some s => (s.updInst q young fun p =>
          { p with flags := p.flags ||| f1 ||| f2, done := p'.done, part := p'.part }, true, [])

/-- One element of a combining instruction at a position; false where the position stops. -/
def State.combElem (s : State) (q : Nat) (young : Bool) (k pos : Nat) (p : Inst) (bs : List Nat) : State × Bool × List Nat :=
  let i := slotIns p k
  let d := insShape p i
  let c := doneAt p k pos + partAt p k pos
  let len := slotLen p k pos
  let key := endOf p k * 128 + pos
  let seg := fun (x : Nat) => segOf p.split p.b d.nw d.nc (rangeElem p.split p.b d.nw d.nc pos x)
  let closed := fun (x : Nat) => decide (len ≤ x) || decide (seg x ≠ seg (x - 1))
  if 0 < partAt p k pos ∧ closed c then s.handSegment q young k pos (seg (c - 1)).1 bs
  else if len ≤ c then (s, false, [])
  else
    let e := rangeElem p.split p.b d.nw d.nc pos c
    let cc := e / d.nw
    let carries := decide (i.opc = 0x68 ∨ i.opc = 0x6A ∨ i.opc = 0x6B ∨ i.opc = 0x6D)
    if tooFar p k pos cc then (bs.foldl (fun s b => s.bump F.BED_WSTALL b) s, false, [])
    else if carries && decide (partAt p k pos = 0) && !carryReady p k pos cc then (s, false, [])
    else
      match s.combTake p pos k e with
      | .error .wait => (s, false, [])
      | .error r => (s.evFault q young k pos r, false, [])
      | .ok (x, f1, l1) =>
        match s.combDirect p pos k e x with
        | .error .wait => (s, false, [])
        | .error r => (s.evFault q young k pos r, false, [])
        | .ok (ws, f2, l2) =>
          match s.destWrites p pos k ws with
          | .error .wait => (s, false, [])
          | .error r => (s.evFault q young k pos r, false, [])
          | .ok ws =>
            match s.writeAll q young k pos ws with
            | none => (s.specFull bs, false, [])
            | some s' =>
              let notes := s.scanNotes p pos k e ++ [(k, x)]
              let s' := s'.updInst q young fun p =>
                let p := noteFilter young p (l1 ++ l2)
                { p with
                  flags := p.flags ||| f1 ||| f2
                  part := p.part.upd key 0 (· + 1)
                  comb := notes.foldl (fun c x => c.upd (x.1 * 128 + pos) [] (· ++ [x.2])) p.comb }
              let keys := (l1 ++ l2).map (4 * ·)
              if closed (c + 1) then (let r := s'.handSegment q young k pos cc bs; (r.1, r.2.1, keys)) else (s', true, keys)

/-- The bins of a HIST with their old values; the address of the first poisoned one is an error (R194). -/
def State.histOld (s : State) (p : Inst) (k : Nat) : List Nat → Except EV (List Nat)
  | [] => .ok []
  | b :: t =>
    let i := slotIns p k
    if i.md.testBit 1 then
      match s.loadElem p 0 k (p.sk.getD i.dst default) b with
      | .ok v _ _ =>
        match s.histOld p k t with
        | .ok vs => .ok (v :: vs)
        | .error r => .error r
      | r => .error r
    else
      match s.histOld p k t with
      | .ok vs => .ok (0 :: vs)
      | .error r => .error r

/-- R194: the combine store writes the bins of a HIST whose segments are all in. -/
def State.histFinish (s : State) (q : Nat) (young : Bool) (k pos : Nat) (p : Inst) (bs : List Nat) : State :=
  let i := slotIns p k
  let D := p.sk.getD i.dst default
  let bins := List.range D.nw
  match s.histOld p k bins with
  | .error .wait => s
  | .error r => s.evFault q young k 0 r
  | .ok old =>
    let hits := histBins i D.nw (combElems p k)
    let sums := (bins.zip old).map fun (b, v) => (b, histAdd (tyW D.ty) v (hits.filter (· == b)).length)
    match s.destWrites p pos k (sums.map fun x => (i.dst, x.1, x.2.1)) with
    | .error .wait => s
    | .error r => s.evFault q young k 0 r
    | .ok ws =>
      match s.writeAll q young k pos ws with
      | none => s.specFull bs
      | some s => s.updInst q young fun p => finishChain { p with flags := sums.foldl (fun f x => f ||| x.2.2) p.flags } k

/-! ### MARK (R199 to R202) -/

/-- The wale that element `e` of a MARK names, `none` where the element is not active (R199). -/
def State.markWale (s : State) (p : Inst) (pos k e : Nat) : Except EV (Option Nat × List Nat) :=
  match s.evalComb p pos k e with
  | .error r => .error r
  | .ok (⟨_, none⟩, _, l) => .ok (none, l)
  | .ok (⟨_, some v⟩, _, l) =>
    let i := slotIns p k
    if i.md.testBit 0 then
      let A := p.sk.getD i.sa default
      match s.loadElem p pos k (p.sk.getD i.sc default) (e / A.nw) with
      | .ok n _ l' =>
        if e % A.nw < min n A.nw then .ok (some (v % 2 ^ 32 + v / 2 ^ 32 / 2), l ++ l') else .ok (none, l ++ l')
      | r => .error r
    else .ok (some v, l)

/-- R199, R200: the event of a wale, presented to its output; answers whether MOVF is set. -/
def State.markEvent (s : State) (q : Nat) (p : Inst) (k e w : Nat) : Bool × State :=
  let i := slotIns p k
  let A := p.sk.getD i.sa default
  let row : Int := (p.row0.toNat : Int) + (if A.shape = 2 then A.rbias else 0) + (e / A.nw : Nat)
  let o := i.imm % 64 + min (bitsOf i.imm 12 6 - 1) (w / bitsOf i.imm 31 16)
  let c := s.fld F.TIO_OUT_CTRL_CHAN o
  let act : EvAct := match bitsOf i.imm 14 13 with
    | 0 => .set
    | 1 => .clear
    | 2 => .pulse
    | _ => .window
  match (if 0 ≤ row then s.rowWeb c row.toNat else none) with
  | none =>
    if s.flag F.TIO_ARM_ARMED then (true, s.bump F.TIO_OUT_CNT2_REFUSED o) else (false, s.bump F.TIO_OUT_CNT2_FLUSHED o)
  | some web =>
    let due := web + s.fld F.TIO_OUT_STATION o + floorDiv ((w : Int) * signedOf 32 (s.fld F.TIO_OUT_SKEW o)) 1000
    let life := (livesOver p k).getLast?
    let ev : OutEv :=
      ⟨.pos, due, BitVec.ofNat 32 w, act, BitVec.ofNat 32 (bitsOf i.imm 63 32), life.isSome, (life.map (·.id)).getD 0, s.qEpoch q,
        0, .ply q⟩
    let (v, s) := s.present o ev (s.qEpoch q)
    (v.movf, s)

/-- One element of a MARK. -/
def State.markElem (s : State) (q : Nat) (young : Bool) (k pos e : Nat) (p : Inst) : State × Bool × List Nat :=
  match s.markWale p pos k e with
  | .error .wait => (s, false, [])
  | .error r => (s.evFault q young k pos r, false, [])
  | .ok (none, l) => (s.updInst q young (elemCommit young k pos 0 l (s.scanNotes p pos k e)), true, l.map (4 * ·))
  | .ok (some w, l) =>
    if s.flag F.PLQ_CTRL_OWNER q then (s.evFault q young k pos (.fault 6 k 0 0), false, [])
    else
      let notes := s.scanNotes p pos k e
      let (movf, s) := s.markEvent q p k e w
      (s.updInst q young (elemCommit young k pos (64 * b2n movf) l notes), true, l.map (4 * ·))

/-! ### One step at a position -/

/-- The element group of the c-th element of a position's range (R161). -/
def groupOf (p : Inst) (k pos c : Nat) : Nat :=
  let d := insShape p (slotIns p k)
  if p.split then
    let per := slotLen p k pos / max 1 d.nc
    c / max 1 per * (per / 32 + 1) + c % max 1 per / 32
  else c / 32

/-- The element that the next step at a position takes; `none` at the end, and where a segment has to be handed over first. -/
def nextElem (p : Inst) (k pos : Nat) : Option Nat :=
  let d := insShape p (slotIns p k)
  let c := doneAt p k pos + partAt p k pos
  let seg := fun (x : Nat) => segOf p.split p.b d.nw d.nc (rangeElem p.split p.b d.nw d.nc pos x)
  if slotLen p k pos ≤ c || (decide (0 < partAt p k pos) && decide (seg c ≠ seg (c - 1))) then none
  else some (rangeElem p.split p.b d.nw d.nc pos c)

/-- What `n` producers of a chain from slot `j` on find at element e: every one of them processes it, whether or not the instruction
after it is active there, and the lowest slot that faults gives the fault (R173, R212, R213). -/
def State.producers (s : State) (p : Inst) (pos e : Nat) : Nat → Nat → EV
  | _, 0 => .ok 0 0 []
  | j, n + 1 =>
    match s.evalSlot p pos 32 j e with
    | .ok _ f l =>
      match s.producers p pos e (j + 1) n with
      | .ok v f' l' => .ok v (f ||| f') (l ++ l')
      | r => r
    | r => r

/-- Flags and loads of the producers of an element count once the element is processed. -/
def State.noteProducers (s : State) (q : Nat) (young : Bool) (k pos : Nat) (p : Inst) (fl : Nat) (l : List Nat) (r : Bool × List Nat) :
    State × Bool × List Nat :=
  match s.inst q young with
  | none => (s, r)
  | some p' =>
    if doneAt p' k pos + partAt p' k pos = doneAt p k pos + partAt p k pos then (s, r)
    else
      (s.updInst q young fun x => { noteFilter young x l with flags := (noteFilter young x l).flags ||| fl }, r.1,
        l.map (4 * ·) ++ r.2)

/-- One element, or the hand-over of a segment, by the kind of instruction. -/
def State.oneElem (s : State) (q : Nat) (young : Bool) (k pos : Nat) (p : Inst) (bs : List Nat) : State × Bool × List Nat :=
  let i := slotIns p k
  let d := insShape p i
  if 0x60 ≤ i.opc ∧ i.opc ≤ 0x6D then s.combElem q young k pos p bs
  else if slotLen p k pos ≤ doneAt p k pos then (s, false, [])
  else
    let e := rangeElem p.split p.b d.nw d.nc pos (doneAt p k pos)
    if i.opc = 0x78 then s.markElem q young k pos e p else s.plainElem q young k pos e p bs

/-- Which step an element takes. -/
def State.anyElem (s : State) (q : Nat) (young : Bool) (k pos : Nat) (p : Inst) (bs : List Nat) : State × Bool × List Nat :=
  if p.fault.isSome || p.deferred.any (fun f => f.lpos == pos) then (s, false, [])
  else if bs.any fun b => decide (s.fld F.BED_STAT_OUTST b = 256) then
    (bs.foldl (fun s b => if s.fld F.BED_STAT_OUTST b = 256 then s.bump F.BED_WSTALL b else s) s, false, [])
  else if bs.any fun b => decide ((s.bed b).epoch ≠ s.qEpoch q) then (s.bumpStale, false, [])
  else
    match nextElem p k pos with
    | none => s.oneElem q young k pos p bs
    | some e =>
      match s.producers p pos e (chainHead p.prog p.sk k) (k - chainHead p.prog p.sk k) with
      | .ok _ fl l => (s.oneElem q young k pos p bs).1.noteProducers q young k pos p fl l (s.oneElem q young k pos p bs).2
      | .wait => (s, false, [])
      | r => (s.evFault q young k pos r, false, [])

/-- At most `fuel` elements of a position. `grp` is the element group in progress and `seen` the line requests it has made: a
line that several elements of a group touch is one request (R164, R166). -/
def State.elemLoop (s : State) (n q : Nat) (young : Bool) (k pos grp : Nat) (seen : List Nat) : Nat → State
  | 0 => s
  | fuel + 1 =>
    match s.inst q young with
    | none => s
    | some p =>
      let bs := s.bedsFor n p pos
      let g := groupOf p k pos (doneAt p k pos + partAt p k pos)
      let seen := if g = grp then seen else []
      let (s', go, keys) := s.anyElem q young k pos p bs
      let fresh := (keys.foldl setAdd []).filter fun x => !seen.contains x
      let s' := s'.useLines bs fresh.length
      if go then s'.elemLoop n q young k pos g (seen ++ fresh) fuel else s'

/-- The slots of a chain have issued (R167). -/
def markIssued (p : Inst) (k : Nat) : Inst :=
  let head := chainHead p.prog p.sk k
  { p with issued := (List.range (endOf p k + 1 - head)).foldl (fun l d => setAdd l (head + d)) p.issued }

/-- Whether slot `k` may issue now. -/
def slotReady (p : Inst) (k : Nat) : Bool :=
  !slotFin p k && orderOk p k && !chainHazard p k && orderOk p (chainHead p.prog p.sk k)

/-- A step of a data instruction: opcode `opc` must be what the program holds at the slot. A producer of a chain only issues; the
chain's end carries its elements (R209 to R213). -/
def State.dataStep (s : State) (opc : Nat) (a : SI) : State :=
  match s.inst a.q a.young, s.setOf a.q with
  | some p, some n =>
    if !(decide (a.slot < p.prog.length ∧ (slotIns p a.slot).opc = opc ∧ a.pos < p.b) && s.instLive n a.q p && slotReady p a.slot) then s
    else if (s.setBeds n).isEmpty then s.raiseFault a.q a.young ⟨8, a.slot, a.pos, prgOf p a.slot a.pos, 0⟩
    else
      let s := s.updInst a.q a.young fun p => markIssued p a.slot
      if isProducer p.prog p.sk a.slot then s
      else
        let s := s.elemLoop n a.q a.young a.slot a.pos 0 [] a.n
        match s.inst a.q a.young with
        | none => s
        | some p' =>
          if opc = 0x6C then
            if allDone p' a.slot && p'.fault.isNone then s.histFinish a.q a.young a.slot a.pos p' (s.bedsFor n p' a.pos) else s
          else s.updInst a.q a.young fun p => finishChain p a.slot
  | _, _ => s

/-! ### Control instructions (R203 to R206, R217, R231) -/

/-- A control instruction completes. -/
def ctlDone (k : Nat) (p : Inst) : Inst :=
  { p with fin := setAdd p.fin k, done := p.done.set (k * 128) 1 }

/-- Slots from `lo` to below `hi` are skipped. -/
def skipSlots (lo hi : Nat) (p : Inst) : Inst :=
  { p with skipped := (List.range (hi - lo)).foldl (fun l d => setAdd l (lo + d)) p.skipped }

/-- Run `f` on a control instruction that may issue. -/
def State.ctlStep (s : State) (opc : Nat) (a : SI) (f : State → Nat → Inst → State) : State :=
  match s.inst a.q a.young, s.setOf a.q with
  | some p, some n =>
    if !(decide (a.slot < p.prog.length ∧ (slotIns p a.slot).opc = opc) && s.instLive n a.q p && !slotFin p a.slot && orderOk p a.slot) then s
    else if (s.setBeds n).isEmpty then s.raiseFault a.q a.young ⟨8, a.slot, 0, 0, 0⟩
    else f (s.updInst a.q a.young fun p => { p with issued := setAdd p.issued a.slot }) n p
  | _, _ => s

/-- The depth of the lifeline that a resolver matches: the innermost that the ply opened itself (R203). -/
def explicitAt (p : Inst) : Option Nat :=
  let n := p.lives.length
  ((List.range n).reverse).find? fun i => match p.lives[i]? with
    | some l => l.kind == .life
    | none => false

/-- A branch lifeline opened within the scope that a resolver would close is still open: the resolver waits. -/
def branchWithin (p : Inst) (i : Nat) : Bool := (p.lives.drop i).any fun l => l.kind == .branch

/-- R223, R225: COMMIT or FROG of the matched lifeline at slot `k`. -/
def State.resolveLife (s : State) (q : Nat) (young : Bool) (k i : Nat) (commit : Bool) (p : Inst) : State :=
  if commit then (s.updInst q young (ctlDone k)).commitAt q young i
  else
    let from_ := match p.lives[i]? with | some l => l.slot + 1 | none => k
    (s.frogAt q young i false).updInst q young fun p => ctlDone k (skipSlots from_ k p)

/-- The value of the single element of A (R203, R204). -/
def State.ctlRead (s : State) (p : Inst) (k : Nat) : EV := s.evalReg p 0 k (slotIns p k).sa 0

/-- R204: the branch at slot `k` goes by value `v`. -/
def branchBy (k v : Nat) (p : Inst) : Bool × Inst :=
  let i := slotIns p k
  let taken := (decide (v ≠ 0)) != i.md.testBit 0
  (taken, ctlDone k (if taken then skipSlots (k + 1) i.aux p else p))

/-- R204, R231: BRC. -/
def State.brcStep (s : State) (a : SI) (n : Nat) (p : Inst) : State :=
  let k := a.slot
  if hazard p k then
    if optRaBranch p.entry && decide (s.openLives n < 4) then
      let took := (slotIns p k).md.testBit 1
      let s := s.openLife n a.q a.young .branch k took
      s.updInst a.q a.young fun p => ctlDone k (if took then skipSlots (k + 1) (slotIns p k).aux p else p)
    else s
  else
    match s.ctlRead p k with
    | .ok v _ l => (s.updInst a.q a.young fun p => noteFilter a.young p l).updInst a.q a.young fun p => (branchBy k v p).2
    | .wait => s
    | r => s.evFault a.q a.young k 0 r

/-- R231: A of a branch followed speculatively has been written. -/
def State.branchResolve (s : State) (q : Nat) (young : Bool) : State :=
  match s.inst q young with
  | none => s
  | some p =>
    match p.lives.findIdx? fun l => l.kind == .branch && !hazard p l.slot with
    | none => s
    | some i =>
      match p.lives[i]? with
      | none => s
      | some l =>
        match s.ctlRead p l.slot with
        | .ok v _ _ =>
          if (branchBy l.slot v p).1 = l.took then s.commitAt q young i
          else (s.frogAt q young i false).updInst q young fun p => (branchBy l.slot v p).2
        | .wait => s
        | r => s.evFault q young l.slot 0 r

/-- A control instruction writes the single element of D at position 0 and completes (R205, R206). -/
def State.ctlWrite (s : State) (n : Nat) (a : SI) (p : Inst) (v : Nat) : State :=
  let k := a.slot
  match s.destWrite p 0 k (slotIns p k).dst 0 v with
  | .error .wait => s
  | .error r => s.evFault a.q a.young k 0 r
  | .ok w =>
    match s.writeAll a.q a.young k 0 [w] with
    | none => s.specFull (s.bedsFor n p 0)
    | some s => s.updInst a.q a.young (ctlDone k)

/-- R205: an acquire ends when its element reaches IMM. -/
def State.acquire (s : State) (a : SI) (p : Inst) : State :=
  if hazard p a.slot then s
  else
    match s.ctlRead p a.slot with
    | .ok v _ l =>
      let s := s.updInst a.q a.young fun p => noteFilter a.young p l
      if (slotIns p a.slot).imm ≤ v then s.updInst a.q a.young (ctlDone a.slot) else s
    | .wait => s
    | r => s.evFault a.q a.young a.slot 0 r

/-- R206: WROW. -/
def State.wrow (s : State) (a : SI) (n : Nat) (p : Inst) : State :=
  let i := slotIns p a.slot
  if hazard p a.slot then s
  else
    match s.rowStatus (i.aux % 16) ((p.row0.toNat : Int) + signedOf 64 i.imm) with
    | none => s
    | some (v, s) => s.ctlWrite n a p v

end Sys2Proof.Machine
end

