-- ==== Sys2Proof/Machine/PlyEvents.lean ====
section
/-!
DEFINITION. Sys2Proof/Machine/PlyEvents.lean: what happens to plies, bed sets and beds beside their instructions (R21, R143 to R145,
R149, R150, R158, R164, R167, R221, R237, R240, R241), and the operations behind the queue registers.
-/
namespace Sys2Proof.Machine

/-- Whether an instance of a queue is FAULTED (R150). -/
def instFaulted (p : Option Inst) : Bool := match p with | some p => p.st == .faulted | none => false
def State.qFaulted (s : State) (q : Nat) : Bool := instFaulted (s.plq q).older || instFaulted (s.plq q).younger

/-- A queue of a set that has a ready unpinned ply (R143): a resumed one, or a waiting entry. -/
def State.qReady (s : State) (q : Nat) : Bool :=
  let x := s.plq q
  !s.flag F.PLQ_CTRL_PINEN q &&
    (match x.older with
      | some p => !p.pinned && p.st == .armed
      | none => s.qMayStart q && !x.wait.isEmpty)

/-- R143: the queue that a set serves next: the highest PRIO, then in turn after the queue served last. -/
def State.nextQueue (s : State) (n : Nat) : Option Nat :=
  let last := (s.bset n).last
  (sortBy (fun q => (3 - s.fld F.PLQ_CTRL_PRIO q) * 64 + (q + 63 - last) % 64) ((s.queuesOf n).filter s.qReady)).head?

/-- R143, R148: a set starts the next ready ply. -/
def State.plyStart (s : State) (n : Nat) : State :=
  if (s.bset n).run.isSome || s.pinnedBusy n then s
  else match s.nextQueue n with
    | none => s
    | some q =>
      let go := fun (s : State) =>
        (((s.setBset n { s.bset n with run := some q, last := q }).bindBeds n q).updInst q false fun p => { p with st := .running })
      match (s.plq q).older with
      | some _ => go s
      | none =>
        match (s.plq q).wait with
        | [] => s
        | e :: rest =>
          let s := s.setPlq q { s.plq q with wait := rest }
          match s.admitPly q e false e.row0 with
          | (.ok p, s) => go (s.setInst q false (some p))
          | (.refused c i a, s) => (s.postRefused q e c i a).setBset n { s.bset n with last := q }

/-- R143: PLY_START. -/
def execPlyStart (n : Nat) (s : State) : Host.Outcome State Fault Refusal := .next (s.when (decide (n < 64)) fun s => s.plyStart n)

/-- R145: the suspended ply's elements have committed and its progress is recorded. -/
def execSuspendComplete (n : Nat) (s : State) : Host.Outcome State Fault Refusal :=
  .next (match (s.bset n).run with
    | none => s
    | some q => s.updInst q false fun p => if p.st = .suspending then { handOver p with st := .suspended } else p)

/-- R150: the queue posts the FAULT record and enters FAULTED. -/
def State.plyFaulted (s : State) (q : Nat) (young : Bool) : State :=
  match s.inst q young with
  | none => s
  | some p =>
    match p.fault with
    | none => s
    | some f =>
      if p.st ≠ .running then s
      else
        let n := (s.setOf q).getD 0
        let s := s.updInst q young fun p => { handOver p with st := .faulted }
        let s := (s.post q (recOf p 2 f.cause f.instr f.lpos f.elem f.addr)).bump F.PLQ_CNT_8 q
        let s := if (s.bset n).run = some q ∧ !p.pinned then s.setBset n { s.bset n with run := none } else s
        s.resumeSet n

def execPlyFaulted (q : Nat) (young : Bool) (s : State) : Host.Outcome State Fault Refusal :=
  .next (s.when (decide (q < 64)) fun s => s.plyFaulted q young)

/-- R150, R234: RESUME of one FAULTED instance: it tinks from its progress registers; an unpinned one waits for its set. -/
def State.resumeInst (s : State) (q : Nat) (young : Bool) : State :=
  match s.inst q young with
  | none => s
  | some p =>
    if p.st ≠ .faulted then s
    else
      let n := (s.setOf q).getD 0
      let s := s.updInst q young fun p => { p with fault := none }
      if p.pinned then ((s.suspendSet n).bindBeds n q).updInst q young fun p => { p with st := .running }
      else if (s.bset n).run.isNone && !s.pinnedBusy n then
        ((s.setBset n { s.bset n with run := some q, last := q }).bindBeds n q).updInst q young fun p => { p with st := .running }
      else s.updInst q young fun p => { p with st := .armed }

/-- R150: PLQ_q_CMD.RESUME; ignored while nothing is FAULTED. -/
def State.resume (s : State) (q : Nat) : State := (s.resumeInst q false).resumeInst q true

/-- R150, R233: PLQ_q_CMD.ABORT of one FAULTED instance. -/
def State.abortInst (s : State) (q : Nat) (young : Bool) : State :=
  match s.inst q young with
  | none => s
  | some p =>
    if p.st ≠ .faulted then s
    else
      let s := s.xfrog ((s.setOf q).getD 0) q young false
      match s.inst q young with
      | none => s
      | some p => (s.post q (recOf p 4 0 0 0 0 0)).endInst q young

def State.abort (s : State) (q : Nat) : State := (s.abortInst q true).abortInst q false

/-- R149: a ply whose instructions have all finished retires. -/
def execPlyRetire (q : Nat) (s : State) : Host.Outcome State Fault Refusal :=
  .next (s.when (decide (q < 64)) fun s =>
    match s.inst q false with
    | none => s
    | some p =>
      if p.st == .running && p.lives.isEmpty && p.deferred.isEmpty && p.fault.isNone && !p.waitOld
          && (List.range p.prog.length).all (slotFin p) then s.retire q false
      else s)

/-- R149: the head record is popped; starts that its FIFO held back may go on. -/
def State.popCpl (s : State) (q : Nat) : State :=
  let x := s.plq q
  (s.setPlq q { x with cpl := x.cpl.drop 1, stopped := false }).pinTry q

/-- R167: an instruction in progress has exceeded its watchdog. -/
def State.plyWatchdog (s : State) (q : Nat) (young : Bool) (k : Nat) : State :=
  match s.inst q young, s.setOf q with
  | some p, some n =>
    if s.instLive n q p && p.issued.contains k && !slotFin p k then
      let pos := ((List.range p.b).find? fun x => decide (doneAt p k x < slotLen p k x)).getD 0
      (s.expiry).raiseFault q young ⟨5, k, pos, prgOf p k pos, 0⟩
    else s
  | _, _ => s

def execInstructionWatchdog (q : Nat) (young : Bool) (k : Nat) (s : State) : Host.Outcome State Fault Refusal :=
  .next (s.when (decide (q < 64 ∧ k < 32)) fun s => s.plyWatchdog q young k)

/-- R164, R238: a line request of a bed returns; under an older epoch it is discarded and counted. -/
def execBedRequestReturn (b : Nat) (epoch : Half) (s : State) : Host.Outcome State Fault Refusal :=
  .next (s.when (decide (b < 136)) fun s =>
    let n := s.fld F.BED_STAT_OUTST b
    let s' := s.setFld F.BED_STAT_OUTST (n - 1) b
    if n = 0 ∨ epoch ≠ (s.bed b).epoch then s'.bumpStale else s')

/-- R158: an instruction that an overlap held issues when the earlier one has finished. -/
def execHazardWaitEnd (a : SI) (s : State) : Host.Outcome State Fault Refusal :=
  .next (match s.inst a.q a.young, s.setOf a.q with
    | some p, some n =>
      if decide (a.slot < p.prog.length) && s.instLive n a.q p && slotReady p a.slot then
        s.updInst a.q a.young fun p => markIssued p a.slot
      else s
    | _, _ => s)

/-- R221: a bed stopped on a full speculation buffer resumes when an entry has freed. -/
def execSpecBufferFree (b : Nat) (s : State) : Host.Outcome State Fault Refusal :=
  .next (s.when (decide (b < 136)) fun s =>
    let n := s.fld F.BED_CTRL_SET b
    if (s.queuesOf n).all fun q => decide ((s.heldLines q (s.fld F.BED_CTRL_LPOS b)).length < 768) then
      s.setFld F.BED_STAT_SPECFULL 0 b
    else s)

/-- An instance with an instruction in flight. -/
def inFlight (p : Option Inst) : Bool := match p with | some p => p.st != .armed | none => false

/-- R21, R22: the gauge swaps the bed at a position of an idle set with the set's standby bed. -/
def State.gaugeSwap (s : State) (n lpos : Nat) : State :=
  let old := (s.setBeds n).find? fun b => s.fld F.BED_CTRL_LPOS b == lpos
  match old, s.spareBed n with
  | some b, some nb =>
    if (s.queuesOf n).any (fun q => inFlight (s.plq q).older || inFlight (s.plq q).younger) || (s.bset n).mig.isSome then s
    else
      let s := (s.queuesOf n).foldl (fun s q => s.raiseEpoch q) s
      let s := ((s.setFld F.BED_CTRL_STANDBY 0 nb).setFld F.BED_CTRL_LPOS lpos nb).setFld F.BED_STAT_CLKGATED 0 nb
      let s := s.setFld F.BED_CTRL_EN 0 b
      let s := s.setBed b { s.bed b with swapped := true }
      match (s.queuesOf n).head? with
      | some q => s.bindBeds n q
      | none => s
  | _, _ => s

def execGaugeSwap (n lpos : Nat) (s : State) : Host.Outcome State Fault Refusal :=
  .next (s.when (decide (n < 64 ∧ lpos < 128)) fun s => s.gaugeSwap n lpos)

/-- An entry of 0x2240 as it takes effect: SET [5:0], bound [6], owner [7], pinned [8]. A bound queue is enabled
(DEDUCED, notes/assumptions/80.md). -/
def State.queueEntry (s : State) (q e : Nat) : State :=
  let s := (s.setFld F.PLQ_BIND_SET (e % 64) q).setFld F.PLQ_BIND_BOUND (e / 64 % 2) q
  let s := if s.fld F.PLQ_CTRL_OWNER q = e / 128 % 2 then s else (s.setFld F.PLQ_CTRL_OWNER (e / 128 % 2) q).raiseEpoch q
  let s := (s.setFld F.PLQ_CTRL_PINEN (e / 256 % 2) q).setFld F.PLQ_CTRL_EN (e / 64 % 2) q
  s.setPlq q { s.plq q with entry := none }

/-- R454: the status of 0x2240 once no entry waits. -/
def State.queuesSettled (s : State) : State :=
  if (List.range 64).any fun q => (s.plq q).entry.isSome then s else s.finish 0x2240 0x41 true

/-- R30, R240: the bind-off of a queue with no instance left ends; a new owner or binding takes effect. -/
def State.endQBindoff (s : State) (q : Nat) : State :=
  let x := s.plq q
  if !s.qBindoff q || x.older.isSome || x.younger.isSome then s
  else
    let s := (s.setFld F.PLQ_STAT_BINDOFF 0 q).setFld F.PLQ_CTRL_EN 0 q
    let s := match x.newOwner with
      | some o => (s.setFld F.PLQ_CTRL_OWNER (b2n o) q).raiseEpoch q
      | none => s
    let s := match x.newBind with
      | some v => (s.setFld F.PLQ_BIND_BOUND (v / 64 % 2) q).setFld F.PLQ_BIND_SET (v % 64) q
      | none => s
    let s := s.setPlq q { s.plq q with newOwner := none, newBind := none }
    match x.entry with
    | some e => (s.queueEntry q e).queuesSettled
    | none => s

def execQueueBindoffEnd (q : Nat) (s : State) : Host.Outcome State Fault Refusal :=
  .next (s.when (decide (q < 64)) fun s => (s.endQBindoff q).settleChans)

/-- R241: the bind-off timeout cuts the remaining instances; the younger one's lifelines frog before the older one ends. -/
def State.bindoffCut (s : State) (q : Nat) : State :=
  if s.qBindoff q && ((s.plq q).older.isSome || (s.plq q).younger.isSome) then
    let s := (s.bump F.TMO_CNT1_24).expiry
    (((s.xfrog ((s.setOf q).getD 0) q true false).cutInst q false).cutInst q false).cutInst q true
  else s

def execBindoffCut (q : Nat) (s : State) : Host.Outcome State Fault Refusal := .next (s.when (decide (q < 64)) fun s => s.bindoffCut q)

end Sys2Proof.Machine
end

