-- ==== Sys2Proof/Machine/Gauge.lean ====
section
/-!
DEFINITION. Sys2Proof/Machine/Gauge.lean: bed tables, set frequencies, the rail, the power cap, measurements, rotation, retirement
(18_power_clocks_gauge.md R487 to R499; R17 to R23).
-/
namespace Sys2Proof.Machine

/-! ### Limits (R488, R491, R493, R522) -/

/-- The junction band after a reading in 0.1 °C (R491). -/
def newBand (old : Nat) (t : Int) : Nat :=
  if 1230 ≤ t then 2
  else if old = 2 ∧ 1200 ≤ t then 2
  else if 1030 ≤ t then 1
  else if 1 ≤ old ∧ 1000 ≤ t then 1
  else 0

/-- The band cap in MHz. -/
def bandCap (b : Nat) : Nat := match b with | 0 => 1600 | 1 => 1400 | _ => 1200

/-- The band cap of a domain now. -/
def State.capOf (s : State) (d : Nat) : Nat := bandCap (s.pwr.band.get d 0)

/-- Whether the point k of a bed's table is reachable, at the rail's held voltage after an AVSBus failure (R493, R522). -/
def State.reachable (s : State) (b k : Nat) : Bool :=
  let v := s.fld F.GAU_B_VF_16 b k
  decide (s.fld F.GAU_B_VF_0 b k ≠ 0) && decide (v ≠ 0xFFFF) && (!s.pwr.avsLost || decide (v + 15 ≤ s.pwr.rail))

/-- The table limit: the highest reachable F_k, 0 before the first measurement. -/
def State.tableLimit (s : State) (b : Nat) : Nat :=
  (List.range 16).foldl (fun m k => if s.reachable b k then max m (s.fld F.GAU_B_VF_0 b k) else m) 0

/-- The limit at present junction (R491). -/
def State.limitNow (s : State) (b : Nat) : Nat := min (s.capOf b) (s.tableLimit b)

/-- The stash limit: the lowest of the 8 quadrants under their band caps (R488). -/
def State.stashLimit (s : State) : Nat :=
  (List.range 8).foldl (fun m q => min m (s.capOf (136 + q))) (s.fld F.GAU_STHF_16)

/-- The beds of a set that run at its frequency: enabled, in a position, not retired (R487). -/
def State.clockedBeds (s : State) (n : Nat) : List Nat := (s.setBeds n).filter fun b => !s.flag F.BED_STAT_RETIRED b

/-- F_set before the power cap (R487, R488). -/
def State.freeF (s : State) (n : Nat) : Nat :=
  match s.clockedBeds n with
  | [] => 0
  | b :: t => t.foldl (fun m b => min m (s.limitNow b)) (min (s.limitNow b) s.stashLimit)

/-- The set frequency F_set, MHz (R487, R495, R496). -/
def State.fset (s : State) (n : Nat) : Nat := s.freeF n - s.pwr.cap.get n 0

/-- Sets with at least one bed. -/
def State.liveSets (s : State) : List Nat := (List.range 64).filter fun n => !(s.clockedBeds n).isEmpty

/-- The channels whose enabled, firmware-owned pinned queue of at most 24 instructions is bound to a set: such a set runs a
latency-qualified ply (R17, DEDUCED, notes/assumptions/70.md). -/
def State.latChans (s : State) (n : Nat) : List Nat :=
  ((s.queuesOf n).filter fun q =>
    s.pinnedOn q && !s.flag F.PLQ_CTRL_OWNER q && decide ((s.pinEntry q).nins ≤ 24)).map s.pinChan

def State.latq (s : State) (n : Nat) : Bool := !(s.latChans n).isEmpty

/-- The required frequency of a set (R495). -/
def State.required (s : State) (n : Nat) : Nat :=
  match s.latChans n with
  | [] => s.fld F.GAU_FMIN
  | cs => cs.foldl (fun m c => max m (s.odv (0x2100 + c) 0x17)) 0

/-! ### Supplies (R490) -/

/-- Rounded up to the next multiple of 5. -/
def up5 (v : Nat) : Nat := ceilDiv v 5 * 5

/-- A bed's table voltage interpolated at a frequency, rounded up to 5 mV (R490). -/
def State.supply (s : State) (b f : Nat) : Nat :=
  let k := (f - 400) / 80
  let v0 := s.fld F.GAU_B_VF_16 b k
  let v1 := s.fld F.GAU_B_VF_16 b (k + 1)
  let d := (f - 400) % 80
  if d = 0 ∨ k = 15 ∨ v1 = 0xFFFF then up5 v0
  else up5 (((v0 * (80 - d) + v1 * d) + 79) / 80)

/-- The rail that the beds, the quadrants and the slack of the fixed-clock domains ask for. -/
def State.railWanted (s : State) : Nat :=
  let bed := s.liveSets.foldl (fun m n => (s.clockedBeds n).foldl (fun m b => max m (s.supply b (s.fset n))) m) 0
  let sth := if s.fld F.GAU_STHF_0 = 0 then 0 else Config.stashSupply (s.fld F.GAU_STHF_0)
  min 850 (max 750 (15 + max bed sth) + s.pwr.extra)

/-- Frequencies, rail and status follow limits, caps and sets (R487 to R490, R495, R496). -/
def State.retune (s : State) : State :=
  let s := s.setFld F.GAU_STHF_0 (s.liveSets.foldl (fun m n => max m (s.fset n)) 0)
  let s := if s.pwr.avsLost then s else { s with pwr := { s.pwr with rail := s.railWanted } }
  let s := s.setFld F.PWR_PKG_16 s.pwr.rail
  let act := s.liveSets.any fun n => decide (0 < s.pwr.cap.get n 0)
  let s := (s.setFld F.PWR_STAT_CAPACT (b2n act)).setFld F.GAU_STAT_CAPACT (b2n act)
  let low := s.liveSets.any fun n => decide (0 < s.fset n ∧ s.fset n < s.required n)
  let s := if low && !s.flag F.GAU_STAT_BELOWREQ then s.emergency 0x4210 else s
  let s := s.setFld F.GAU_STAT_BELOWREQ (b2n low)
  if s.liveSets.any fun n => s.latq n && decide (0 < s.pwr.cap.get n 0 ∧ s.fset n < 1090) then s
  else s.setFld F.GAU_STAT_NOLAT 0

/-! ### Power cap (R496) -/

/-- The floor of a step of the cap for a set; `none` where the step leaves the set alone. -/
def State.capFloor (s : State) (step n : Nat) : Option Nat :=
  match step, s.latq n with
  | 1, false => some (s.fld F.GAU_FMIN)
  | 2, true => some (s.required n)
  | 3, false => some 400
  | 4, true => some 1090
  | 5, true => some 400
  | _, _ => none

/-- The set that a step lowers: the one with the highest F_set that stays at or above the floor. -/
def State.capPick (s : State) (step : Nat) : Option Nat :=
  (s.liveSets.filter fun n => match s.capFloor step n with | some f => decide (f + 10 ≤ s.fset n) | none => false).foldl
    (fun b n => match b with
      | none => some n
      | some m => if s.fset m < s.fset n then some n else some m) none

/-- One step down. -/
def State.capLower (s : State) : State :=
  match [1, 2, 3, 4, 5].findSome? fun k => (s.capPick k).map fun n => (k, n) with
  | none => s
  | some (k, n) =>
    let s := { s with pwr := { s.pwr with cap := s.pwr.cap.upd n 0 (· + 10) } }.bump F.PWR_CNT_0
    if k = 5 then (s.setFld F.GAU_STAT_NOLAT 1).emergency 0x4210 else s

/-- The set that a step raises again: below the ceiling that the step's lowering started from, the lowest F_set first. -/
def State.capRaisePick (s : State) (step : Nat) : Option Nat :=
  let ceiling := fun (n : Nat) => match step, s.latq n with
    | 5, true => some 1090
    | 4, true => some (s.required n)
    | 3, false => some (s.fld F.GAU_FMIN)
    | 2, true => some 1600
    | 1, false => some 1600
    | _, _ => none
  (s.liveSets.filter fun n => decide (0 < s.pwr.cap.get n 0) &&
    match ceiling n with | some f => decide (s.fset n < f) | none => false).foldl
    (fun b n => match b with
      | none => some n
      | some m => if s.fset n < s.fset m then some n else some m) none

/-- One step up, in the reverse order. -/
def State.capRaise (s : State) : State :=
  match [5, 4, 3, 2, 1].findSome? s.capRaisePick with
  | none => s
  | some n => { s with pwr := { s.pwr with cap := s.pwr.cap.upd n 0 (· - 10) } }

/-- R496: every 100 µs, with the package power of that interval in 0.1 W; the register shows the average of the last ten. -/
def execPowerCapStep (p : Nat) (s : State) : Host.Outcome State Fault Refusal :=
  let l := (p :: s.pwr.samples).take 10
  let avg := l.foldl (· + ·) 0 / l.length
  let s := { s with pwr := { s.pwr with samples := l } }.setFld F.PWR_PKG_0 avg
  let s := if 3200 < avg then { s with pwr := { s.pwr with low := 0 } }.capLower
    else if avg < 3100 then
      if 100 ≤ s.pwr.low then s.capRaise else { s with pwr := { s.pwr with low := s.pwr.low + 1 } }
    else { s with pwr := { s.pwr with low := 0 } }
  .next s.retune

/-- Latency-qualified sets without a standby bed, 0x2300:07 (R22). -/
def State.noStandby (s : State) (n : Nat) : Bool := s.latq n && !(s.clockedBeds n).isEmpty && (s.spareBed n).isNone

/-! ### A measurement (R493) -/

/-- The lowest voltage that the search reaches from `v` in steps of 5 mV, where the monitors pass from `low` up. -/
def vSearch (low : Nat) : Nat → Nat → Nat
  | 0, v => v
  | n + 1, v => if 650 < v ∧ low ≤ v - 5 then vSearch low n (v - 5) else v

/-- The table of a bed from the lowest passing voltage at each F_k (R493). -/
def State.measure (s : State) (b : Nat) (lows : List Nat) : State :=
  ((List.range 16).foldl (fun (acc : State × Bool) k =>
    let s := acc.1
    let old := s.fld F.GAU_B_VF_16 b k
    let v0 := if s.fld F.GAU_B_VF_0 b k = 0 then 835 else min 835 (old + 20)
    let low := lows.getD k 0xFFFF
    let dead := acc.2 || decide (v0 < low)
    let v := if dead then 0xFFFF else min 835 (vSearch low 40 v0 + s.fld F.GAU_MARGIN)
    ((s.setFld F.GAU_B_VF_16 v b k).setFld F.GAU_B_VF_0 (400 + 80 * k) b k, dead)) (s, false)).1

/-- A physical needle that already failed as a spare (R501). -/
def State.badNeedle (s : State) (b e : Nat) : Bool := s.gau.bad.contains (65536 + b * 256 + e)
def State.markBad (s : State) (kind u e : Nat) : State :=
  { s with gau := { s.gau with bad := (kind * 65536 + u * 256 + e) :: s.gau.bad } }

/-- R499: one needle fails the test: the lower free spare serves it; `false` where the bed must be retired. -/
def State.needleFail (s : State) (b e : Nat) : State × Bool :=
  let pa := s.fld F.RPR_NEED_PNA b
  let pb := s.fld F.RPR_NEED_PNB b
  if pa = e ∨ pb = e then (s, true)
  else if e = 32 then (s.markBad 1 b 32, decide (pa = 0x3F))
  else if e = 33 then (s.markBad 1 b 33, decide (pb = 0x3F))
  else if pa = 0x3F ∧ !s.badNeedle b 32 then
    ((((s.setFld F.RPR_NEED_PNA e b).setFld F.RPR_NEED_FIELDA 1 b).setFld F.RPR_STAT_UNSAVED 1), true)
  else if pb = 0x3F ∧ !s.badNeedle b 33 then
    ((((s.setFld F.RPR_NEED_PNB e b).setFld F.RPR_NEED_FIELDB 1 b).setFld F.RPR_STAT_UNSAVED 1), true)
  else (s, false)

/-- R499: every failed needle, the spares' own first; whether the bed stays. -/
def State.needleRepair (s : State) (b : Nat) (bad : List Nat) : State × Bool :=
  ((bad.filter fun e => decide (32 ≤ e)) ++ bad.filter fun e => decide (e < 32)).foldl (fun (acc : State × Bool) e =>
    let r := acc.1.needleFail b e
    (r.1, acc.2 && r.2)) (s, true)

/-- Power for a bed that was gated, with the patch copied (R418, R483). -/
def State.powerBed (s : State) (b : Nat) : State :=
  if s.flag F.BED_STAT_PWRGATED b then
    (s.setFld F.BED_STAT_PWRGATED 0 b).setBed b { s.bed b with patched := s.flag F.BED_UC_STAT_PATCHED }
  else s

/-- A bed joins a set as a bed without a position. -/
def State.joinSet (s : State) (b n : Nat) : State :=
  (((s.powerBed b).setFld F.BED_CTRL_SET n b).setFld F.BED_CTRL_STANDBY 1 b).setFld F.BED_CTRL_EN 1 b

/-- Position `pos` of a set moves to bed `nb`, or to the remaining beds (R23, R494). A set that no queue uses has no work to
migrate. -/
def State.movePos (s : State) (n pos : Nat) (nb : Option Nat) : State :=
  match (match (s.bset n).run with | some q => some q | none => (s.queuesOf n).head?) with
  | some q => s.migrate q pos nb false
  | none =>
    let s := match (s.setBeds n).find? fun b => s.fld F.BED_CTRL_LPOS b == pos with
      | some b => s.setFld F.BED_CTRL_EN 0 b
      | none => s
    match nb with
    | some b => (s.setFld F.BED_CTRL_STANDBY 0 b).setFld F.BED_CTRL_LPOS pos b
    | none => s

/-- Whether a set may give up a bed now: no migration, no queue in bind-off (R494). -/
def State.setQuiet (s : State) (n : Nat) : Bool := (s.bset n).mig.isNone && (s.queuesOf n).all fun q => !s.qBindoff q

/-- A bed is under measurement. -/
def State.beginMeasure (s : State) (b : Nat) : State :=
  let s := ((s.powerBed b).setFld F.GAU_STAT_BUSY 1).setFld F.GAU_STAT_BED b
  let s := if s.gau.early.contains b then s.bump F.GAU_CNT_0 else s
  let drop := fun (l : List Nat) => l.filter fun x => x != b
  { s with gau := { s.gau with
    bed := some b, next := s.gau.next.filter fun x => x != b, plan := drop s.gau.plan, early := drop s.gau.early } }

/-- R494: take a bed out of its set and measure it; a set that cannot give it up keeps it waiting. -/
def State.tryMeasure (s : State) (b : Nat) : State :=
  let n := s.fld F.BED_CTRL_SET b
  let pos := s.fld F.BED_CTRL_LPOS b
  if !(s.setBeds n).contains b then
    if s.flag F.BED_STAT_FENCED b then s else s.beginMeasure b
  else if !s.setQuiet n then s
  else if s.latq n then
    let t := s.gaugeSwap n pos
    if t.flag F.BED_CTRL_EN b then s else t.beginMeasure b
  else match s.freeBed with
    | some sp => ({ s with gau := { s.gau with take := (sp, n, some pos) :: s.gau.take } }).beginMeasure sp
    | none =>
      if (s.setBeds n).length < 2 then s
      else
        let s := s.movePos n pos none
        ({ s with gau := { s.gau with back := some (n, pos) } }).beginMeasure b

/-- A bed whose ring oscillators have slowed by more than GAU_ROTHR since its last measurement (R493). -/
def State.ringSlow (s : State) (b count : Nat) : Bool :=
  match s.gau.ring.find? fun e => e.1 == b with
  | some (_, old) => decide (count * 1000 < old * (1000 - s.fld F.GAU_ROTHR))
  | none => false

/-- Beds named for a measurement ahead of their turn. -/
def State.markEarly (s : State) (bs : List Nat) : State :=
  { s with gau := { s.gau with early := s.gau.early ++ bs.filter fun b => !s.gau.early.contains b } }

/-- Beds that the rotation measures: enabled in a set or standby (R494). -/
def State.rotation (s : State) : List Nat := (List.range 136).filter fun b => s.flag F.BED_CTRL_EN b && !s.flag F.BED_STAT_RETIRED b

/-- R494: the gauge takes the next bed: a spare being taken, one swapped out, one asked for, one that is early, then in turn.
`rings` gives the ring-oscillator counts of beds now. -/
def State.gaugeNext (s : State) (rings : List (Nat × Nat)) : State :=
  if s.gau.bed.isSome || !s.castOnDone then s
  else
    let s := s.markEarly ((rings.filter fun r => s.ringSlow r.1 r.2).map (·.1))
    let swapped := (List.range 136).find? fun b => (s.bed b).swapped
    let turn := match s.rotation.find? fun b => decide (s.gau.rot ≤ b) with
      | some b => some b
      | none => s.rotation.head?
    match s.gau.take with
    | (b, _, _) :: _ => s.beginMeasure b
    | [] => match swapped, s.gau.next, s.gau.plan with
      | some b, _, _ => s.beginMeasure b
      | none, some b, _ => s.tryMeasure b
      | none, none, b :: _ => s.tryMeasure b
      | none, none, [] =>
        if !s.flag F.GAU_CTRL_EN then s
        else match s.gau.early, turn with
          | b :: _, _ => s.tryMeasure b
          | [], some b =>
            let t := s.tryMeasure b
            if t.gau.bed.isSome then { t with gau := { t.gau with rot := b + 1 } } else t
          | [], none => s

def execGaugeMeasurement (rings : List (Nat × Nat)) (s : State) : Host.Outcome State Fault Refusal := .next (s.gaugeNext rings)

/-- What happens to a bed that is fit, by where it came from (R22, R494). -/
def State.bedFit (s : State) (b : Nat) : State :=
  match s.gau.take.find? fun t => t.1 == b with
  | some (_, n, pos) =>
    let s := ({ s with gau := { s.gau with take := s.gau.take.filter fun t => t.1 != b } }).joinSet b n
    match pos with
    | none => s.setFld F.BED_STAT_CLKGATED 1 b
    | some p =>
      let old := (s.setBeds n).find? fun x => s.fld F.BED_CTRL_LPOS x == p
      let s := s.movePos n p (some b)
      match old with
      | some o => { s with gau := { s.gau with plan := o :: s.gau.plan } }
      | none => s
  | none =>
    let n := s.fld F.BED_CTRL_SET b
    if (s.bed b).swapped then
      ((s.setBed b { s.bed b with swapped := false }).joinSet b n).setFld F.BED_STAT_CLKGATED 1 b
    else match s.gau.back with
      | some (m, p) =>
        if m = n ∧ !s.flag F.BED_CTRL_EN b then
          ((({ s with gau := { s.gau with back := none } }).joinSet b n).movePos n p (some b))
        else s
      | none => s

/-- What happens to a bed that is not: it is retired and a spare takes its place (R22, R495, R499). -/
def State.bedUnfit (s : State) (b : Nat) : State :=
  let n := s.fld F.BED_CTRL_SET b
  let standby := s.flag F.BED_CTRL_EN b && s.flag F.BED_CTRL_STANDBY b
  let sw := (s.bed b).swapped
  let taken := s.gau.take.find? fun t => t.1 == b
  let back := s.gau.back
  let s := (s.setBed b { s.bed b with swapped := false }).gaugeRetire b
  let s := { s with gau := { s.gau with take := s.gau.take.filter fun t => t.1 != b } }
  match taken with
  | some (_, m, pos) => s.takeSpare m pos
  | none =>
    if sw || standby then s.takeSpare n none
    else match back with
      | some (m, p) => if m = n then ({ s with gau := { s.gau with back := none } }).takeSpare n (some p) else s
      | none => s

/-- The frequency that decides whether a measured bed stays (R495): that of the set it serves or is taken for; a bed that serves
none needs only a table. -/
def State.needF (s : State) (b : Nat) : Nat :=
  match s.gau.take.find? fun t => t.1 == b with
  | some (_, n, _) => s.required n
  | none =>
    if (s.bed b).swapped || s.flag F.BED_CTRL_EN b then s.required (s.fld F.BED_CTRL_SET b)
    else match s.gau.back with
      | some (m, _) => if m = s.fld F.BED_CTRL_SET b then s.required m else 400
      | none => 400

/-- R495, R499: needle repair, then the bed stays, and `f` says how, or is retired. -/
def State.bedVerdict (s : State) (b : Nat) (needles : List Nat) (f : State → State) : State :=
  let r := s.needleRepair b needles
  if r.2 && decide (s.needF b ≤ r.1.tableLimit b) then f r.1 else r.1.bedUnfit b

/-- R493, R495, R499: a measurement ends with the lowest passing voltages, the junction T_m in 0.1 °C, the needles that failed and
the ring-oscillator count. -/
def State.gaugeEnd (s : State) (lows : List Nat) (tm : Int) (needles : List Nat) (ring : Nat) : State :=
  match s.gau.bed with
  | none => s
  | some b =>
    let s := ((s.measure b lows).setFld F.GAU_B_TJ_16 (tm % 65536).toNat b).bump F.GAU_CNT_16
    let s := (s.setFld F.GAU_STAT_BUSY 0)
    let s := { s with gau := { s.gau with bed := none, ring := s.gau.ring.set b ring } }
    let s := s.bedVerdict b needles fun s => s.bedFit b
    let s := if s.gau.next.isNone then s.finish 0x2300 5 true else s
    let s := if s.gau.plan.isEmpty then s.finish 0x2310 5 true else s
    s.retune

def execGaugeMeasurementEnd (lows : List Nat) (tm : Int) (needles : List Nat) (ring : Nat) (s : State) :
    Host.Outcome State Fault Refusal := .next (s.gaugeEnd lows tm needles ring)

/-- Beds a command asks to have measured (R454, R493, R494). -/
def State.planBeds (s : State) (idx sub : Nat) (bs : List Nat) : State :=
  let s := s.setOd idx sub 1
  { s with gau := { s.gau with plan := s.gau.plan ++ bs.filter fun b => !s.gau.plan.contains b } }

end Sys2Proof.Machine
end

