-- ==== Sys2Proof/Machine/Power.lean ====
section
/-!
DEFINITION. Sys2Proof/Machine/Power.lean: gating, sleep states, junction readings, the rail's AVSBus, bed request timeouts, microcode
faults and bed resets (R483 to R486, R491, R492, R504, R505, R513, R522, R414).
-/
namespace Sys2Proof.Machine

/-! ### Gating (R483) -/

/-- A ply of a set runs or is armed. -/
def State.setBusy (s : State) (n : Nat) : Bool :=
  (s.bset n).run.isSome || (s.queuesOf n).any fun q => (s.plq q).older.isSome || (s.plq q).younger.isSome

/-- The beds enabled in a set, its standby bed included. -/
def State.bedsOf (s : State) (n : Nat) : List Nat :=
  (List.range 136).filter fun b => s.flag F.BED_CTRL_EN b && decide (s.fld F.BED_CTRL_SET b = n)

/-- R483: a set idle for 64 bed cycles is clock-gated. -/
def execClockGate (n : Nat) (s : State) : Host.Outcome State Fault Refusal :=
  .next (s.when (decide (n < 64) && !s.setBusy n) fun s =>
    (s.bedsOf n).foldl (fun s b => if s.flag F.BED_STAT_PWRGATED b then s else s.setFld F.BED_STAT_CLKGATED 1 b) s)

/-- R483: a gated bed wakes; from power gating the patch is copied (R418). -/
def execBedWake (b : Nat) (s : State) : Host.Outcome State Fault Refusal :=
  .next (s.when (decide (b < 136)) fun s => (s.powerBed b).setFld F.BED_STAT_CLKGATED 0 b)

/-- Beds powered, with the patch copied and clock-gated, as every wake of many beds leaves them (R485, R486). -/
def State.powerBeds (s : State) : State :=
  (List.range 136).foldl (fun s b =>
    if s.flag F.BED_CTRL_EN b && s.flag F.BED_STAT_PWRGATED b then (s.powerBed b).setFld F.BED_STAT_CLKGATED 1 b else s) s

/-- Every bed's power switch opens; no patch outlives it (R418, R483, R484). -/
def State.gateBeds (s : State) : State :=
  (List.range 136).foldl (fun s b =>
    ((s.setFld F.BED_STAT_PWRGATED 1 b).setFld F.BED_STAT_CLKGATED 0 b).setBed b { s.bed b with patched := false }) s

/-! ### The end of a migration (R237, R460) -/

/-- An entry of 0x2200 as it takes effect: EN [0], STANDBY [1], SET [7:2], LPOS [14:8]. -/
def State.mapEntry (s : State) (b e : Nat) : State :=
  let s := s.setBed b { s.bed b with entry := none }
  let s := ((s.setFld F.BED_CTRL_STANDBY (e / 2 % 2) b).setFld F.BED_CTRL_SET (e / 4 % 64) b).setFld F.BED_CTRL_LPOS (e / 256 % 128) b
  if e % 2 = 1 then ((s.powerBed b).setFld F.BED_CTRL_EN 1 b).setFld F.BED_STAT_CLKGATED 0 b
  else (s.setFld F.BED_CTRL_EN 0 b).setFld F.BED_STAT_PWRGATED 1 b

/-- Entries of 0x2200 that waited for a migration that has ended take effect, and its status says so. -/
def State.mapSettled (s : State) : State :=
  let still := fun (b : Nat) => (List.range 64).any fun n => match (s.bset n).mig with | some m => m.old == b || m.new == b | none => false
  let s := (List.range 136).foldl (fun s b => match (s.bed b).entry with
    | some e => if still b then s else s.mapEntry b e
    | none => s) s
  if (List.range 136).any (fun b => (s.bed b).entry.isSome) then s else s.finish 0x2200 0x89 true

/-- R237: the old bed has none of its requests outstanding and the migration ends. -/
def execMigrationDrainEnd (n : Nat) (s : State) : Host.Outcome State Fault Refusal :=
  .next (match (s.bset n).mig with
    | none => s
    | some m => if s.fld F.BED_STAT_OUTST m.old = 0 then ((s.endMigration n false).mapSettled).retune else s)

/-- R237, R503: the drain timeout ends the migration, and the old bed is reset. -/
def execMigrationDrainTimeout (n : Nat) (s : State) : Host.Outcome State Fault Refusal := 
  .next (s.when (s.bset n).mig.isSome fun s => ((s.endMigration n true).mapSettled).retune)

/-! ### Web stopped (R484, R485) -/

/-- R484: no channel is in RUN, or every channel in RUN follows an encoder that reads STOPPED. -/
def State.webIdle (s : State) : Bool :=
  (List.range 16).all fun n =>
    (s.chan n).st != .run || (decide (s.bsrc n = 1) && s.flag F.TIO_ENC_STAT_STOPPED (s.encOf n))

/-- R484; a ply in flight holds the entry off (DEDUCED, notes/assumptions/71.md). -/
def execWebStoppedEntry (s : State) : Host.Outcome State Fault Refusal :=
  .next (s.when (s.flag F.PWR_CTRL_WSDEN && decide (s.fld F.PWR_STAT_SLEEP = 0) && s.castOnDone && s.webIdle
      && (List.range 64).all fun n => !s.setBusy n) fun s =>
    ((((s.setFld F.PWR_STAT_SLEEP 1).setFld F.PWR_STAT_WAKING 0).bump F.PWR_CNT_16).gateBeds).raise 180)

/-- R485: the wake from web-stopped starts: bed power switches close. -/
def execWebStoppedExit (s : State) : Host.Outcome State Fault Refusal :=
  .next (s.when (decide (s.fld F.PWR_STAT_SLEEP = 1)) fun s => s.setFld F.PWR_STAT_WAKING 1)

/-- R485: 5 µs later the device runs. -/
def execWakeComplete (s : State) : Host.Outcome State Fault Refusal :=
  .next (s.when (decide (s.fld F.PWR_STAT_SLEEP = 1) && s.flag F.PWR_STAT_WAKING) fun s =>
    ((s.powerBeds.setFld F.PWR_STAT_SLEEP 0).setFld F.PWR_STAT_WAKING 0).raise 180)

/-! ### Standby (R484, R486) -/

/-- Links lose their receivers' power. -/
def State.linksOff (s : State) : State :=
  (List.range 32).foldl (fun s l =>
    (((s.setFld F.CXP_LNK_STAT_UP 0 l).setFld F.CXP_LNK_STAT_LOCK 0 l).setFld F.CXP_LNK_STAT_HBOK 0 l)) s

/-- Whether an address lies in the stash. -/
def inStash (a : Nat) : Bool := decide (stashBase ≤ a) && decide (a < stashBase + stashSize)

/-- The stash loses its contents, poison and tags. -/
def Mem.dropStash (m : Mem) : Mem :=
  { cells := m.cells.filter fun e => !inStash e.1, poison := m.poison.filter fun a => !inStash a
    bad := m.bad.filter fun a => !inStash a, tags := m.tags.filter fun a => !inStash a }

/-- What does not survive standby: stash contents and ply queue state (R486). -/
def State.dropForStandby (s : State) : State :=
  { s with stash := { Stash.init with dead := s.stash.dead }, mem := Mem.dropStash s.mem, ply := { s.ply with q := [], set := [] } }

/-- R484, R486: standby from device IDLE: stash contents, ply queue state and output queues are lost. -/
def State.enterStandby (s : State) : State :=
  if s.devState = 1 ∧ s.fld F.PWR_STAT_SLEEP ≠ 2 then
    ((s.disarm.gateBeds.linksOff.setFld F.PWR_STAT_SLEEP 2).setFld F.PWR_STAT_WAKING 0).dropForStandby.raise 180
  else s

/-- R486: the return from standby starts. -/
def State.leaveStandby (s : State) : State :=
  if s.fld F.PWR_STAT_SLEEP = 2 then { s.setFld F.PWR_STAT_WAKING 1 with pwr := { s.pwr with leaving := true } } else s

/-- One bed gauged as at cast-on. -/
def State.gaugeOne (s : State) (m : BedMeas) : State :=
  let b := m.bed
  let s := (s.measure b m.lows).setFld F.GAU_B_TJ_16 (m.tm % 65536).toNat b
  let s := { s.bump F.GAU_CNT_16 with gau := { s.gau with ring := s.gau.ring.set b m.ring } }
  s.bedVerdict b m.needles id

/-- Stash quadrants and fixed-clock domains gauged: the lowest quadrant limit, how far slack raises the rail, and each domain's worst
slack in % (R488, R490). -/
def State.gaugeDomains (s : State) (stash extra : Nat) (slack : List (Nat × Nat)) : State :=
  let s := slack.foldl (fun s e => s.setFld F.GAU_DOM_SLACK e.2 e.1) s
  let s := ({ s with pwr := { s.pwr with extra := extra } }.setFld F.GAU_STHF_16 stash).retune
  if decide (s.pwr.rail = 850) && slack.any fun (e : Nat × Nat) => decide (e.2 < s.fld F.GAU_GUARD) then
    (s.setFld F.GAU_STAT_DOMLOW 1).raise 179
  else s

/-- R486: the device is IDLE again: stash cleared, beds of sets powered and gauged as at cast-on. -/
def execStandbyExitDone (ms : List BedMeas) (stash extra : Nat) (slack : List (Nat × Nat)) (s : State) :
    Host.Outcome State Fault Refusal :=
  .next (s.when (decide (s.fld F.PWR_STAT_SLEEP = 2) && s.flag F.PWR_STAT_WAKING) fun s =>
    let s := s.powerBeds
    let s := ((ms.filter fun m => s.flag F.BED_CTRL_EN m.bed).foldl State.gaugeOne s).gaugeDomains stash extra slack
    let s := ((s.setFld F.PWR_STAT_SLEEP 0).setFld F.PWR_STAT_WAKING 0).raise 180
    { s with pwr := { s.pwr with leaving := false } }.finish 0x2700 3 true)

/-! ### Junction readings and the trip (R491, R492) -/

/-- R492: the always-on island trips the device. -/
def State.trip (s : State) : State :=
  let s := ((s.disarm.reinit false).driveSafe.send (.coreEn false)).setFld F.PWR_STAT_TRIP 1
  { s with pwr := { s.pwr with coreEn := false } }

/-- One sensor's reading. -/
def State.readJunction (s : State) (d : Nat) (t : Int) : State :=
  let s := { s with pwr := { s.pwr with band := s.pwr.band.set d (newBand (s.pwr.band.get d 0) t) } }
  if d < 136 then
    let s := s.setFld F.GAU_B_TJ_0 (t % 65536).toNat d
    if s.fld F.GAU_B_VF_0 d 0 ≠ 0 ∧ signedOf 16 (s.fld F.GAU_B_TJ_16 d) + 100 < t then s.markEarly [d] else s
  else s

/-- R491: every junction sensor is read, by domain, in 0.1 °C. -/
def execJunctionRead (ts : List (Nat × Int)) (s : State) : Host.Outcome State Fault Refusal :=
  let s := ts.foldl (fun s e => s.readJunction e.1 e.2) s
  let s := match ts with
    | [] => s
    | e :: t => { s with pwr := { s.pwr with hottest := t.foldl (fun (m : Int) (x : Nat × Int) => if m < x.2 then x.2 else m) e.2 } }
  .next (if ts.any fun e => decide (1600 ≤ e.2) then s.trip else s.retune)

/-- R492: the island's sensor reads below 140 °C and the device restarts with a cold reset. -/
def execThermalRestart (s : State) : Host.Outcome State Fault Refusal :=
  .next (s.when (s.flag F.PWR_STAT_TRIP && !s.pwr.coreEn) fun s =>
    { s.systemReset 1 .thermal with pwr := { s.pwr with coreEn := true, band := [] } }.send (.coreEn true))

/-! ### AVSBus (R522) -/

/-- R522: three transactions in succession failed; the rail stays. -/
def execAvsTransactionFail (s : State) : Host.Outcome State Fault Refusal :=
  .next ((({ s with pwr := { s.pwr with avsLost := true } }.setFld F.PWR_SUPMON_AVSFAIL 1).raise 180).retune)

/-- R522: every 100 ms transactions are tried again. -/
def execAvsRetry (ok : Bool) (s : State) : Host.Outcome State Fault Refusal :=
  .next (s.when s.pwr.avsLost fun s =>
    let s := s.send (.avs s.railWanted)
    if ok then { s with pwr := { s.pwr with avsLost := false } }.retune else s)

/-! ### Beds that time out, fault or are reset (R504, R505, R513, R414) -/

/-- R503, R505: a bed's request timeout expires. -/
def State.bedTimeout (s : State) (b : Nat) : State :=
  let s := (s.bump F.TMO_CNT0_24).expiry
  if s.flag F.BED_STAT_FENCED b || (s.bed b).toWait.isSome then s
  else
    let n := s.fld F.BED_CTRL_SET b
    let again := match (s.bed b).lastTo with | some t => decide (s.uptime < t + 3600000000000) | none => false
    let s := (s.setBed b { s.bed b with lastTo := some s.uptime }).raise 178
    let s := if again then s else { s with gau := { s.gau with plan := s.gau.plan ++ [b] } }
    if (s.bset n).mig.isSome then s.setBed b { s.bed b with toWait := some again } else s.timeoutMove b again

def execBedRequestTimeout (b : Nat) (s : State) : Host.Outcome State Fault Refusal :=
  .next (s.when (decide (b < 136) && (s.setBeds (s.fld F.BED_CTRL_SET b)).contains b) fun s => s.bedTimeout b)

/-- R414: a microcode fault stops the bed and takes the bed request action at once. -/
def execMicrocodeFault (b uaddr : Nat) (s : State) : Host.Outcome State Fault Refusal :=
  .next (s.when (decide (b < 136)) fun s =>
    let s := (((s.bump F.BED_UCFAULT_COUNT).setFld F.BED_UCFAULT_BED b).setFld F.BED_UCFAULT_VALID 1).setFld F.BED_UCFAULT_UADDR uaddr
    s.bedTimeout b)

/-- R513: a bed of a running set has its position migrated first; another is reset at once. -/
def State.bedReset (s : State) (b : Nat) : State :=
  let n := s.fld F.BED_CTRL_SET b
  if (s.setBeds n).contains b && !(s.queuesOf n).isEmpty then
    if (s.bset n).mig.isSome then s.setBed b { s.bed b with toWait := some false } else s.migrateHw b
  else s.resetBed b

end Sys2Proof.Machine
end

