-- ==== Sys2Proof/Machine/Voter.lean ====
section
/-!
DEFINITION. Sys2Proof/Machine/Voter.lean: dropped stitches, resynchronisation, loss of majority, the self-test, and checked plies
(13_redundancy.md R377 to R392). The three cores of a voted complex hold one state, kept as core 0's (DESIGN CHOICE, notes/assumptions/72.md).
-/
namespace Sys2Proof.Machine

/-- R392: one record; a full FIFO keeps its oldest entries. -/
def State.recordStitch (s : State) (info addr : Nat) : State :=
  let s := s.emergency 0xFF02
  if 16 ≤ s.vot.ds.length then s.setFld F.VOT_STAT_DSOVF 1
  else { s with vot := { s.vot with ds := s.vot.ds ++ [⟨BitVec.ofNat 32 info, s.tb.time, BitVec.ofNat 64 addr⟩] } }

/-- VOT_DS_INFO of a voter stitch. -/
def voterInfo (minority point thr : Nat) : Nat := minority * 32 + point * 4 + thr

/-- VOT_DS_INFO of a checked-ply mismatch. -/
def checkedInfo (a b q k : Nat) : Nat := 2 ^ 31 + a * 2 ^ 23 + b * 2 ^ 15 + q * 2 ^ 9 + k * 16

/-- Three cores vote. -/
def State.threeVote (s : State) : Bool := s.voted && !s.flag F.VOT_STAT_RESYNC && !s.flag F.VOT_STAT_DEGRADED

/-- R380: two cores agree and the third does not: its commit is discarded and it is resynchronised. -/
def State.startResync (s : State) (core : Nat) : State :=
  { s.setFld F.VOT_STAT_RESYNC 1 with vot := { s.vot with minority := some core, swept := false } }

def execDroppedStitch (core point thr addr : Nat) (s : State) : Host.Outcome State Fault Refusal :=
  .next (s.when (s.threeVote && decide (core < 3 ∧ point < 6 ∧ thr < 4)) fun s =>
    (((s.recordStitch (voterInfo core point thr) addr).bump F.VOT_CNT_24).startResync core).raise 181)

/-- R380: the sweep of core M's registers has ended. -/
def execResyncSweepEnd (s : State) : Host.Outcome State Fault Refusal :=
  .next (s.when (s.flag F.VOT_STAT_RESYNC) fun s => { s with vot := { s.vot with swept := true } })

/-- R380: the last thread has joined and the core votes again. -/
def execResyncJoin (s : State) : Host.Outcome State Fault Refusal :=
  .next (s.when (s.flag F.VOT_STAT_RESYNC && s.vot.swept) fun s =>
    let s := { s with vot := { s.vot with minority := none, swept := false } }
    ((((s.setFld F.VOT_STAT_RESYNC 0).setFld F.VOT_STAT_HELD 0).setFld F.VOT_STAT_DEGRADED 0).bump F.VOT_CNT_8).raise 181)

/-- R381: the core is held in reset and the voter goes on with two. -/
def execResyncTimeout (s : State) : Host.Outcome State Fault Refusal :=
  .next (s.when (s.flag F.VOT_STAT_RESYNC) fun s =>
    let core := s.vot.minority.getD 0
    let s := { s with vot := { s.vot with minority := none, swept := false } }
    ((s.setFld F.VOT_STAT_RESYNC 0).setFld F.VOT_STAT_HELD (core + 1)).setFld F.VOT_STAT_DEGRADED 1)

/-- R382: no majority: none of the commits is performed, ARMED clears and the hook complex is reset. -/
def execNoMajority (point thr addr : Nat) (s : State) : Host.Outcome State Fault Refusal :=
  .next (s.when (s.voted && decide (point < 6 ∧ thr < 4)) fun s =>
    ((((s.recordStitch (voterInfo 3 point thr) addr).bump F.VOT_CNT_24).setFld F.VOT_STAT_NOMAJ 1).emergency 0x5000).hookReset
      .noMajority)

/-- R383, R384: the 18 cases have run; `fail` is the first that failed. FAIL stands until the next cast-on, and disarms (R71). -/
def State.selfTest (s : State) (fail : Option Nat) : State :=
  let s := s.setFld F.VOT_STEST_DONE 1
  match fail with
  | none => s
  | some k =>
    let s := if s.flag F.VOT_STEST_FAIL then s
      else ((s.setFld F.VOT_STEST_FAIL 1).setFld F.VOT_STEST_FCASE k)
    s.disarm

/-- VOT_CMD.RESYNC (R381). -/
def State.resyncHeld (s : State) : State :=
  if s.fld F.VOT_STAT_HELD = 0 ∨ s.flag F.VOT_STAT_RESYNC then s else s.startResync (s.fld F.VOT_STAT_HELD - 1)

/-! ### Checked plies (R388 to R391) -/

/-- Whether a bed's mark still stands (R391). -/
def State.marked (s : State) (b : Nat) : Bool :=
  match (s.bed b).mark with
  | some t => decide (s.uptime < t + s.fld F.VOT_CHKWIN * 1000000000)
  | none => false

/-- R390: every open lifeline of a set is frogged externally, its epochs rise, and each position hands over but the mismatched one,
whose segment restarts. -/
def State.checkStop (s : State) (n pos : Nat) : State :=
  let each := fun (f : State → Nat → Bool → State) (s : State) => (s.queuesOf n).foldl (fun s q => f (f s q false) q true) s
  let s := (s.queuesOf n).foldl (fun s q => s.raiseEpoch q) s
  let s := each (fun s q y => s.xfrog n q y true) s
  each (fun s q y => s.updInst q y fun p => handOver (loseSegment p pos)) s

/-- The bed at a position of a set. -/
def State.holder (s : State) (n lpos : Nat) : Option Nat := (s.setBeds n).find? fun b => s.fld F.BED_CTRL_LPOS b == lpos

/-- Two beds of a set change places. -/
def State.swapPos (s : State) (a b : Nat) : State :=
  let pa := s.fld F.BED_CTRL_LPOS a
  let pb := s.fld F.BED_CTRL_LPOS b
  (s.setFld F.BED_CTRL_LPOS pb a).setFld F.BED_CTRL_LPOS pa b

/-- A bed and the standby bed change places. -/
def State.swapStandby (s : State) (b sb : Nat) : State :=
  let p := s.fld F.BED_CTRL_LPOS b
  let s := ((s.setFld F.BED_CTRL_STANDBY 0 sb).setFld F.BED_CTRL_LPOS p sb).setFld F.BED_STAT_CLKGATED 0 sb
  (s.setFld F.BED_CTRL_STANDBY 1 b).setFld F.BED_STAT_CLKGATED 1 b

/-- R391: a bed marked before is retired; a spare takes its position if one is free. -/
def State.checkRetire (s : State) (n b : Nat) : State :=
  let p := s.fld F.BED_CTRL_LPOS b
  ((s.retireBed b).bump F.VOT_CNT_0).takeSpare n (some p)

/-- R390, R391: a pair compare fails for element `elem` of an instruction at a logical position of a checked ply. -/
def State.checkedMismatch (s : State) (q : Nat) (young : Bool) (k pos elem : Nat) : State :=
  match s.inst q young, s.setOf q with
  | some p, some n =>
    match s.holder n (2 * pos), s.holder n (2 * pos + 1) with
    | some a, some b =>
      if !optChecked p.entry || p.st ≠ .running then s
      else
        let s := ((s.recordStitch (checkedInfo a b q k) elem).bump F.VOT_CNT_16).raise 182
        let gone := [a, b].filter s.marked
        let s := [a, b].foldl (fun s x => s.setBed x { s.bed x with mark := some s.uptime }) s
        let spare := s.freeBed.isSome
        let s := s.checkStop n pos
        match gone with
        | _ :: _ =>
          let s := gone.foldl (fun s x => s.checkRetire n x) s
          let s := s.bindBeds n q
          if spare then s else s.raiseFault q young ⟨7, k, pos, elem, 0⟩
        | [] =>
          if 2 ≤ p.b then
            match s.holder n (2 * ((pos + 1) % p.b) + 1) with
            | some c => (s.swapPos b c).bindBeds n q
            | none => s
          else match s.spareBed n with
            | some sb => (s.swapStandby b sb).bindBeds n q
            | none => s.raiseFault q young ⟨7, k, pos, elem, 0⟩
    | _, _ => s
  | _, _ => s

def execCheckedMismatch (q : Nat) (young : Bool) (k pos elem : Nat) (s : State) : Host.Outcome State Fault Refusal :=
  .next (s.when (decide (q < 64 ∧ k < 32 ∧ pos < 64)) fun s => s.checkedMismatch q young k pos elem)

/-- R391: a mark clears VOT_CHKWIN seconds later. -/
def execCheckMarkExpiry (b : Nat) (s : State) : Host.Outcome State Fault Refusal :=
  .next (s.when (decide (b < 136) && !s.marked b) fun s => s.setBed b { s.bed b with mark := none })

end Sys2Proof.Machine
end

