-- ==== Sys2Proof/Machine/CastOn.lean ====
section
/-!
DEFINITION. Sys2Proof/Machine/CastOn.lean: the stages of cast-on, their failures and restarts, the hand-over, the restart of the hook
complex, repairs and microcode patches (14_cast_on_microcode.md R393 to R417, R498 to R501, R511).
-/
namespace Sys2Proof.Machine

/-- The conditions of ARM_REQ that the hardware itself applies (R70, R384). -/
def State.armReq (s : State) : State := if s.voted && !s.flag F.VOT_STEST_FAIL then s.setFld F.TIO_ARM_ARMED 1 else s

/-- A flag of 0x2010:04. -/
def State.castFlag (s : State) (k : Nat) : State := { s with cast := { s.cast with flags := s.cast.flags ||| 2 ^ k } }

/-- Stage `n` is the present one: cast-on has not ended, or this is the restart of the hook complex alone (R393, R511). -/
def State.stageNow (s : State) (n : Nat) : Bool :=
  decide (s.fld F.TMO_CASTON_STAGE = n) && !s.flag F.TMO_CASTON_SAFE
    && (if s.cast.hookOnly then decide (n = 1 ∨ n = 3 ∨ n = 8) else !s.flag F.TMO_CASTON_DONE)

/-- Stage `n` has ended and the next one starts; the hook complex alone runs stages 1, 3 and 8 (R511). -/
def State.stageEnd (s : State) (n : Nat) : State :=
  let next := if s.cast.hookOnly then (if n = 1 then 3 else 8) else n + 1
  s.setFld F.TMO_CASTON_STAGE next

/-- R397: cast-on ends in SAFE with a code. -/
def State.goSafe (s : State) (code : Nat) : State :=
  (((s.disarm.setFld F.TMO_CASTON_SAFE 1).setFld F.TMO_CASTON_CODE code)).driveSafe

/-- R511: a restart of the hook complex that fails starts a warm reset. -/
def State.restartFailed (s : State) : State := s.systemReset 2 .restartFailed

/-! ### Stages 0 to 3 -/

/-- Stage 0: supplies good, reference present, reset inputs high; fuses sensed and the Kethar self-test run (`ok`). -/
def execCastOnStage0 (ok : Bool) (s : State) : Host.Outcome State Fault Refusal :=
  .next (s.when (s.stageNow 0 && s.pwr.coreEn && !s.pwr.porst && !s.pwr.sysrst && !s.tb.refLost) fun s =>
    if ok then
      let rom := (List.range 0x20000).map Config.bootRom
      ((s.setMeas 0 (Config.sha256 rom)).measSlots).stageEnd 0
    else s.goSafe 1)

/-- Memory outside working SRAM, and without TCM. -/
def Mem.clearHook (m : Mem) (sram : Bool) : Mem :=
  let out := fun (a : Nat) =>
    !(decide (0x2000000 ≤ a) && decide (a < 0x20C0000)) && !(sram && decide (0x100000 ≤ a) && decide (a < 0x500000))
  { cells := m.cells.filter fun e => out e.1, poison := m.poison.filter out, bad := m.bad.filter out, tags := m.tags.filter out }

/-- Stage 1: the voter's self-test, TCM and working SRAM cleared; a restart of the hook complex alone keeps working SRAM. -/
def execCastOnStage1 (sramOk : Bool) (fail : Option Nat) (s : State) : Host.Outcome State Fault Refusal :=
  .next (s.when (s.stageNow 1) fun s =>
    if !sramOk then (if s.cast.hookOnly then s.restartFailed else s.goSafe 2)
    else
      let s := { s with mem := Mem.clearHook s.mem (!s.cast.hookOnly) }
      let s := s.selfTest fail
      (if s.flag F.VOT_STEST_FAIL then s.castFlag 2 else s).stageEnd 1)

/-- Stage 2: SFDP and both headers. `image` is what a programmer has put into the flash since the device last read it. -/
def execCastOnStage2 (mode : FlashMode) (size erase : Nat) (image : Option (List (Nat × Byte))) (s : State) :
    Host.Outcome State Fault Refusal :=
  .next (s.when (s.stageNow 2) fun s =>
    let s := { s with cast := { s.cast with size := size, erase := erase, flash := image.getD s.cast.flash } }
    if mode = .none then s.goSafe 3
    else if s.flashOrder.isEmpty then s.goSafe 4
    else s.stageEnd 2)

/-- R406: the firmware image's place in working SRAM. -/
def fwSizeOk (c : Container) : Bool :=
  decide (c.payload.length ≤ 0x300000) && decide (c.load % 16 = 0) && decide (0x100000 ≤ c.load)
    && decide (c.load + c.payload.length ≤ 0x500000)

/-- The firmware image of a header: accepted, or the code of its failure. -/
def State.tryFw (s : State) (f : FlashHdr) : Except Nat Container × State :=
  match f.dir.find? fun e => e.typ == 1 with
  | none => (.error 5, s)
  | some e =>
    let bytes := s.flashBytes e.off e.len
    match parseContainer bytes 1 with
    | some c =>
      if !fwSizeOk c then (.error 6, s)
      else match s.verifyCount bytes 1 with
        | (.ok c, s) => (.ok c, s)
        | (.error _, s) => (.error 5, s)
    | none => (.error 5, s.bump F.KTH_CNT_24)

/-- The headers in turn: the one whose firmware is accepted, or the last code. -/
def State.tryHeaders (s : State) : List (Nat × FlashHdr) → Except Nat (Nat × FlashHdr × Container) × State
  | [] => (.error 5, s)
  | (h, f) :: rest =>
    match s.tryFw f with
    | (.ok c, s) => (.ok (h, f, c), s)
    | (.error e, s) => if rest.isEmpty then (.error e, s) else s.tryHeaders rest

/-- The image goes into working SRAM; register 1 is written once (R426, R396). -/
def State.takeFw (s : State) (first : Bool) (h : Nat) (f : FlashHdr) (c : Container) : State :=
  let m := Config.sha256 c.whole
  if s.cast.restart && s.meas 1 != 0 && s.meas 1 != m then s.goSafe 5
  else
    let s := (s.store c.load c.payload).setMeas 1 m
    let s := (s.setFld F.KTH_POLICY (b2n f.attest))
    let s := { s with cast := { s.cast with
      used := some h, load := c.load, length := c.payload.length, entry := c.entry, version := c.version
      integrator := decide (c.signer = 1), fwHead := c.msg.take 0x60, fwSig := c.sig } }
    (if first then s else s.castFlag 0).stageEnd 3

/-- R511: the image in working SRAM is verified again and compared with KTH_MEAS1. -/
def State.againFw (s : State) : State :=
  let bytes := s.cast.fwHead ++ s.peekN s.cast.load s.cast.length ++ s.cast.fwSig
  match s.verifyCount bytes 1 with
  | (.ok c, s) => if Config.sha256 c.whole = s.meas 1 then s.stageEnd 3 else s.restartFailed
  | (.error _, s) => s.restartFailed

/-- Stage 3: the firmware image, with the fallback to the other header (R403, R406). -/
def execCastOnStage3 (s : State) : Host.Outcome State Fault Refusal :=
  .next (s.when (s.stageNow 3) fun s =>
    if s.cast.hookOnly then s.againFw
    else
      let order := s.flashOrder
      match s.tryHeaders order with
      | (.error e, s) => s.goSafe e
      | (.ok (h, f, c), s) => s.takeFw (decide ((order.head?.map (·.1)) = some h)) h f c)

/-! ### Stage 4: repair (R498 to R501) -/

/-- What becomes of one repair entry. -/
inductive Rep where
  | ignored | applied | rejected
  deriving DecidableEq, Repr

/-- A bad spare bank of a slice, or a spare in use. -/
def State.badBank (s : State) (sl e : Nat) : Bool := s.gau.bad.contains (2 * 65536 + sl * 256 + e)

/-- Repair of physical needle `e` of a bed: the lower free spare serves it. -/
def State.repairNeedle (s : State) (b e : Nat) (field : Bool) : Rep × State :=
  let pa := s.fld F.RPR_NEED_PNA b
  let pb := s.fld F.RPR_NEED_PNB b
  if pa = e ∨ pb = e ∨ s.badNeedle b e then (.ignored, s)
  else if 32 ≤ e then
    if (e = 32 ∧ pa = 0x3F) ∨ (e = 33 ∧ pb = 0x3F) then (.applied, s.markBad 1 b e) else (.rejected, s)
  else if pa = 0x3F ∧ !s.badNeedle b 32 then (.applied, (s.setFld F.RPR_NEED_PNA e b).setFld F.RPR_NEED_FIELDA (b2n field) b)
  else if pb = 0x3F ∧ !s.badNeedle b 33 then (.applied, (s.setFld F.RPR_NEED_PNB e b).setFld F.RPR_NEED_FIELDB (b2n field) b)
  else (.rejected, s)

/-- One more retired bank of a slice. -/
def State.countBank (s : State) (sl : Nat) : State := s.setFld F.STH_SLICE_SPARE_RETIRED (s.fld F.STH_SLICE_SPARE_RETIRED sl + 1) sl

/-- Repair of physical bank `e` of a slice. -/
def State.repairBank (s : State) (sl e : Nat) (field : Bool) : Rep × State :=
  let p0 := s.fld F.RPR_SLICE_PB0 sl
  let p1 := s.fld F.RPR_SLICE_PB1 sl
  if p0 = e ∨ p1 = e ∨ s.badBank sl e then (.ignored, s)
  else if 64 ≤ e then
    if (e = 64 ∧ p0 = 0x7F) ∨ (e = 65 ∧ p1 = 0x7F) then (.applied, ((s.markBad 2 sl e).setSpare sl e 0xFF).countBank sl) else (.rejected, s)
  else if p0 = 0x7F ∧ !s.badBank sl 64 then
    (.applied, (((s.setFld F.RPR_SLICE_PB0 e sl).setFld F.RPR_SLICE_FIELD0 (b2n field) sl).setSpare sl 64 e).countBank sl)
  else if p1 = 0x7F ∧ !s.badBank sl 65 then
    (.applied, (((s.setFld F.RPR_SLICE_PB1 e sl).setFld F.RPR_SLICE_FIELD1 (b2n field) sl).setSpare sl 65 e).countBank sl)
  else (.rejected, s)

/-- Retirement of a bed by the map: RETIRED in its status and in RPR_BEDR. -/
def State.mapRetire (s : State) (b : Nat) : State :=
  (s.setFld F.BED_STAT_RETIRED 1 b).setFld F.RPR_BEDR (s.fld F.RPR_BEDR (b / 32) ||| 2 ^ (b % 32)) (b / 32)

/-- One entry: kind 1 needle, 2 bank, 3 bed. -/
def State.repairEntry (s : State) (kind u e : Nat) (field : Bool) : Rep × State :=
  if kind = 1 ∧ u < 136 ∧ e < 34 then s.repairNeedle u e field
  else if kind = 2 ∧ u < 64 ∧ e < 66 then s.repairBank u e field
  else if kind = 3 ∧ u < 136 ∧ e = 0 then
    if s.flag F.BED_STAT_RETIRED u then (.ignored, s) else (.applied, s.mapRetire u)
  else (.rejected, s)

/-- The fuse map. -/
def State.applyFuses (s : State) : State :=
  Config.fuseRepairs.foldl (fun s r =>
    let s := (s.repairEntry r.1 r.2.1 r.2.2 false).2
    if r.1 = 3 then s.setFld F.RPR_BEDF (s.fld F.RPR_BEDF (r.2.1 / 32) ||| 2 ^ (r.2.1 % 32)) (r.2.1 / 32) else s) s

/-- A record's payload, where it is the device's own (R500). -/
def recordEntries (p : List Byte) : Option (List (Nat × Nat × Nat)) :=
  let n := leAt p 4 4
  if leAt p 0 4 = 0x52524755 ∧ 1 ≤ n ∧ n ≤ 512 ∧ leAt p 8 8 = Config.serial.toNat ∧ 0x10 + 8 * n ≤ p.length then
    some ((List.range n).map fun i => (leAt p (0x10 + 8 * i) 1, leAt p (0x12 + 8 * i) 2, leAt p (0x14 + 8 * i) 2))
  else none

/-- One record of the directory: its entries in order, or the whole of it rejected (R500). -/
def State.applyRecord (s : State) (bytes : List Byte) : State :=
  let refuse := fun (s : State) => (s.setFld F.RPR_STAT_REJECT 1).castFlag 5
  match s.verifyCount bytes 3 with
  | (.error _, s) => refuse s
  | (.ok c, s) => match recordEntries c.payload with
    | none => refuse s
    | some es => es.foldl (fun s e =>
        match s.repairEntry e.1 e.2.1 e.2.2 true with
        | (.ignored, s) => s
        | (.applied, s) => s.bump F.RPR_STAT_APPLIED
        | (.rejected, s) => s.bump F.RPR_STAT_REJECTED) s

/-- A failed spare or a failed repaired element is reported (R501). -/
def State.spareFailed (s : State) : State := (s.castFlag 6).setFld F.RPR_STAT_SPAREFAIL 1

/-- R501: a bed's spare needle fails: the other free spare serves, else the original if it passes, else the bed is retired. -/
def State.moveNeedle (s : State) (bad : Nat → Nat → Nat → Bool) (b sp : Nat) : State :=
  let (mine, mfield) := if sp = 32 then (F.RPR_NEED_PNA, F.RPR_NEED_FIELDA) else (F.RPR_NEED_PNB, F.RPR_NEED_FIELDB)
  let (other, ofield) := if sp = 32 then (F.RPR_NEED_PNB, F.RPR_NEED_FIELDB) else (F.RPR_NEED_PNA, F.RPR_NEED_FIELDA)
  let e := s.fld mine b
  if e = 0x3F ∨ !bad 1 b sp then s
  else
    let fl := s.fld mfield b
    let s := ((s.markBad 1 b sp).setFld mine 0x3F b).setFld mfield 0 b
    let s := s.spareFailed
    if s.fld other b = 0x3F ∧ !s.badNeedle b (65 - sp) ∧ !bad 1 b (65 - sp) then (s.setFld other e b).setFld ofield fl b
    else if bad 1 b e then s.mapRetire b
    else s

/-- R501: a slice's spare bank fails: the other free spare, else the original bank, else its logical bank reads as poison. -/
def State.moveBank (s : State) (bad : Nat → Nat → Nat → Bool) (sl sp : Nat) : State :=
  let (mine, mfield) := if sp = 64 then (F.RPR_SLICE_PB0, F.RPR_SLICE_FIELD0) else (F.RPR_SLICE_PB1, F.RPR_SLICE_FIELD1)
  let (other, ofield) := if sp = 64 then (F.RPR_SLICE_PB1, F.RPR_SLICE_FIELD1) else (F.RPR_SLICE_PB0, F.RPR_SLICE_FIELD0)
  let e := s.fld mine sl
  if e = 0x7F ∨ !bad 2 sl sp then s
  else
    let fl := s.fld mfield sl
    let s := (((s.markBad 2 sl sp).setFld mine 0x7F sl).setFld mfield 0 sl).setSpare sl sp 0xFF
    let s := s.spareFailed
    if s.fld other sl = 0x7F ∧ !s.badBank sl (129 - sp) ∧ !bad 2 sl (129 - sp) then
      ((s.setFld other e sl).setFld ofield fl sl).setSpare sl (129 - sp) e
    else if bad 2 sl e then { s with stash := { s.stash with dead := (sl * 64 + e) :: s.stash.dead } }
    else s

/-- R501: the tests of every spare in use; `fails` names the elements that fail, as kind, unit and element. -/
def State.testSpares (s : State) (fails : List (Nat × Nat × Nat)) : State :=
  let bad := fun (k u e : Nat) => fails.contains (k, u, e)
  let s := (List.range 136).foldl (fun s b => (s.moveNeedle bad b 32).moveNeedle bad b 33) s
  let s := (List.range 64).foldl (fun s sl => (s.moveBank bad sl 64).moveBank bad sl 65) s
  (List.range 136).foldl (fun s b =>
    if bad 3 b 0 && !s.flag F.BED_STAT_RETIRED b then (s.mapRetire b).spareFailed else s) s

/-- Stage 4: the fuse map, then the records in directory order, then the tests; a restart keeps a map that is applied (R396). -/
def execCastOnStage4 (fails : List (Nat × Nat × Nat)) (s : State) : Host.Outcome State Fault Refusal :=
  .next (s.when (s.stageNow 4) fun s =>
    if s.flag F.RPR_STAT_DONE then s.stageEnd 4
    else
      let s := (s.flashImages 3).foldl State.applyRecord s.applyFuses
      let s := s.testSpares fails
      ((s.setMeas 4 (Config.sha256 s.rprBytes)).setFld F.RPR_STAT_DONE 1).stageEnd 4)

/-! ### Stage 5: the microcode patch (R416, R417) -/

/-- The plaintext of a patch is in range and for this ROM. -/
def patchOk (p : List Byte) : Bool :=
  let nw := leAt p 4 2
  let nm := leAt p 6 1
  decide (leAt p 0 4 = Config.romRel.toNat ∧ 1 ≤ nw ∧ nw ≤ 2048 ∧ nm ≤ 64 ∧ leAt p 7 1 = 0 ∧ p.length = 8 + 4 * nm + 18 * nw)
    && (List.range nm).all fun i => let e := leAt p (8 + 4 * i) 4; decide (e / 2 ^ 27 = 0 ∧ e / 2 ^ 14 % 4 = 0)

/-- The patch into the shadow, or a rejection that leaves it empty. -/
def State.loadPatch (s : State) (bytes : List Byte) : State :=
  let reject := fun (s : State) => (s.setFld F.BED_UC_STAT_REJECT 1).castFlag 1
  match s.verifyCount bytes 2 with
  | (.error _, s) => reject s
  | (.ok c, s) => match Config.gcmOpen c.payload with
    | none => reject s
    | some p =>
      if patchOk p then
        let s := (s.setMeas 2 (Config.sha256 c.whole)).setFld F.BED_UC_VER c.version
        let s := (s.setFld F.BED_UC_STAT_NWORDS (leAt p 4 2)).setFld F.BED_UC_STAT_PATCHED 1
        { s with cast := { s.cast with patch := p } }
      else reject s

/-- LOCK is written (R417). -/
def State.ucLock (s : State) : State := s.setFld F.BED_UC_STAT_LOCKED 1

def execCastOnStage5 (s : State) : Host.Outcome State Fault Refusal :=
  .next (s.when (s.stageNow 5) fun s =>
    if s.flag F.BED_UC_STAT_LOCKED then s.stageEnd 5
    else
      let s := match (s.flashImages 2).head? with
        | some b => s.loadPatch b
        | none => s
      s.ucLock.stageEnd 5)

/-! ### Stage 6: DDR (R127 to R129, R136, R393, R408, R510) -/

/-- A channel that stage 6 has trained: filling, or with its contents kept after a warm reset. -/
def State.startChannel (s : State) (c : Nat) : State :=
  if s.cast.warm && !s.cast.refill.contains c then
    if s.flag F.DDR_CH_STAT_OFFLINE c then s else s.setFld F.DDR_CH_STAT_ONLINE 1 c
  else (s.setFld F.DDR_CH_STAT_LOST 1 c).setFld F.DDR_CH_STAT_ONLINE 0 c

/-- Stage 6: whether the population is refused, the populated channels, those that fail training twice, DIMMs per channel, the data
rate code, x4 devices, and the bytes installed per channel. -/
def execCastOnStage6 (refused : Bool) (mask untrained : Nat) (dpc speed : Nat) (x4 : Bool) (capacity : Nat) (s : State) :
    Host.Outcome State Fault Refusal :=
  .next (s.when (s.stageNow 6) fun s =>
    if refused then
      (((s.setFld F.DDR_CFG_CHMASK 0).setPair F.DDR_TOP_LO F.DDR_TOP_HI ddrBase).castFlag 3).stageEnd 6
    else
      let had := s.ddrChans
      let good := (List.range 12).filter fun c => mask.testBit c && (!untrained.testBit c || had.contains c)
      let s := if (List.range 12).any fun c => mask.testBit c && !good.contains c then s.castFlag 7 else s
      let s := s.setFld F.DDR_CFG_CHMASK (good.foldl (fun a c => a + 2 ^ c) 0)
      let s := (s.setFld F.DDR_CFG_DPC dpc).setFld F.DDR_CFG_SPEED speed
      let s := (s.setFld F.DDR_CFG_X4 (b2n x4)).setFld F.DDR_CFG_NCHAN good.length
      let s := { s with ddr := { s.ddr with capacity := capacity } }
      let s := s.setPair F.DDR_TOP_LO F.DDR_TOP_HI (ddrBase + good.length * (capacity / 128 * 127))
      ((good.filter fun c => !had.contains c).foldl State.startChannel s).stageEnd 6)

/-! ### Stages 7 and 8 -/

/-- Stage 7: the stash cleared, every bed not yet gauged in this cast-on gauged. -/
def execCastOnStage7 (ms : List BedMeas) (stash extra : Nat) (slack : List (Nat × Nat)) (s : State) :
    Host.Outcome State Fault Refusal :=
  .next (s.when (s.stageNow 7) fun s =>
    let s := { s with stash := { Stash.init with dead := s.stash.dead }, mem := Mem.dropStash s.mem }
    let new := ms.filter fun m => decide (m.bed < 136) && !s.cast.gauged.contains m.bed && !s.flag F.BED_STAT_RETIRED m.bed
    let s := new.foldl (fun s m =>
      let t := s.gaugeOne m
      { t with cast := { t.cast with
        gauged := t.cast.gauged ++ [m.bed], retired := t.cast.retired + b2n (t.flag F.BED_STAT_RETIRED m.bed) } }) s
    (s.gaugeDomains stash extra slack).stageEnd 7)

/-- Stage 8: the remap, the protected window and the entry into firmware (R399 to R401). -/
def execCastOnStage8 (s : State) : Host.Outcome State Fault Refusal :=
  .next (s.when (s.stageNow 8) fun s =>
    let s := ((s.setFld F.MTX_REMAP_REMAP 1).setFld F.MTX_FWBASE (s.cast.load / 16)).setFld F.MTX_FWLEN s.cast.length
    let pc := capSetAddr capRoot (s.cast.load + s.cast.entry)
    s.setTh 0 0 { Thread.reset 0 0 with pcap := pc, started := (s.th 0 0).started, kicked := (s.th 0 0).kicked })

/-- R393, R409, R517: firmware ends stage 8. After a whole cast-on it starts the attested part where the header asked for it; after
a restart of the complex it arms again under R517. -/
def State.castDone (s : State) : State :=
  if s.stageNow 8 && s.flag F.MTX_REMAP_REMAP then
    let only := s.cast.hookOnly
    let s := s.setFld F.TMO_CASTON_DONE 1
    if only then
      let s := { s with cast := { s.cast with hookOnly := false } }
      if s.ect.al = 8 ∧ s.odv 0x2000 6 = 1 then s.armReq else s
    else
      let s := { s with cast := { s.cast with restart := false, ms := (s.uptime - s.cast.started) / 1000000 }, tally := [] }
      if s.flag F.KTH_POLICY then s.kthGo opOpen else s
  else s

/-- R395: the watchdog of the present stage expires. -/
def execStageWatchdog (s : State) : Host.Outcome State Fault Refusal :=
  let n := s.fld F.TMO_CASTON_STAGE
  .next (s.when (s.stageNow n) fun s =>
    let s := (s.expiry).setFld F.TMO_CASTON_EXPIRED 1
    if s.cast.hookOnly then s.restartFailed
    else if s.cast.expired.contains n then s.goSafe (if n = 8 then 8 else 7)
    else
      let s := { s.bump F.TMO_CASTON_RETRY with cast := { s.cast with expired := n :: s.cast.expired } }
      s.hookReset .stageWatchdog)

end Sys2Proof.Machine
end

