-- ==== Sys2Proof/Machine/Ddr.lean ====
section
/-!
DEFINITION. Sys2Proof/Machine/Ddr.lean: subchannel queues, correction, patrol scrub, sensors and channel recovery
(04_stash_memory.md, R127 to R137).
-/
namespace Sys2Proof.Machine

/-- A queue of one subchannel, by key channel × 2 + subchannel. -/
def State.ddrRq (s : State) (key : Nat) : List DdrRead := s.ddr.rq.get key []
def State.ddrWq (s : State) (key : Nat) : List DdrWrite := s.ddr.wq.get key []

/-- A request completes. -/
def State.ddrDone (s : State) (r : DdrResp) : State := { s with ddr := { s.ddr with resp := s.ddr.resp ++ [r] } }

/-- The queue whose older instance a bed's set runs. -/
def State.queueOfBed (s : State) (b : Nat) : Option Nat :=
  let n := s.fld F.BED_CTRL_SET b
  match (s.queuesOf n).find? fun q => s.pinnedOn q && (s.inst q false).isSome with
  | some q => some q
  | none => (s.bset n).run

/-- The ply that a bed port works for (R142). -/
def State.portPly (s : State) (port : Nat) : Option (Nat × Inst) :=
  if port < 136 then
    match s.queueOfBed port with
    | some q => (s.inst q false).map fun p => (q, p)
    | none => none
  else none

/-- A line write of a port lands under its byte enables, in runs of enabled bytes (R135). -/
def State.ddrWriteBytes (s : State) (src : Option Poster) (a : Nat) (data : List Byte) (be : DWord) : State :=
  if be.toNat = 2 ^ 64 - 1 then s.storeBy src a ((List.range 64).map fun k => data.getD k 0)
  else (List.range 64).foldl (fun s k => if be.toNat.testBit k then s.storeBy src (a + k) [data.getD k 0] else s) s

/-- A write enters the controller, and the read filter sees it where a bed posted it (R229). -/
def State.ddrWrite (s : State) (port a : Nat) (data : List Byte) (be : DWord) : State :=
  match s.portPly port with
  | none => s.ddrWriteBytes none a data be
  | some (q, p) => (s.ddrWriteBytes (some ⟨q, p.uid, p.entry.cookie⟩) a data be).filterCheck q false a 64

/-- The oldest `n` queued writes of a subchannel are in the DRAM. -/
def State.ddrDrain (s : State) (key n : Nat) : State :=
  { s with ddr := { s.ddr with wq := s.ddr.wq.set key ((s.ddrWq key).drop n) } }

/-- Requests that waited in the fabric enter queues with room, oldest first (R135). -/
def State.ddrAdmit (s : State) (key : Nat) : State :=
  (s.ddr.fabric.filter fun e => e.1 == key).foldl (fun s e =>
    match e.2 with
    | .inl r =>
      if (s.ddrRq key).length < 96 then
        { s with ddr := { s.ddr with fabric := s.ddr.fabric.erase e, rq := s.ddr.rq.set key (s.ddrRq key ++ [r]) } }
      else s
    | .inr (a, d, be) =>
      if (s.ddrWq key).length < 48 then
        ({ s with ddr := { s.ddr with fabric := s.ddr.fabric.erase e } }).ddrWriteBytes none a d be
      else s) s

def execDdrRequest (port id addr : Nat) (wr : Bool) (data : List Byte) (be : DWord) (drained : Nat) (s : State) :
    Host.Outcome State Fault Refusal :=
  .next (s.when (decide (port < 146) && decide (ddrBase ≤ addr) && decide (addr < s.ddrTop)) fun s =>
    let a := addr / 64 * 64
    let c := s.ddrChan a
    let key := c * 2 + ddrSub a
    let s := (s.ddrDrain key drained).ddrAdmit key
    if s.ddrDown c then
      if wr then s.bump F.DDR_CH_CNT_0 c else s.ddrDone ⟨port, id, s.peekN a 64, true⟩
    else if wr then
      if (s.ddrWq key).length < 48 then s.ddrWrite port a data be
      else { s with ddr := { s.ddr with fabric := s.ddr.fabric ++ [(key, .inr (a, data, be))] } }
    else if (s.ddrRq key).length < 96 then
      { s with ddr := { s.ddr with rq := s.ddr.rq.set key (s.ddrRq key ++ [⟨port, id, a⟩]) } }
    else { s with ddr := { s.ddr with fabric := s.ddr.fabric ++ [(key, .inl ⟨port, id, a⟩)] } })

/-- R132: what the check of a line found; the poison code, once stored, is not counted again. -/
def State.ddrFound (s : State) (c a : Nat) (ecc : Ecc) (scrub : Bool) (dimm rank dev : Nat) : State :=
  match ecc with
  | .clean => s
  | .corrected => s.bump F.DDR_CH_ECC_16 c
  | .uncorrectable =>
    if s.mem.poison.contains a then s
    else
      let s := (s.bump F.DDR_CH_ECC_0 c).setPair F.DDR_CH_ELOG_LO F.DDR_CH_ELOG_HI a c
      let s := s.setReg ⟨.DDR_CH_EINFO, c, 0⟩
        (BitVec.ofNat 32 (b2n scrub * 32768 + dev % 32 * 32 + rank % 8 * 4 + dimm % 2 * 2 + ddrSub a))
      ({ s with mem := { s.mem with poison := setAdd s.mem.poison a } }).raise (166 + c)

/-- The address of line `l` of channel `c`; `none` in the tag region (R129, R130). -/
def State.patrolAddr (s : State) (c l : Nat) : Option Nat :=
  if l * 64 < s.ddr.capacity / 128 * 127 then
    match s.ddrChans.findIdx? (· == c) with
    | some i => some (ddrBase + (l / 4 * s.ddrChans.length + i) * 256 + l % 4 * 64)
    | none => none
  else none

/-- Patrol scrub goes on to the next line of its channel (R133). -/
def State.patrolNext (s : State) (c : Nat) : State :=
  { s with ddr := { s.ddr with patrol := s.ddr.patrol.upd c 0 fun l => (l + 1) % max 1 (s.ddr.capacity / 64) } }

def execDdrReadReturn (c sub id : Nat) (ecc : Ecc) (dimm rank dev : Nat) (s : State) : Host.Outcome State Fault Refusal :=
  let key := c * 2 + sub
  .next (match (s.ddrRq key).find? fun r => r.id == id with
    | none => s
    | some r =>
      let s := { s with ddr := { s.ddr with rq := s.ddr.rq.set key ((s.ddrRq key).erase r) } }
      let queued := (s.ddrWq key).any fun w => w.line == r.addr
      let s := if queued then s else s.ddrFound c r.addr ecc false dimm rank dev
      let s := if s.patrolAddr c (s.ddr.patrol.get c 0) = some r.addr then s.patrolNext c else s
      (s.ddrDone ⟨r.port, r.id, s.peekN r.addr 64, s.poisoned r.addr 64⟩).ddrAdmit key)

def execPatrolScrub (c : Nat) (ecc : Ecc) (dimm rank dev : Nat) (s : State) : Host.Outcome State Fault Refusal :=
  .next (s.when (s.flag F.DDR_CTRL_SCRUBEN && decide (0 < s.ddr.capacity) && s.ddrChans.contains c && !s.ddrDown c) fun s =>
    let l := s.ddr.patrol.get c 0
    let s := match s.patrolAddr c l with
      | some a => s.ddrFound c a ecc true dimm rank dev
      | none =>
        -- the tag region has no address that the log could show
        match ecc with
        | .clean => s
        | .corrected => s.bump F.DDR_CH_ECC_16 c
        | .uncorrectable =>
          let s := s.bump F.DDR_CH_ECC_0 c
          let (x, s) := s.fresh
          (s.setPair F.DDR_CH_ELOG_LO F.DDR_CH_ELOG_HI (x % 2 ^ 64) c).setReg ⟨.DDR_CH_EINFO, c, 0⟩
            (BitVec.ofNat 32 (32768 + dev % 32 * 32 + rank % 8 * 4 + dimm % 2 * 2 + l % 2)) |>.raise (166 + c)
    s.patrolNext c)

/-! ### Recovery (R136, R137) -/

/-- Outstanding and waiting reads of a channel complete poisoned; waiting writes are discarded and counted. -/
def State.ddrFlush (s : State) (c : Nat) : State :=
  [2 * c, 2 * c + 1].foldl (fun s key =>
    let mine := s.ddr.fabric.filter fun e => e.1 == key
    let bad := fun (s : State) (r : DdrRead) => s.ddrDone ⟨r.port, r.id, s.peekN r.addr 64, true⟩
    let s := (s.ddrRq key).foldl bad s
    let s := { s with ddr := { s.ddr with rq := s.ddr.rq.set key [], fabric := s.ddr.fabric.filter fun e => e.1 != key } }
    mine.foldl (fun s e => match e.2 with
      | .inl r => bad s r
      | .inr _ => s.bump F.DDR_CH_CNT_0 c) s) s

/-- Recovery of a channel starts; a third within 1 h puts it OFFLINE until a cold reset. -/
def State.ddrRecover (s : State) (c : Nat) : State :=
  if s.flag F.DDR_CH_STAT_RECOVER c || s.flag F.DDR_CH_STAT_OFFLINE c || !s.ddrChans.contains c then s
  else
    let recent := (s.ddr.recoveries.get c []).filter fun t => decide (s.uptime < t + 3600000000000)
    let s := { s with ddr := { s.ddr with recoveries := s.ddr.recoveries.set c (recent ++ [s.uptime]) } }
    let s := ((s.ddrFlush c).setFld F.DDR_CH_STAT_ONLINE 0 c).raise (166 + c)
    if 2 ≤ recent.length then (s.setFld F.DDR_CH_STAT_OFFLINE 1 c).emergency 0x5000
    else s.setFld F.DDR_CH_STAT_RECOVER 1 c

/-- Whether a request of the channel is outstanding, so that it can time out. -/
def State.ddrWaits (s : State) (c : Nat) : Bool :=
  [2 * c, 2 * c + 1].any fun key => !(s.ddrRq key).isEmpty || !(s.ddrWq key).isEmpty

def execDdrRequestTimeout (c : Nat) (s : State) : Host.Outcome State Fault Refusal :=
  .next (s.when (s.ddrWaits c && !s.ddrDown c) fun s => ((s.bump F.DDR_CH_CNT_24 c).expiry).ddrRecover c)

/-- The frozen writes of a subchannel: each line takes the poison code and is reported lost. -/
def State.ddrLoseWrites (s : State) (key : Nat) : State :=
  let w := s.ddrWq key
  let s := { s with ddr := { s.ddr with wq := s.ddr.wq.set key [] } }
  w.foldl (fun s w =>
    let s := { s with mem := { s.mem with poison := setAdd s.mem.poison w.line } }
    match w.src with
    | some p => s.writeLost p w.line
    | none => s) s

/-- The full path: contents are lost and the zero fill starts; the zeros stand at once behind LOST, which hides them. -/
def State.ddrLose (s : State) (c : Nat) : State :=
  let mine := fun (a : Nat) => decide (ddrBase ≤ a) && decide (s.ddrChan a = c)
  let s := { s with ddr := { s.ddr with wq := (s.ddr.wq.set (2 * c) []).set (2 * c + 1) [] } }
  { s with mem := { s.mem with
    cells := s.mem.cells.filter fun e => !mine e.1
    poison := s.mem.poison.filter fun a => !mine a
    tags := s.mem.tags.filter fun a => !mine a } }

def execDdrFastPathEnd (c : Nat) (ok : Bool) (s : State) : Host.Outcome State Fault Refusal :=
  .next (s.when (s.flag F.DDR_CH_STAT_RECOVER c) fun s =>
    if ok then
      let s := (s.ddrLoseWrites (2 * c)).ddrLoseWrites (2 * c + 1)
      (((s.setFld F.DDR_CH_STAT_RECOVER 0 c).setFld F.DDR_CH_STAT_ONLINE 1 c).bump F.DDR_CH_CNT_16 c).raise (166 + c)
    else ((s.ddrLose c).setFld F.DDR_CH_STAT_LOST 1 c).raise (166 + c))

def execDdrFullPath (c : Nat) (s : State) : Host.Outcome State Fault Refusal :=
  .next (s.when (s.flag F.DDR_CH_STAT_RECOVER c) fun s =>
    ((s.ddrLose c).setFld F.DDR_CH_STAT_LOST 1 c).raise (166 + c))

/-- R136, R408: the fill of a channel ends. The fill of cast-on is no recovery and counts none. -/
def execDdrFillEnd (c : Nat) (s : State) : Host.Outcome State Fault Refusal :=
  .next (s.when (s.flag F.DDR_CH_STAT_LOST c && !s.flag F.DDR_CH_STAT_OFFLINE c) fun s =>
    let full := s.flag F.DDR_CH_STAT_RECOVER c
    let s := ((s.setFld F.DDR_CH_STAT_LOST 0 c).setFld F.DDR_CH_STAT_RECOVER 0 c).setFld F.DDR_CH_STAT_ONLINE 1 c
    if full then (s.bump F.DDR_CH_CNT_8 c).raise (166 + c) else s)

/-! ### Sensors (R134) -/

def execSpdThermalRead (c : Nat) (temp : Byte) (s : State) : Host.Outcome State Fault Refusal :=
  let t := temp.toInt
  let s := (s.setFld F.DDR_CH_TEMP temp.toNat c).setFld F.DDR_CH_STAT_REFX2 (b2n (decide (85 < t))) c
  .next (if (s.fld F.DDR_CH_CTRL_THOT c : Int) ≤ t then (s.setFld F.DDR_CH_STAT_HOT 1 c).raise (166 + c) else s)

def execPmicError (c : Nat) (s : State) : Host.Outcome State Fault Refusal :=
  .next (((s.setFld F.DDR_CH_STAT_PMICERR 1 c).raise (166 + c)).ddrRecover c)

end Sys2Proof.Machine
end

