-- ==== Sys2Proof/Machine/Ingest.lean ====
section
/-!
DEFINITION. Sys2Proof/Machine/Ingest.lean: links, line pairing, stream data, course finish and release, mailboxes, events and the
bind-off of ingest (03_ingest.md, R77 to R111).
-/
namespace Sys2Proof.Machine

/-! ### Links (R105) -/

/-- A link's interrupt (R346). -/
def State.raiseLink (s : State) (l : Nat) : State := s.raise (144 + l / 4)

/-- A link goes down: it stays down until a discovery attempt completes, and its camera's pending lines are missing. -/
def State.linkDown (s : State) (l : Nat) : State :=
  if s.flag F.CXP_LNK_STAT_UP l then
    let s := ((s.setFld F.CXP_LNK_STAT_UP 0 l).setFld F.CXP_LNK_STAT_WENTDOWN 1 l).raiseLink l
    let s := { s with ing := { s.ing with downAt := s.ing.downAt.set l s.uptime } }
    match s.camOfLink l with
    | none => s
    | some k =>
      let s := if (s.chan (s.fld F.CXP_CAM_CTRL_CHAN k)).st == .run then s.emergency 0xFF01 else s
      s.failCam k 3
  else s

def execDiscoveryAttempt (dt : Nat) (l : Nat) (s : State) : Host.Outcome State Fault Refusal :=
  let s := s.advance dt
  let due := match s.ing.downAt.find? (fun e => e.1 == l) with
    | some (_, t) => decide (t + 100000000 ≤ s.uptime)
    | none => true
  .next (s.when (decide (l < 32) && s.flag F.CXP_LNK_CTRL_EN l && !s.flag F.CXP_LNK_STAT_UP l && due) fun s =>
    ({ s with ing := { s.ing with downAt := s.ing.downAt.set l s.uptime } }).bump F.CXP_LNK_CNT_16 l)

def execLinkUp (l : Nat) (s : State) : Host.Outcome State Fault Refusal :=
  .next (s.when (decide (l < 32) && s.flag F.CXP_LNK_CTRL_EN l && !s.flag F.CXP_LNK_STAT_UP l) fun s =>
    let speed := s.fld F.CXP_LNK_CTRL_SPEED l
    let s := (((s.setFld F.CXP_LNK_STAT_UP 1 l).setFld F.CXP_LNK_STAT_LOCK 1 l).setFld F.CXP_LNK_STAT_CURSPEED
      (if speed = 7 then 6 else speed) l).raiseLink l
    let s := { s with ing := { s.ing with downAt := s.ing.downAt.del l } }
    match s.camOfLink l with
    | none => s
    | some k => s.rebase k ((s.chan (s.fld F.CXP_CAM_CTRL_CHAN k)).row.toNat + 1))

def execLinkLockLoss (l : Nat) (s : State) : Host.Outcome State Fault Refusal :=
  .next (s.when (decide (l < 32) && s.flag F.CXP_LNK_STAT_LOCK l) fun s => (s.setFld F.CXP_LNK_STAT_LOCK 0 l).linkDown l)

def execCodeErrorThreshold (l errs : Nat) (s : State) : Host.Outcome State Fault Refusal :=
  .next (s.when (decide (l < 32)) fun s =>
    let s := s.bump F.CXP_LNK_ERRS_0 l errs
    if s.fld F.CXP_LNK_CTRL_CODETHR l < errs then s.linkDown l else s)

def execReceiverLocksAgain (l : Nat) (s : State) : Host.Outcome State Fault Refusal :=
  .next (s.when (decide (l < 32) && s.flag F.CXP_LNK_CTRL_EN l) fun s => s.setFld F.CXP_LNK_STAT_LOCK 1 l)

/-! ### Pairing (R83, R84, R86) -/

/-- The tag expected of camera `k` for a row (R83). -/
def State.expectTag (s : State) (k row : Nat) : Nat :=
  (s.fld F.CXP_CAM_TAG_0 k + (row + 65536 - (s.cam k).baseRow % 65536)) % 65536

/-- R78: whether a header announces anything other than the camera entry does. -/
def State.badFormat (s : State) (k fmt width height : Nat) : Bool :=
  decide (fmt ≠ s.fld F.CXP_CAM_CTRL_FMT k ∨ 5 < fmt ∨ width ≠ s.fld F.CXP_CAM_WIDTH k ∨ height ≠ 1)

/-- R84: the line of a header with tag `tag` is paired with a row, or discarded and counted on its link. -/
def State.pairLine (s : State) (l k tag : Nat) (bad : Bool) : State :=
  let n := s.fld F.CXP_CAM_CTRL_CHAN k
  let s := s.setFld F.CXP_CAM_TAG_16 tag k
  let newest := (s.chan n).row.toNat
  let c := s.cam k
  if c.want && decide (newest < c.baseRow) then s.bump F.CXP_LNK_CNT_0 l
  else
    let s := if c.want then (s.setFld F.CXP_CAM_TAG_0 tag k).setCam k { c with want := false } else s
    let mine := (s.ich n).rows.filter fun r => rowPending r k
    match mine.find? fun r => s.expectTag k r.row == tag with
    | none =>
      let ahead := (tag + 65536 - s.expectTag k newest) % 65536
      if 1 ≤ ahead ∧ ahead ≤ 32767 then s.bump F.CXP_LNK_CNT_8 l else s.bump F.CXP_LNK_CNT_0 l
    | some r =>
      let s := (mine.filter fun o => decide (o.row < r.row)).foldl (fun s o => s.setLine n o.row k (.failed 5)) s
      if bad then s.setLine n r.row k (.failed 6)
      else (s.setLine n r.row k .arriving).setCam k { s.cam k with cur := some r.row }

/-- R42, R86: under the camera line clock a header on the master link makes the boundary of its channel. -/
def State.cameraBoundary (s : State) (l : Nat) : State :=
  let t := s.now - s.fld F.CXP_LNK_DELAY l
  (List.range 16).foldl (fun s n =>
    if decide (s.srcChan n = n) && (s.chan n).st == .run && decide (s.bsrc n = 3) && decide (s.fld F.TIO_CH_CTRL_LINK n = l) then
      let (p, s) := if s.encValid n then s.encPosAt (s.encOf n) t else (0, s)
      s.boundaryAll n t p
    else s) s

def execLineHeader (dt : Nat) (l : Nat) (tag : Half) (fmt width height : Nat) (s : State) : Host.Outcome State Fault Refusal :=
  let s := s.advance dt
  .next (s.when (decide (l < 32) && s.flag F.CXP_LNK_STAT_UP l) fun s =>
    match s.camOfLink l with
    | none => s
    | some k =>
      let s := s.cameraBoundary l
      if (s.cam k).lost then s else s.pairLine l k tag.toNat (s.badFormat k fmt width height))

/-! ### Stream data (R81, R82, R90, R96, R97, R104) -/

/-- The bytes of a pixel (R82). -/
def pixelBytes (fmt : Nat) (v : Word) : List Byte :=
  match fmt with
  | 0 => leBytes 1 v.toNat
  | 1 => leBytes 2 (v.toNat % 1024)
  | 2 => leBytes 2 (v.toNat % 4096)
  | 3 => leBytes 2 (v.toNat % 16384)
  | 4 => leBytes 2 (v.toNat % 65536)
  | _ => leBytes 4 (v.toNat % 16777216)

/-- The wale of a pixel of camera `k`; `none` where it is trimmed (R81). -/
def State.waleOf (s : State) (k p : Nat) : Option Nat :=
  let l := s.fld F.CXP_CAM_TRIM_0 k
  let last := s.fld F.CXP_CAM_WIDTH k - s.fld F.CXP_CAM_TRIM_16 k
  if l ≤ p ∧ p < last then
    some (s.fld F.CXP_CAM_DEST k + if s.flag F.CXP_CAM_CTRL_FLIP k then last - 1 - p else p - l)
  else none

/-- Write a packet's pixels into the slot of a row. -/
def State.writePixels (s : State) (n row k : Nat) : Nat → List Word → State
  | _, [] => s
  | p, v :: t =>
    let fmt := s.fld F.CXP_CAM_CTRL_FMT k
    (match s.waleOf k p with
      | some w => s.store (s.slotAddr n row + 64 + w * bpwOf fmt) (pixelBytes fmt v)
      | none => s).writePixels n row k (p + 1) t

/-- R19: whether camera `k` is the last of the channel whose line of a row is outstanding. -/
def lastOutstanding (r : IRow) (k : Nat) : Bool := r.lines.all fun e => e.1 == k || !linePending e.2

def execStreamPacket (l first : Nat) (px : List Word) (crc : PktCrc) (last overflow : Bool) (s : State) :
    Host.Outcome State Fault Refusal :=
  .next (s.when (decide (l < 32) && s.flag F.CXP_LNK_STAT_UP l) fun s =>
    match s.camOfLink l with
    | none => s
    | some k =>
      let n := s.fld F.CXP_CAM_CTRL_CHAN k
      let s := if overflow then s.bump F.CXP_LNK_CNT_24 l else s
      let s := if crc = .bad then s.bump F.CXP_LNK_ERRS_16 l else s
      match (s.cam k).cur with
      | none => s
      | some row =>
        let s := match (s.ich n).rows.find? fun r => r.row == row with
          | some r => if last && lastOutstanding r k then s.wake n row else s
          | none => s
        if overflow then s.setLine n row k (.failed 7)
        else
          let s := s.writePixels n row k first px
          match crc with
          | .bad => s.setLine n row k (.failed 2)
          | .ok => if last then s.setLine n row k .verified else s
          | .later => if last then s.setLine n row k .unresolved else s)

/-- R97, R53: the CRC of a released speculative course ends. -/
def State.resolveCourse (s : State) (n : Nat) (r : IRow) (ok : Bool) : State :=
  let lines := r.lines.map fun e => (e.1, if e.2 = .unresolved then (if ok then LineSt.verified else .failed 2) else e.2)
  let r := { r with lines := lines }
  let (mo, mb) := rowMasks r
  let s := s.delRow n r.row
  let s := s.setFld F.CXP_CH_ISTAT_SPECOPEN (b2n ((s.ich n).rows.any (·.open_))) n
  let pinned := ((s.consumers n).filter fun k => s.consPly n k && s.pinnedOn (s.consQueue n k) && decide (s.pinChan (s.consQueue n k) = n))
  let queues := pinned.map fun k => s.consQueue n k
  if ok then
    let w := s.fld F.CXP_CH_WALES n
    let s := (s.writeMarker n r.marker 0 0 w mo mb).noteFinal n (sealMarker r.marker 0 0 w)
    let c := s.ich n
    let s := s.setIch n { c with
      completed := c.completed + 1
      feed := c.feed.map fun f => if f.row = r.row then { f with spec := false } else f }
    queues.foldl (fun s q => (s.resolveSpec q false true r.row).resolveSpec q true true r.row) s
  else
    let s := (s.writeMarker n r.marker 2 2 0 mo mb).noteFinal n (sealMarker r.marker 2 2 0)
    let s := queues.foldl (fun s q => (s.resolveSpec q true false r.row).resolveSpec q false false r.row) s
    let c := s.ich n
    let waiting := (c.feed.filter fun f => f.row == r.row).map (·.q)
    let s := s.setIch n { c with feed := c.feed.filter fun f => f.row != r.row }
    let s := waiting.foldl (fun s q => s.passRow q r.row) s
    s.recordDrop n r.row 2

def execCrcResolution (n row : Nat) (ok : Bool) (s : State) : Host.Outcome State Fault Refusal :=
  .next (s.when (decide (n < 16)) fun s =>
    match (s.ich n).rows.find? fun r => r.row == row with
    | none => s
    | some r =>
      if r.rel then s.resolveCourse n r ok
      else
        let s := s.setFld F.CXP_CH_ISTAT_SPECOPEN (b2n ((s.ich n).rows.any fun o => o.open_ && decide (o.row ≠ row))) n
        let s := s.updRow n row fun r => { r with
          fin := if r.fin = some .spec then none else r.fin
          written := r.written && decide (r.fin ≠ some .spec)
          open_ := false
          lines := r.lines.map fun e => (e.1, if e.2 = .unresolved then (if ok then LineSt.verified else .failed 2) else e.2) }
        s.checkRow n row)

def execCourseRelease (n : Nat) (s : State) : Host.Outcome State Fault Refusal :=
  .next (s.when (decide (n < 16)) fun s =>
    match s.headRow n with
    | none => s
    | some r => if r.fin.isSome then s.releaseRow n r else s)

/-- R98: the oldest unfinished row's watchdog expires. -/
def execCourseWatchdog (dt : Nat) (n : Nat) (s : State) : Host.Outcome State Fault Refusal :=
  let s := s.advance dt
  .next (s.when (decide (n < 16)) fun s =>
    match (s.ich n).rows.find? fun r => r.fin.isNone with
    | none => s
    | some r =>
      if r.marker.time.toNat + s.fld F.CXP_CH_CWD n * 1000 ≤ s.now then
        let left := r.lines.filter fun e => match e.2 with | .verified => false | .failed _ => false | _ => true
        let s := s.expiry
        let s := s.updRow n r.row fun r => { r with
          lines := left.foldl (fun (t : KV Nat LineSt) e => t.set e.1 (.failed 4)) r.lines }
        let s := left.foldl (fun s e => if (s.cam e.1).cur = some r.row then s.setCam e.1 { s.cam e.1 with cur := none } else s) s
        s.checkRow n r.row
      else s)

/-! ### Heartbeat (R106) -/

/-- The camera whose master link `l` is. -/
def State.camOfMaster (s : State) (l : Nat) : Option Nat :=
  (List.range 32).find? fun k => s.flag F.CXP_CAM_CTRL_EN k && decide (s.fld F.CXP_CAM_CTRL_MASTER k = l)

def execHeartbeatPacket (l : Nat) (s : State) : Host.Outcome State Fault Refusal :=
  .next (s.when (decide (l < 32) && s.flag F.CXP_LNK_STAT_UP l) fun s =>
    let s := s.setFld F.CXP_LNK_STAT_HBOK 1 l
    match s.camOfMaster l with
    | none => s
    | some k =>
      if (s.cam k).lost then
        (s.setCam k { s.cam k with lost := false }).rebase k ((s.chan (s.fld F.CXP_CAM_CTRL_CHAN k)).row.toNat + 1)
      else s)

def execHeartbeatTimeout (l : Nat) (s : State) : Host.Outcome State Fault Refusal :=
  .next (s.when (decide (l < 32) && s.flag F.CXP_LNK_CTRL_EN l) fun s =>
    let s := (((s.setFld F.CXP_LNK_STAT_HBOK 0 l).setFld F.CXP_LNK_STAT_HBLOST 1 l).raiseLink l).expiry
    match s.camOfMaster l with
    | none => s
    | some k => (s.setCam k { s.cam k with lost := true, cur := none }).failCam k 8)

/-! ### Events and mailboxes (R109 to R111) -/

def execEventPacket (dt : Nat) (l : Nat) (data : List Byte) (s : State) : Host.Outcome State Fault Refusal :=
  let s := s.advance dt
  .next (s.when (decide (l < 32) && s.flag F.CXP_LNK_STAT_UP l) fun s =>
    if 64 ≤ s.ing.fifo.length then s.bump F.CXP_EVT_STAT_16
    else ({ s with ing := { s.ing with
      fifo := s.ing.fifo ++ [(⟨l, s.tb.time, data.take 56, decide (56 < data.length)⟩ : EvtRec)] } }).raise 153)

/-- R109, R110: GO of a mailbox whose command register holds the request. -/
def State.mailboxGo (s : State) (k : Nat) : State :=
  if s.flag F.CXP_MBX_STAT_BUSY k then s.setFld F.CXP_MBX_STAT_REFUSED 1 k
  else
    let words := s.fld F.CXP_MBX_CMD_LEN k + 1
    let wr := s.flag F.CXP_MBX_CMD_OP k
    let data := if wr then (List.range words).flatMap fun w => leBytes 4 (s.reg ⟨.CXP_MBX_DATA, k, w⟩).toNat else []
    let s := { s with ing := { s.ing with waits := s.ing.waits.set k 0 } }
    (s.setFld F.CXP_MBX_STAT_BUSY 1 k).send (.camControl k wr (s.reg ⟨.CXP_MBX_ADDR, k, 0⟩) data)

def execMailboxAnswer (k : Nat) (ok : Bool) (ack : Nat) (data : List Byte) (s : State) : Host.Outcome State Fault Refusal :=
  .next (s.when (decide (k < 32) && s.flag F.CXP_MBX_STAT_BUSY k) fun s =>
    let words := s.fld F.CXP_MBX_CMD_LEN k + 1
    let s := if s.flag F.CXP_MBX_CMD_OP k || !ok then s
      else (List.range words).foldl (fun s w =>
        s.setReg ⟨.CXP_MBX_DATA, k, w⟩ (BitVec.ofNat 32 (ofLeBytes ((data.drop (4 * w)).take 4)))) s
    let s := ((s.setFld F.CXP_MBX_STAT_BUSY 0 k).setFld F.CXP_MBX_STAT_ACK ack k).setFld F.CXP_MBX_STAT_DONE 1 k
    (if ok then s else s.setFld F.CXP_MBX_STAT_ERR 1 k).raise 152)

def execMailboxWaitAck (k : Nat) (s : State) : Host.Outcome State Fault Refusal :=
  .next (s.when (decide (k < 32) && s.flag F.CXP_MBX_STAT_BUSY k) fun s =>
    { s with ing := { s.ing with waits := s.ing.waits.upd k 0 fun w => min 8 (w + 1) } })

def execMailboxTimeout (k : Nat) (s : State) : Host.Outcome State Fault Refusal :=
  .next (s.when (decide (k < 32) && s.flag F.CXP_MBX_STAT_BUSY k) fun s =>
    ((s.setFld F.CXP_MBX_STAT_BUSY 0 k).setFld F.CXP_MBX_STAT_TIMEOUT 1 k).raise 152)

/-- R111: the head entry of the event FIFO leaves. -/
def State.popEvent (s : State) : State := { s with ing := { s.ing with fifo := s.ing.fifo.drop 1 } }

/-- R101: the head entry of a drop log leaves. -/
def State.popDrop (s : State) (n : Nat) : State := let c := s.ich n; s.setIch n { c with dlog := c.dlog.drop 1 }

/-- R91: a firmware or host consumer's write of its release row. -/
def State.writeRel (s : State) (n k row : Nat) : State := if s.consPly n k then s else s.raiseRel n k row

/-! ### Bind-off (R47, R108, R242) -/

/-- R108: ingest of a channel admits no new row. -/
def State.startIngestBindoff (s : State) (n : Nat) : State :=
  if s.flag F.CXP_CH_ISTAT_RUN n then (s.setFld F.CXP_CH_ISTAT_RUN 0 n).setFld F.CXP_CH_ISTAT_BINDOFF 1 n else s

/-- The queues that are pinned to a channel and consume it. -/
def State.pinnedQueues (s : State) (n : Nat) : List Nat :=
  (List.range 16).filter fun q => s.pinnedOn q && decide (s.pinChan q = n) && s.consumes q n

/-- R242: the bind-off of one channel starts. -/
def State.startChanBindoff (s : State) (n : Nat) : State :=
  if (s.chan n).st ≠ .run then s
  else
    let s := s.setChan n { s.chan n with st := .bindoff }
    let s := (s.pinnedQueues n).foldl (fun s q => s.setPlq q { s.plq q with bindAfter := true }) s
    let s := s.startIngestBindoff n
    if s.flag F.CXP_CH_ISTAT_BINDOFF n then s
    else ((List.range 16).foldl (fun s q =>
      if (s.plq q).bindAfter && decide (s.pinChan q = n) then s.startQBindoff q else s) s).settleChan n

/-- R47: the bind-off of a leader takes its group with it, unless it is asked of the leader alone. -/
def State.bindoffGroup (s : State) (n : Nat) : State :=
  if s.locked n && decide (s.fld F.TIO_CH_CTRL_LEADER n = n) then (s.members n).foldl State.startChanBindoff s
  else s.startChanBindoff n

/-- R47: whether a request to bind off channel `n` alone is refused. -/
def State.leaderBusy (s : State) (n : Nat) : Bool :=
  s.locked n && decide (s.fld F.TIO_CH_CTRL_LEADER n = n) && (s.members n).any fun m => decide (m ≠ n) && (s.chan m).st == .run

def execChannelBindoff (n : Nat) (s : State) : Host.Outcome State Fault Refusal :=
  .next (s.when (decide (n < 16) && !s.leaderBusy n) fun s => s.startChanBindoff n)

/-- R108: every row has been released or dropped. -/
def State.endIngestBindoff (s : State) (n : Nat) : State :=
  let s := (s.setFld F.CXP_CH_ISTAT_BINDOFF 0 n).raise (128 + n)
  ((List.range 16).foldl (fun s q =>
    if (s.plq q).bindAfter && decide (s.pinChan q = n) then s.startQBindoff q else s) s).settleChan n

def execIngestBindoffEnd (n : Nat) (s : State) : Host.Outcome State Fault Refusal :=
  .next (s.when (decide (n < 16) && s.flag F.CXP_CH_ISTAT_BINDOFF n && (s.headRow n).isNone) fun s => s.endIngestBindoff n)

/-- R108, R503: rows still pending are dropped with cause BINDOFF; finished ones are released. -/
def execIngestBindoffTimeout (n : Nat) (s : State) : Host.Outcome State Fault Refusal :=
  .next (s.when (decide (n < 16) && s.flag F.CXP_CH_ISTAT_BINDOFF n) fun s =>
    let s := (s.bump F.TMO_CNT1_24).expiry
    let left := (s.ich n).rows.filter fun r => !r.rel
    let s := left.foldl (fun s r => if r.fin.isNone then s.dropRow n r 9 else (s.showHead n).releaseRow n r) s
    (s.showHead n).endIngestBindoff n)

end Sys2Proof.Machine
end

