-- ==== Sys2Proof/Machine/RegRead.lean ====
section
/-!
DEFINITION. Sys2Proof/Machine/RegRead.lean: what a read of a register returns and what it does: stored fields, fields that show
the state of their block, the LO/HI latch, fields that a read clears, FIFOs that a read pops (R8, R547, R466 to R473 and the
register tables).
-/
namespace Sys2Proof

/-- The HI register of a LO/HI pair (R547). -/
def RegKind.hiOf : RegKind → Option RegKind
  | .TBS_TIME_LO => some .TBS_TIME_HI
  | .TBS_SET_LO => some .TBS_SET_HI
  | .TIO_ENC_POS_LO => some .TIO_ENC_POS_HI
  | .TIO_CH_ROW_LO => some .TIO_CH_ROW_HI
  | .TIO_CH_OFFSET_LO => some .TIO_CH_OFFSET_HI
  | .TIO_CAP_TIME_LO => some .TIO_CAP_TIME_HI
  | .TIO_CAP_ROW_LO => some .TIO_CAP_ROW_HI
  | .TIO_CAP_POS_LO => some .TIO_CAP_POS_HI
  | .CXP_CH_REL_LO => some .CXP_CH_REL_HI
  | .CXP_CH_DLOG_LO => some .CXP_CH_DLOG_HI
  | .STH_CONFL_LO => some .STH_CONFL_HI
  | .DDR_TOP_LO => some .DDR_TOP_HI
  | .DDR_CH_ELOG_LO => some .DDR_CH_ELOG_HI
  | .BED_STALE_LO => some .BED_STALE_HI
  | .HKC_T_TCYC_LO => some .HKC_T_TCYC_HI
  | .HKC_T_WAIT_LO => some .HKC_T_WAIT_HI
  | .HKC_T_HALTA_LO => some .HKC_T_HALTA_HI
  | .VOT_DS_TIME_LO => some .VOT_DS_TIME_HI
  | .VOT_DS_ADDR_LO => some .VOT_DS_ADDR_HI
  | .KTH_SRC_LO => some .KTH_SRC_HI
  | .KTH_DST_LO => some .KTH_DST_HI
  | .PCI_HTAB_BASE_LO => some .PCI_HTAB_BASE_HI
  | .PCI_BAR4_OFF_LO => some .PCI_BAR4_OFF_HI
  | .PCI_LNK_BAR4_OFF_LO => some .PCI_LNK_BAR4_OFF_HI
  | .PCI_DMA_RING_LO => some .PCI_DMA_RING_HI
  | .PCI_DMA_WB_LO => some .PCI_DMA_WB_HI
  | .PCI_RR_HOST_LO => some .PCI_RR_HOST_HI
  | .PCI_RR_WB_LO => some .PCI_RR_WB_HI
  | .TMO_RTIME_LO => some .TMO_RTIME_HI
  | .TMO_RENC_LO => some .TMO_RENC_HI
  | _ => none

/-- The LO register of a LO/HI pair (R547). -/
def RegKind.loOf : RegKind → Option RegKind
  | .TBS_TIME_HI => some .TBS_TIME_LO
  | .TBS_SET_HI => some .TBS_SET_LO
  | .TIO_ENC_POS_HI => some .TIO_ENC_POS_LO
  | .TIO_CH_ROW_HI => some .TIO_CH_ROW_LO
  | .TIO_CH_OFFSET_HI => some .TIO_CH_OFFSET_LO
  | .TIO_CAP_TIME_HI => some .TIO_CAP_TIME_LO
  | .TIO_CAP_ROW_HI => some .TIO_CAP_ROW_LO
  | .TIO_CAP_POS_HI => some .TIO_CAP_POS_LO
  | .CXP_CH_REL_HI => some .CXP_CH_REL_LO
  | .CXP_CH_DLOG_HI => some .CXP_CH_DLOG_LO
  | .STH_CONFL_HI => some .STH_CONFL_LO
  | .DDR_TOP_HI => some .DDR_TOP_LO
  | .DDR_CH_ELOG_HI => some .DDR_CH_ELOG_LO
  | .BED_STALE_HI => some .BED_STALE_LO
  | .HKC_T_TCYC_HI => some .HKC_T_TCYC_LO
  | .HKC_T_WAIT_HI => some .HKC_T_WAIT_LO
  | .HKC_T_HALTA_HI => some .HKC_T_HALTA_LO
  | .VOT_DS_TIME_HI => some .VOT_DS_TIME_LO
  | .VOT_DS_ADDR_HI => some .VOT_DS_ADDR_LO
  | .KTH_SRC_HI => some .KTH_SRC_LO
  | .KTH_DST_HI => some .KTH_DST_LO
  | .PCI_HTAB_BASE_HI => some .PCI_HTAB_BASE_LO
  | .PCI_BAR4_OFF_HI => some .PCI_BAR4_OFF_LO
  | .PCI_LNK_BAR4_OFF_HI => some .PCI_LNK_BAR4_OFF_LO
  | .PCI_DMA_RING_HI => some .PCI_DMA_RING_LO
  | .PCI_DMA_WB_HI => some .PCI_DMA_WB_LO
  | .PCI_RR_HOST_HI => some .PCI_RR_HOST_LO
  | .PCI_RR_WB_HI => some .PCI_RR_WB_LO
  | .TMO_RTIME_HI => some .TMO_RTIME_LO
  | .TMO_RENC_HI => some .TMO_RENC_LO
  | _ => none

namespace Machine

/-! ### Values that show the state of a block -/

/-- Half `hi` (0 low, 1 high) of a 64-bit value. -/
def half64 (v : Nat) (hi : Nat) : Nat := v / 2 ^ (32 * hi) % 2 ^ 32

/-- HKC_Tt_STAT.STATE. -/
def ThSt.code : ThSt → Nat
  | .stopped => 0 | .running => 1 | .idle => 2 | .halted => 3 | .inReset => 4

/-- The core whose registers a copy of the HKC_ block shows: core 0's in voted mode (09_hook_core.md). -/
def State.hkcCore (s : State) (c : Nat) : Nat := if s.voted then 0 else c

/-- HKC_Tt_LVL. -/
def State.lvlReg (s : State) (c t : Nat) : Nat :=
  let rs := s.requests c t
  let vec := match bestRequest rs with | some (_, v) => v | none => 0
  let pend := (List.range 8).foldl (fun m l => if rs.any fun r => r.1 == l then m + 2 ^ l else m) 0
  let act := (List.range 9).foldl (fun m l => if (s.th c t).active.contains l then m + 2 ^ (8 + l) else m) 0
  vec * 2 ^ 24 + act + pend

/-- The 32 bytes of a completion record (R149). -/
def cplBytes (r : Cpl) : List Byte :=
  leBytes 8 r.cookie.toNat ++ leBytes 1 r.status ++ leBytes 1 r.cause ++ leBytes 1 r.instr ++ leBytes 1 r.lpos
    ++ leBytes 4 r.flags ++ leBytes 8 r.elem ++ leBytes 8 r.addr

/-- Word `j` of a list of bytes, 0 beyond its end. -/
def wordOf (l : List Byte) (j : Nat) : Nat := ofLeBytes ((l.drop (4 * j)).take 4)

/-- Word `j` of the head of the event FIFO (R111): the event data from byte 8 on; the place of link number and time in the first
8 bytes is not stated (DESIGN CHOICE, notes/assumptions/25.md). -/
def State.evtWord (s : State) (j : Nat) : Nat :=
  match s.ing.fifo.head? with
  | none => 0
  | some r => if j < 2 then (Config.evtHead j r.link r.time r.truncated).toNat else wordOf r.data (j - 2)

/-- An instance has started and not ended. -/
def instBusy (p : Option Inst) : Bool := match p with | some p => p.st != .armed | none => false
def instSuspended (p : Option Inst) : Bool := match p with | some p => p.st == .suspended | none => false

/-- The lowest slot of the older instance that is not finished. -/
def State.slotNow (s : State) (q : Nat) : Nat :=
  match (s.plq q).older with
  | none => 0
  | some p => ((List.range p.prog.length).find? fun k => !slotFin p k).getD 0

/-- PLQ_q_STAT: BINDOFF, SUB_REFUSED and CPL_OVF are stored, the rest shows the queue. -/
def State.plqStat (s : State) (q : Nat) : Nat :=
  let x := s.plq q
  let w := (s.reg ⟨.PLQ_STAT, q, 0⟩).toNat &&& 0x38
  w + b2n (instBusy x.older || instBusy x.younger) + 2 * b2n (s.qFaulted q)
    + 4 * b2n (instSuspended x.older || instSuspended x.younger) + 2 ^ 8 * x.wait.length + 2 ^ 16 * x.cpl.length
    + 2 ^ 24 * s.slotNow q

/-- The open lifelines of a set, outermost first (R219). -/
def State.livesOf (s : State) (n : Nat) : List Life :=
  let l := fun (p : Option Inst) => match p with | some p => p.lives | none => []
  (s.queuesOf n).flatMap fun q => l (s.plq q).older ++ l (s.plq q).younger

def LifeKind.code : LifeKind → Nat
  | .life => 0 | .course => 1 | .branch => 2 | .ingest => 3

/-- PLQ_q_LIFE. -/
def State.lifeReg (s : State) (q : Nat) : Nat :=
  let ls := match s.setOf q with | some n => s.livesOf n | none => []
  let kinds := ls.foldr (fun l m => 4 * m + LifeKind.code l.kind) 0
  let serial := match ls.getLast? with | some l => l.id.toNat % 1024 | none => 0
  ls.length + 16 * kinds + 2 ^ 16 * serial + 2 ^ 26 * b2n (instBusy (s.plq q).younger)

/-- A progress register: slot k and position i of word j; the older instance's stay readable after its end (R162, R241). -/
def State.prgWord (s : State) (q j : Nat) (young : Bool) : Nat :=
  let x := s.plq q
  let p := if young then x.younger else match x.older with | some p => some p | none => x.ended
  match p with
  | none => 0
  | some p =>
    let k := j / 2 / 128
    if k < p.prog.length then half64 (prgOf p k (j / 2 % 128)) (j % 2) else 0

/-- A bed issues work: it holds a position of a set on which an instance runs. -/
def State.bedActive (s : State) (b : Nat) : Bool :=
  let n := s.fld F.BED_CTRL_SET b
  let runs := fun (p : Option Inst) => match p with | some p => p.st == .running | none => false
  (s.setBeds n).contains b && (s.queuesOf n).any fun q => runs (s.plq q).older || runs (s.plq q).younger

/-- PWR_DOMd (R481, R483, R484). -/
def State.domState (s : State) (d : Nat) : Nat :=
  let standby := decide (s.fld F.PWR_STAT_SLEEP = 2)
  let off := fun (c : Bool) => if c then 2 else 0
  if d < 136 then (if s.flag F.BED_STAT_PWRGATED d then 2 else if s.flag F.BED_STAT_CLKGATED d then 1 else 0)
  else if d < 144 then off standby
  else if d < 156 then
    (if !(s.fld F.DDR_CFG_CHMASK).testBit (d - 144) then 2 else if standby then 3 else 0)
  else if d < 164 then off ((List.range 4).all fun l => !s.flag F.CXP_LNK_CTRL_EN (4 * (d - 156) + l))
  else if d = 164 then off (standby && !s.flag F.PCI_STAT_UP)
  else if d = 167 then off (standby && !s.flag F.KTH_TREE_OPEN)
  else if d = 168 then off standby
  else 0

/-- GAU_Bb_FREQ: the limit at present junction and the running frequency, 0 when not clocked. -/
def State.freqReg (s : State) (b : Nat) : Nat :=
  let n := s.fld F.BED_CTRL_SET b
  let clocked := (s.clockedBeds n).contains b && !s.flag F.BED_STAT_PWRGATED b && !s.flag F.BED_STAT_CLKGATED b
  s.limitNow b * 2 ^ 16 + (if clocked then s.fset n else 0)

/-- Thread-cycles since a thread started, at 3 in 10 ns. -/
def State.tcyc (s : State) (c t : Nat) : Nat := (s.uptime - (s.th c t).started) * 3 / 10

/-- The stored word with a field replaced. -/
def State.withFld (s : State) (f : Fld) (r : Reg) (v : Nat) : Nat := putBits (s.reg r).toNat f.hi f.lo v

/-- The core and thread that a reader of HKC_ID reads of itself. -/
def Who.self : Who → Nat × Nat
  | .hook c t _ => (c, t)
  | _ => (0, 0)

/-- The value of a timed-I/O or time-base register now. -/
def State.readWeb (s : State) (r : Reg) : Nat :=
  let cap := (s.cap r.i).head?
  let capOf := fun (f : CapRec → DWord) (hi : Nat) => match cap with | some c => half64 (f c).toNat hi | none => 0
  match r.kind with
  | .TBS_TIME_LO => half64 s.now 0
  | .TBS_TIME_HI => half64 s.now 1
  | .TIO_ENC_POS_LO => half64 (encForm (s.encPos r.i)).toNat 0
  | .TIO_ENC_POS_HI => half64 (encForm (s.encPos r.i)).toNat 1
  | .TIO_ENC_SPEED => s.encCountsPerSec r.i
  | .TIO_CH_ROW_LO => half64 (s.chan r.i).row.toNat 0
  | .TIO_CH_ROW_HI => half64 (s.chan r.i).row.toNat 1
  | .TIO_CAP_STAT => s.withFld F.TIO_CAP_STAT_LEVEL r (s.cap r.i).length
  | .TIO_CAP_TIME_LO => capOf CapRec.time 0
  | .TIO_CAP_TIME_HI => capOf CapRec.time 1
  | .TIO_CAP_ROW_LO => capOf CapRec.row 0
  | .TIO_CAP_ROW_HI => capOf CapRec.row 1
  | .TIO_CAP_POS_LO => capOf CapRec.pos 0
  | .TIO_CAP_POS_HI => capOf CapRec.pos 1
  | .TIO_OUT_STAT =>
    let x := s.out r.i
    b2n (s.pinSensed r.i) + 2 * b2n (x.q.any fun e => e.tent) + 4 * b2n x.bindoff + 2 ^ 10 * x.q.length
  | _ => (s.reg r).toNat

/-- The value of a register of ingest, beds or ply queues now. -/
def State.readStream (s : State) (r : Reg) : Nat :=
  let dlog := (s.ich r.i).dlog
  match r.kind with
  | .CXP_CH_DLOG_LO => match dlog.head? with | some d => half64 d.1.toNat 0 | none => 0
  | .CXP_CH_DLOG_HI => match dlog.head? with | some d => half64 d.1.toNat 1 | none => 0
  | .CXP_CH_DLOG_CAUSE => (match dlog.head? with | some d => d.2 | none => 0) + 2 ^ 8 * dlog.length
  | .CXP_EVT_STAT => s.withFld F.CXP_EVT_STAT_0 r s.ing.fifo.length
  | .CXP_EVT_HEAD => s.evtWord r.i
  | .BED_LIMIT =>
    bedLimit + 2 ^ 16 * ((List.range 136).filter fun b => s.flag F.BED_CTRL_EN b && !s.flag F.BED_CTRL_STANDBY b).length
  | .BED_STAT => s.withFld F.BED_STAT_ACTIVE r (b2n (s.bedActive r.i))
  | .PLQ_STAT => s.plqStat r.i
  | .PLQ_LIFE => s.lifeReg r.i
  | .PLQ_CPL => match (s.plq r.i).cpl.head? with | some c => wordOf (cplBytes c) r.j | none => 0
  | .PLQ_PRG => s.prgWord r.i r.j false
  | .PLQ_PRGR => s.prgWord r.i r.j true
  | .BED_UC_STAT => s.withFld F.BED_UC_STAT_ROMREL r Config.romRel.toNat
  | _ => (s.reg r).toNat

/-- The value of a register of the hook complex or the voter now. -/
def State.readHook (s : State) (who : Who) (r : Reg) : Nat :=
  let c := s.hkcCore r.i
  let x := s.th c r.j
  let stored := (s.reg ⟨r.kind, c, r.j⟩).toNat
  match r.kind with
  | .HKC_ID => s.fld F.HKC_ID_MODE + 4 * (s.hkcCore (Who.self who).1) + 16 * (Who.self who).2 + 2 ^ 12 * 4
  | .HKC_T_CTRL => b2n (x.st != .stopped)
  | .HKC_T_STAT => ThSt.code x.st + (stored &&& 16) + 2 ^ 12 * x.lvl
  | .HKC_T_TCYC_LO => half64 (s.tcyc c r.j) 0
  | .HKC_T_TCYC_HI => half64 (s.tcyc c r.j) 1
  | .HKC_T_WAIT_LO => half64 x.waits 0
  | .HKC_T_WAIT_HI => half64 x.waits 1
  | .HKC_T_LVL => s.lvlReg c r.j
  | .HKC_T_FPST => stored % 256 + 2 ^ 8 * b2n (x.sbit 22)
  | .HKC_IPEND => (List.range 32).foldl (fun m k => if s.flag F.HKC_IRQ_CFG_PEND c (32 * r.j + k) then m + 2 ^ k else m) 0
  | .VOT_DS_INFO => match s.vot.ds.head? with | some d => d.info.toNat | none => 0
  | .VOT_DS_TIME_LO => match s.vot.ds.head? with | some d => half64 d.time.toNat 0 | none => 0
  | .VOT_DS_TIME_HI => match s.vot.ds.head? with | some d => half64 d.time.toNat 1 | none => 0
  | .VOT_DS_ADDR_LO => match s.vot.ds.head? with | some d => half64 d.addr.toNat 0 | none => 0
  | .VOT_DS_ADDR_HI => match s.vot.ds.head? with | some d => half64 d.addr.toNat 1 | none => 0
  | .VOT_DS_POP => s.vot.ds.length
  | _ => stored

/-- The value of a register of the remaining blocks now. -/
def State.readSys (s : State) (r : Reg) : Nat :=
  match r.kind with
  | .KTH_STAT => s.withFld F.KTH_STAT_EXHAUSTED r (b2n (decide (s.bootN = 32768)))
  | .KTH_BOOTCNT => s.bootN
  | .KTH_SLOTS => s.slotBits + 2 ^ 8 * b2n Config.fwInt
  | .PCI_DMA_STAT => s.withFld F.PCI_DMA_STAT_0 r
      (b2n (s.flag F.PCI_DMA_CTRL_EN r.i && !s.flag F.PCI_DMA_STAT_1 r.i && decide (s.fld F.PCI_DMA_TAIL r.i ≠ s.fld F.PCI_DMA_HEAD r.i)))
  | .PCI_MSIX_TABLE => (s.msixWord 0 r.i).toNat
  | .PCI_MSIX_PBA => (List.range 32).foldl (fun m k => if s.host.pba.contains (32 * r.i + k) then m + 2 ^ k else m) 0
  | .PWR_DOM => s.domState r.i
  | .GAU_STHF => s.withFld F.GAU_STHF_16 r s.stashLimit
  | .GAU_B_FREQ => s.freqReg r.i
  | _ => (s.reg r).toNat

/-- Bits of a register that a write-only field covers: they read 0. -/
def wMask (k : RegKind) : Nat :=
  k.info.fields.foldl (fun m f => if f.acc = .w ∨ f.acc = .res then m ||| maskOf f.hi f.lo else m) 0

/-- The value that a register shows now. -/
def State.readReg (s : State) (who : Who) (r : Reg) : Word :=
  let v := match r.kind.info.block with
    | .TBS => s.readWeb r
    | .TIO => s.readWeb r
    | .CXP => s.readStream r
    | .BED => s.readStream r
    | .PLQ => s.readStream r
    | .HKC => s.readHook who r
    | .VOT => s.readHook who r
    | _ => s.readSys r
  BitVec.ofNat 32 v &&& ~~~ BitVec.ofNat 32 (wMask r.kind)

/-! ### What a read does -/

/-- A read has a side effect of its own: it clears a field or pops a FIFO (R471). -/
def readActs (r : Reg) : Bool :=
  r.kind.info.fields.any (fun f => f.acc = .rsc) ||
    match r.kind with
    | .TIO_CAP_POS_HI => true
    | .CXP_CH_DLOG_HI => true
    | .CXP_EVT_HEAD => decide (r.i = 15)
    | .PLQ_CPL => decide (r.j = 7)
    | .VOT_DS_POP => true
    | _ => false

/-- The fields with access rsc clear (00_scope.md, access codes). -/
def State.clearRsc (s : State) (r : Reg) : State :=
  let m : Nat := r.kind.info.fields.foldl (fun m f => if f.acc = .rsc then m ||| maskOf f.hi f.lo else m) 0
  if m = 0 then s else s.setReg r (s.reg r &&& ~~~ BitVec.ofNat 32 m)

/-- R392: the head record of VOT_DS leaves. -/
def State.popDs (s : State) : State := { s with vot := { s.vot with ds := s.vot.ds.drop 1 } }

/-- R74: the head entry of a capture FIFO leaves. -/
def State.popCap (s : State) (n : Nat) : State := s.setCap n ((s.cap n).drop 1)

/-- The FIFO whose head a read of this register removes (R74, R101, R111, R149, R392). -/
def State.popBy (s : State) (r : Reg) : State :=
  match r.kind with
  | .TIO_CAP_POS_HI => s.popCap r.i
  | .CXP_CH_DLOG_HI => s.popDrop r.i
  | .CXP_EVT_HEAD => if r.i = 15 then s.popEvent else s
  | .PLQ_CPL => if r.j = 7 then s.popCpl r.i else s
  | .VOT_DS_POP => s.popDs
  | _ => s

/-- In voted mode an access to the copies of cores 1 and 2 reads core 0's (09_hook_core.md). -/
def State.aliased (s : State) (r : Reg) : Reg :=
  if r.kind.info.block = .HKC ∧ s.voted then { r with i := 0 } else r

/-- A read of a register: the value, and the state after its side effects. Reading LO latches HI; the next read of HI returns what
was latched (R547, DEDUCED, notes/assumptions/21.md). -/
def State.loadReg (s : State) (who : Who) (r : Reg) : Word × State :=
  let r := s.aliased r
  let v := match s.latched.find? fun e => decide (e.1 = r) with
    | some e => e.2
    | none => s.readReg who r
  let s1 := match r.kind.hiOf with
    | some h => { s with latched := s.latched.set { r with kind := h } (s.readReg who { r with kind := h }) }
    | none => { s with latched := s.latched.del r }
  (v, (s1.clearRsc r).popBy r)

/-- A read by address, with its record in `rd` (DESIGN CHOICE, notes/assumptions/4.md): an offset that has no register reads 0 (R465). -/
def State.loadAddr (s : State) (who : Who) (a : Nat) : State :=
  match Reg.ofAddr a with
  | none => { s with rd := leBytes 4 0 }
  | some r => let (v, s) := s.loadReg who r; { s with rd := leBytes 4 v.toNat }

end Machine
end Sys2Proof
end

