-- ==== Sys2Proof/Machine/Counters.lean ====
section
/-!
DEFINITION. Sys2Proof/Machine/Counters.lean: the counters of 0x2900 and what firmware's poll adds to them (R461). Key `sub` of the
tally is subindex `sub`; the UE halves of 19 and 1A stand under sub + 0x40, and the sums last seen of counters that no read clears
under sub + 0x80.
-/
namespace Sys2Proof.Machine

/-- The fields of a register that clear on read, each with the subindex of 0x2900 that it adds to. -/
def counterFields : RegKind → List (Nat × Fld)
  | .CXP_CH_CNT => [(0x03, F.CXP_CH_CNT_16), (0x04, F.CXP_CH_CNT_0)]
  | .VOT_CNT => [(0x05, F.VOT_CNT_24), (0x06, F.VOT_CNT_16), (0x1F, F.VOT_CNT_0)]
  | .TIO_OUT_CNT => [(0x07, F.TIO_OUT_CNT_HFIRE), (0x08, F.TIO_OUT_CNT_HDROP), (0x0B, F.TIO_OUT_CNT_LATE), (0x0C, F.TIO_OUT_CNT_FULL)]
  | .TIO_OUT_CNT2 =>
    [(0x09, F.TIO_OUT_CNT2_DROPCOMMIT), (0x0A, F.TIO_OUT_CNT2_FIREFROG), (0x0D, F.TIO_OUT_CNT2_FLUSHED), (0x0E, F.TIO_OUT_CNT2_REFUSED)]
  | .PLQ_SCNT => [(0x0F, F.PLQ_SCNT_24), (0x10, F.PLQ_SCNT_16), (0x11, F.PLQ_SCNT_8), (0x12, F.PLQ_SCNT_0)]
  | .HKC_T_WCNT => [(0x15, F.HKC_T_WCNT_16), (0x15, F.HKC_T_WCNT_0)]
  | .HKC_T_EXC => [(0x16, F.HKC_T_EXC_16), (0x17, F.HKC_T_EXC_8)]
  | .HKC_T_FPCNT => [(0x18, F.HKC_T_FPCNT_16), (0x18, F.HKC_T_FPCNT_0)]
  | .STH_ECC_CNT => [(0x19, F.STH_ECC_CNT_16), (0x59, F.STH_ECC_CNT_0)]
  | .DDR_CH_ECC => [(0x1A, F.DDR_CH_ECC_16), (0x5A, F.DDR_CH_ECC_0)]
  | .VOT_TCMFIX => [(0x1B, F.VOT_TCMFIX)]
  | .STH_TEST_CNT => [(0x1C, F.STH_TEST_CNT_0)]
  | .PLQ_CNT => [(0x1D, F.PLQ_CNT_16), (0x1E, F.PLQ_CNT_8), (0x1E, F.PLQ_CNT_0)]
  | _ => []

/-- The kinds that firmware's poll reads. -/
def polled : List RegKind :=
  [.CXP_CH_CNT, .VOT_CNT, .TIO_OUT_CNT, .TIO_OUT_CNT2, .PLQ_SCNT, .HKC_T_WCNT, .HKC_T_EXC, .HKC_T_FPCNT, .STH_ECC_CNT, .DDR_CH_ECC,
   .VOT_TCMFIX, .STH_TEST_CNT, .PLQ_CNT, .TIO_ENC_STAT]

/-- Firmware takes the counts of a register: they are added to 0x2900, and the phase errors of an encoder to 0x2480 + e:06. -/
def State.takeCounts (s : State) (r : Reg) : State :=
  let s := (counterFields r.kind).foldl (fun s e => s.count e.1 (s.fld e.2 r.i r.j)) s
  if r.kind = .TIO_ENC_STAT then
    s.setOd (0x2480 + r.i) 6 ((s.odv (0x2480 + r.i) 6 + s.fld F.TIO_ENC_STAT_PHASEERRS r.i) % 2 ^ 32)
  else s

/-- Firmware's poll of one register: its counts are taken, and the read clears them. -/
def State.pollReg (s : State) (r : Reg) : State := (s.takeCounts r).clearRsc r

/-- The registers of a kind. -/
def regsOf (k : RegKind) : List Reg :=
  let n := k.info
  if n.stride = 0 then (List.range n.count2).map fun j => ⟨k, 0, j⟩
  else (List.range n.count).flatMap fun i => (List.range n.count2).map fun j => ⟨k, i, j⟩

/-- The sums of the counters that no read clears: conflicts, stale discards, wait states. -/
def State.longCounts (s : State) : List (Nat × Nat) :=
  [(0x01, (List.range 136).foldl (fun a b => a + s.pair F.STH_CONFL_LO F.STH_CONFL_HI b) 0),
   (0x02, s.pair F.BED_STALE_LO F.BED_STALE_HI),
   (0x14, (List.range 12).foldl (fun a k => a + (s.th (k / 4) (k % 4)).waits) 0)]

/-- What such a counter has gained since the last poll; a sum that fell has restarted (R514). -/
def State.takeLong (s : State) (sub now : Nat) : State :=
  let old := s.tally.get (sub + 0x80) 0
  let s := s.count sub (if old ≤ now then now - old else now)
  { s with tally := s.tally.set (sub + 0x80) now }

/-- R461: firmware reads the counters of the blocks. -/
def State.pollCounters (s : State) : State :=
  let s := (polled.flatMap regsOf).foldl State.pollReg s
  s.longCounts.foldl (fun s e => s.takeLong e.1 e.2) s

def execCounterPoll (s : State) : Host.Outcome State Fault Refusal := .next (s.when s.fwUp State.pollCounters)

/-- 0x2900:sub as it reads. -/
def State.tallyValue (s : State) (sub : Nat) : Nat :=
  if sub = 0x19 ∨ sub = 0x1A then s.tally.get sub 0 % 2 ^ 32 * 2 ^ 32 + s.tally.get (sub + 0x40) 0 % 2 ^ 32
  else s.tally.get sub 0 % 2 ^ 64

/-- 0x2900:20 := 1: every counter reads 0; what the blocks have counted since the last poll is still to come. -/
def State.clearTally (s : State) : State := { s with tally := s.tally.filter fun e => decide (0x80 ≤ e.1) }

end Sys2Proof.Machine
end

