-- ==== Sys2Proof/Machine/OdInfo.lean ====
section
/-!
DEFINITION. Sys2Proof/Machine/OdInfo.lean: the objects of the dictionary as the tables of 16_object_dictionary.md and 15_trust.md
list them: length, access, mapping, and the range of each value (R449, R453, R456).
-/
namespace Sys2Proof.Machine

/-- One subindex: its length in bytes (`none` for a string or a DOMAIN), whether it may be read, written, mapped in a TxPDO, mapped
in an RxPDO. -/
structure OdInfo where
  len : Option Nat
  rd : Bool
  wr : Bool
  tx : Bool
  rx : Bool
  deriving DecidableEq, Repr

def roO (n : Nat) : Option OdInfo := some ⟨some n, true, false, false, false⟩
def rwO (n : Nat) : Option OdInfo := some ⟨some n, true, true, false, false⟩
def woO (n : Nat) : Option OdInfo := some ⟨some n, false, true, false, false⟩
def txO (n : Nat) : Option OdInfo := some ⟨some n, true, false, true, false⟩
def rxO (n : Nat) : Option OdInfo := some ⟨some n, true, true, false, true⟩
def domO (rd wr : Bool) : Option OdInfo := some ⟨none, rd, wr, false, false⟩

/-- SDO abort codes (R449, R452, R453). -/
def aNoObject : Nat := 0x06020000
def aNoSub : Nat := 0x06090011
def aReadOnly : Nat := 0x06010002
def aWriteOnly : Nat := 0x06010001
def aLength : Nat := 0x06070010
def aRange : Nat := 0x06090030
def aFieldOnly : Nat := 0x08000021
def aState : Nat := 0x08000022
def aOther : Nat := 0x08000000
def aNoMap : Nat := 0x06040041
def aMapSize : Nat := 0x06040042
def aToggle : Nat := 0x05040000

/-- `idx` is one of `n` objects from `base` on. -/
def inRange (base n idx : Nat) : Bool := decide (base ≤ idx) && decide (idx < base + n)

/-- The `k`-th entry of a table whose first subindex is 1. -/
def fromOne (l : List (Option OdInfo)) (sub : Nat) : Option OdInfo := if sub = 0 then none else (l[sub - 1]?).join

/-- Objects that are one variable. -/
def odVar (idx : Nat) : Option OdInfo :=
  if idx = 0x1000 then roO 4
  else if idx = 0x1001 then txO 1
  else if idx = 0x1008 ∨ idx = 0x1009 ∨ idx = 0x100A then domO true false
  else none

/-- PDO maps and assignments (R449, R456). -/
def isMap (idx : Nat) : Bool := inRange 0x1600 16 idx || inRange 0x1A00 17 idx || decide (idx = 0x1C12) || decide (idx = 0x1C13)

/-- The subindices of a record of the communication area, and its highest. -/
def odComm (idx : Nat) : Option (Nat × (Nat → Option OdInfo)) :=
  if idx = 0x1018 then some (4, fromOne [roO 4, roO 4, roO 4, roO 4])
  else if idx = 0x10F1 then some (2, fromOne [roO 4, rwO 2])
  else if inRange 0x1600 16 idx || inRange 0x1A00 17 idx then some (32, fun k => if 1 ≤ k ∧ k ≤ 32 then rwO 4 else none)
  else if idx = 0x1C00 then some (8, fun k => if 1 ≤ k ∧ k ≤ 8 then roO 1 else none)
  else if idx = 0x1C12 ∨ idx = 0x1C13 then some (32, fun k => if 1 ≤ k ∧ k ≤ 32 then rwO 2 else none)
  else if idx = 0x1C32 ∨ idx = 0x1C33 then
    some (0x20, fun k => match k with
      | 1 => rwO 2 | 2 => rwO 4 | 3 => if idx = 0x1C33 then rwO 4 else roO 4 | 4 => roO 2 | 5 => roO 4 | 6 => roO 4
      | 0xB => roO 2 | 0xC => roO 2 | 0x20 => txO 1 | _ => none)
  else none

/-- 0x2000 to 0x211F. -/
def odChan (idx : Nat) : Option (Nat × (Nat → Option OdInfo)) :=
  if idx = 0x2000 then some (8, fromOne [txO 1, woO 1, roO 1, txO 1, txO 1, rwO 1, rwO 1, roO 1])
  else if idx = 0x2010 then some (7, fromOne [roO 1, roO 1, roO 1, txO 4, roO 2, roO 1, roO 4])
  else if inRange 0x2100 16 idx then
    some (0x1F, fromOne
      ([rwO 1, roO 1, rwO 1, rwO 1, rwO 4, rwO 4, rwO 4, rwO 4, rwO 8, rwO 1, rwO 1, rwO 4, rwO 4, rwO 4, rwO 1, rwO 1]
        ++ [rwO 1, rwO 1, rwO 8, rwO 2, rwO 4, rwO 4, rwO 2, rwO 1, rwO 1, rwO 4, domO true true, roO 2, none, rwO 8, rwO 8]))
  else if inRange 0x2110 16 idx then
    some (0xB, fromOne [txO 1, txO 8, txO 8, txO 4, txO 4, roO 8, roO 8, roO 8, roO 1, roO 4, roO 8])
  else none

/-- 0x2200 to 0x232F. -/
def odBeds (idx : Nat) : Option (Nat × (Nat → Option OdInfo)) :=
  if idx = 0x2200 then some (0x8A, fun k => if k = 0x89 ∨ k = 0x8A then roO 1 else if 1 ≤ k ∧ k ≤ 0x88 then rwO 2 else none)
  else if idx = 0x2240 then some (0x41, fun k => if k = 0x41 then roO 1 else if 1 ≤ k ∧ k ≤ 0x40 then rwO 2 else none)
  else if idx = 0x2300 then some (8, fromOne [rwO 1, rwO 4, woO 1, rwO 1, roO 1, txO 1, roO 8, txO 2])
  else if idx = 0x2310 then some (6, fromOne [rwO 1, domO true false, roO 2, woO 1, roO 1, roO 2])
  else if idx = 0x2320 then some (7, fromOne [roO 1, roO 2, roO 1, roO 2, domO true false, woO 1, roO 1])
  else none

/-- 0x2400 to 0x27FF. -/
def odIo (idx : Nat) : Option (Nat × (Nat → Option OdInfo)) :=
  if inRange 0x2400 64 idx then some (9, fromOne [rwO 1, roO 1, rwO 1, rwO 1, rwO 1, rwO 4, rwO 4, txO 1, txO 1])
  else if inRange 0x2480 8 idx then some (6, fromOne [rwO 1, rwO 2, txO 8, txO 4, txO 1, roO 4])
  else if idx = 0x2500 then some (7, fromOne [rwO 1, rwO 2, rwO 4, txO 8, txO 1, roO 4, woO 8])
  else if idx = 0x2600 then
    some (0xD, fromOne [rwO 1, rwO 2, rwO 2, rwO 2, rwO 2, rwO 4, rwO 4, rwO 2, rwO 1, rwO 2, rwO 2, rwO 2, rwO 2])
  else if idx = 0x2700 then some (7, fromOne [txO 1, woO 1, roO 1, txO 2, roO 2, roO 1, rwO 4])
  else none

/-- 0x2800 on. -/
def odRest (idx : Nat) : Option (Nat × (Nat → Option OdInfo)) :=
  if idx = 0x2800 then
    some (0xC, fromOne [txO 1, txO 2, txO 2, rwO 32, woO 1, roO 1, roO 1, domO true false, roO 48, domO false true, roO 1, roO 8])
  else if idx = 0x2900 then some (0x20, fun k => if k = 0x20 then woO 1 else if 1 ≤ k ∧ k ≤ 0x1F then txO 8 else none)
  else if inRange 0x3000 63 idx then some (7, fromOne [domO true true, roO 1, roO 4, roO 4, woO 1, roO 1, roO 32])
  else if idx = 0x303F then
    -- the identity image's slot refuses writes (R462)
    some (7, fromOne [domO true false, roO 1, roO 4, roO 4, some ⟨some 1, false, false, false, false⟩, roO 1, roO 32])
  else if inRange 0x6000 16 idx then
    some (0x14, fun k => if 1 ≤ k ∧ k ≤ 3 then txO 8 else if 4 ≤ k ∧ k ≤ 0x14 then txO 4 else none)
  else if inRange 0x7000 16 idx then some (9, fun k => if k = 1 then rxO 2 else if 2 ≤ k ∧ k ≤ 9 then rxO 4 else none)
  else none

/-- The record at an index. -/
def odRecord (idx : Nat) : Option (Nat × (Nat → Option OdInfo)) :=
  (odComm idx).orElse fun _ => (odChan idx).orElse fun _ => (odBeds idx).orElse fun _ => (odIo idx).orElse fun _ => odRest idx

/-- Whether an index holds an object. -/
def odExists (idx : Nat) : Bool := (odVar idx).isSome || (odRecord idx).isSome

/-- A subindex; subindex 00 of a record is its highest subindex, or its count in maps and assignments (R456). -/
def odInfo (idx sub : Nat) : Option OdInfo :=
  match odVar idx, odRecord idx with
  | some i, _ => if sub = 0 then some i else none
  | none, some (_, f) => if sub = 0 then (if isMap idx then rwO 1 else roO 1) else f sub
  | none, none => none

/-! ### Field-only and safety objects -/

/-- The field-only set (R26). -/
def fieldOnly (idx : Nat) : Bool :=
  decide (idx = 0x2000) || inRange 0x2100 16 idx || decide (idx = 0x2200) || decide (idx = 0x2240) || inRange 0x2400 64 idx
    || inRange 0x2480 8 idx || decide (idx = 0x2500) || decide (idx = 0x2600)

/-- The safety objects (R385). -/
def safetyObj (idx : Nat) : Bool :=
  inRange 0x2100 16 idx || decide (idx = 0x2200) || inRange 0x2400 64 idx || inRange 0x2480 8 idx || decide (idx = 0x2500)
    || decide (idx = 0x2600)

/-- The recovery set that the host reaches in SAFE (R407). -/
def recoverySet (idx : Nat) : Bool :=
  decide (idx = 0x1000) || decide (idx = 0x1008) || decide (idx = 0x1009) || decide (idx = 0x1018) || decide (idx = 0x2010)
    || inRange 0x3000 64 idx

/-! ### Ranges that the tables state -/

/-- Whether a bit of a number above `n` bits is set. -/
def fits (n v : Nat) : Bool := decide (v < 2 ^ n)

/-- Whether a field of a register takes a value (R545). -/
def fieldTakes (f : Fld) (x : Nat) : Bool :=
  f.k.info.fields.all fun g => !(decide (g.hi = f.hi) && decide (g.lo = f.lo)) || (decide (g.rlo ≤ x ∧ x ≤ g.rhi) && !g.bad.contains x)

def between (a b v : Nat) : Bool := decide (a ≤ v) && decide (v ≤ b)

/-- The reserved consumer kind is refused (03_ingest.md, CXP_CHn_CONS); a 1 in a reserved bit is ignored (R8). -/
def consOk (v : Nat) : Bool := (List.range 4).all fun k => decide (bitsOf v (4 * k + 2) (4 * k + 1) ≠ 3)

/-- An address for a block of `n` bytes that R451 allows. -/
def blockOk (n v : Nat) : Bool := decide (v % 16 = 0) && between 0x20000000 (0x28000000 - n) v

/-- The PCI Express encoding of a completion timeout range (Device Control 2). -/
def timeoutCode (v : Nat) : Bool := [0, 1, 2, 5, 6, 9, 10, 13, 14].contains v

def rangeChan (sub v : Nat) : Bool :=
  match sub with
  | 0x01 => between 0 1 v
  | 0x03 => fieldTakes F.TIO_CH_CTRL_BSRC v && fits 2 v
  | 0x04 => between 0 7 v
  | 0x05 => fieldTakes F.TIO_CH_DIV v
  | 0x06 => fieldTakes F.TIO_CH_PERIOD v
  | 0x0A => fits 3 v
  | 0x0B => between 0 15 v || decide (v = 0xFF)
  | 0x0C => between 1 1048575 v
  | 0x0D => decide (v % 0x10000 = 0) && decide (v < 0x8000000)
  | 0x0E => decide (v % 0x10000 = 0) && between 0x10000 0x1000000 v
  | 0x0F => between 0 1 v
  | 0x10 => between 0 1 v
  | 0x12 => between 0 1 v
  | 0x14 => between 10 65535 v
  | 0x17 => between 1090 1600 v
  | 0x18 => between 0 1 v
  | 0x19 => between 0 15 v || decide (v = 0xFF)
  | 0x1A => consOk v
  | 0x1E => blockOk 64 v
  | 0x1F => blockOk 32 v
  | _ => true

def range2600 (sub v : Nat) : Bool :=
  match sub with
  | 0x1 => between 64 255 v
  | 0x2 => between 1 1000 v
  | 0x3 => between 1 1000 v
  | 0x4 => between 1 1000 v
  | 0x6 => between 1 4294967295 v
  | 0x7 => between 10 10000000 v
  | 0x9 => timeoutCode v
  | _ => between 1 65535 v

/-- Whether a value is in the range that its table gives. -/
def odRange (idx sub v : Nat) : Bool :=
  if idx = 0x10F1 then between 1 15 v
  else if isMap idx && decide (sub = 0) then between 0 32 v
  else if idx = 0x1C12 then inRange 0x1600 16 v
  else if idx = 0x1C13 then inRange 0x1A00 17 v
  else if idx = 0x1C32 ∨ idx = 0x1C33 then (match sub with | 1 => between 0 2 v | 2 => between 100000 4294967295 v | _ => true)
  else if idx = 0x2000 then (if sub = 2 then between 1 5 v else between 0 1 v)
  else if inRange 0x2100 16 idx then rangeChan sub v
  else if idx = 0x2200 then (!v.testBit 0 || decide (bitsOf v 14 8 < 128))
  else if idx = 0x2240 then fits 9 v && (!v.testBit 8 || decide (sub ≤ 16))
  else if idx = 0x2300 then (match sub with | 1 => between 0 1 v | 2 => between 60 86400 v | 3 => between 1 1 v | _ => between 0 135 v)
  else if idx = 0x2310 then (if sub = 1 then between 0 135 v else between 1 2 v)
  else if idx = 0x2320 then between 1 2 v
  else if inRange 0x2400 64 idx then
    (match sub with
      | 1 => between 0 1 v | 3 => between 0 15 v | 4 => fits 4 v | 5 => fits 4 v && fieldTakes F.TIO_OUT_CTRL_SAFE (v % 4) | _ => true)
  else if inRange 0x2480 8 idx then (if sub = 1 then fits 4 v && fieldTakes F.TIO_ENC_CTRL_FILTER (v / 4) else between 1 65535 v)
  else if idx = 0x2500 then
    (match sub with | 1 => fits 4 v && fieldTakes F.TBS_CTRL_SRC (v % 4) | 2 => between 1 500 v | _ => true)
  else if idx = 0x2600 then range2600 sub v
  else if idx = 0x2700 then (if sub = 2 then between 1 2 v else between 1 4294967295 v)
  else if idx = 0x2800 then (if sub = 5 then between 1 3 v else true)
  else if idx = 0x2900 then between 1 1 v
  else if inRange 0x3000 64 idx then (if sub = 5 then between 1 3 v else true)
  else if inRange 0x7000 16 idx then (if sub = 1 then between 0 1 v else true)
  else true

end Sys2Proof.Machine
end

