-- ==== Sys2Proof/Machine/OdRead.lean ====
section
/-!
DEFINITION. Sys2Proof/Machine/OdRead.lean: what an object of the dictionary reads (16_object_dictionary.md, 15_trust.md).
-/
namespace Sys2Proof.Machine

/-- Text as bytes. -/
def textBytes (t : String) : List Byte := t.toList.map fun c => BitVec.ofNat 8 c.toNat

/-- The order code as it is written, and its product code (0x1008, 0x1018:02). -/
def codeText : OrderCode → String
  | .ug6128 => "UG6128-H" | .ug6096 => "UG6096-H" | .ug6064 => "UG6064-H"
def productCode : OrderCode → Nat
  | .ug6128 => 0x00061280 | .ug6096 => 0x00060960 | .ug6064 => 0x00060640

/-! ### Device state and errors -/

/-- A link of a camera of a channel in RUN is down (R455). -/
def State.linkLost (s : State) : Bool :=
  (List.range 32).any fun k =>
    s.flag F.CXP_CAM_CTRL_EN k && (s.chan (s.fld F.CXP_CAM_CTRL_CHAN k)).st == .run && !s.camUp k

/-- 0x1001: the causes still present (R455, DEDUCED, notes/assumptions/82.md). -/
def State.errorReg (s : State) : Nat :=
  let b0 := s.flag F.VOT_STAT_NOMAJ || (List.range 12).any (fun c => s.flag F.DDR_CH_STAT_OFFLINE c) || s.flag F.STH_STAT_TESTFAIL
  let b3 := s.flag F.GAU_STAT_BELOWREQ || s.flag F.GAU_STAT_NOLAT
  let b4 := decide (0 < s.ect.syncMiss) && decide (s.odv 0x10F1 2 ≤ s.ect.syncMiss)
  let b7 := s.linkLost || s.flag F.VOT_STAT_RESYNC || s.flag F.VOT_STAT_DEGRADED
  b2n (b0 || b3 || b4 || b7) + 8 * b2n b3 + 16 * b2n b4 + 128 * b2n b7

/-- 0x2000:04. -/
def State.complexMode (s : State) : Nat := if !s.voted then 1 else if s.flag F.VOT_STAT_DEGRADED then 2 else 0

/-- 0x2010:05: channels in service that have ended their fill (R408). -/
def State.ddrMask (s : State) : Nat :=
  s.ddrChans.foldl (fun m c => if s.flag F.DDR_CH_STAT_ONLINE c && !s.flag F.DDR_CH_STAT_LOST c then m + 2 ^ c else m) 0

def State.readDevice (s : State) (idx sub : Nat) : Nat :=
  match idx, sub with
  | 0x1001, _ => s.errorReg
  | 0x1018, 1 => 0x5B7
  | 0x1018, 2 => productCode Config.orderCode
  | 0x1018, 3 => Config.romRel.toNat * 65536 + Config.versionMajor s.cast.version % 65536
  | 0x1018, 4 => Config.serial.toNat % 2 ^ 32
  | 0x2000, 1 => s.devState
  | 0x2000, 4 => s.complexMode
  | 0x2000, 5 => s.fld F.TIO_ARM_ARMED
  | 0x2000, 8 => s.fld F.TMO_RCAUSE_LEVEL
  | 0x2010, 1 => s.fld F.TMO_CASTON_CODE
  | 0x2010, 2 => s.fld F.TMO_CASTON_STAGE
  | 0x2010, 3 => s.fld F.TMO_CASTON_RETRY
  | 0x2010, 4 => s.cast.flags ||| (if s.ddrReady then 16 else 0)
  | 0x2010, 5 => s.ddrMask
  | 0x2010, 6 => s.cast.retired
  | 0x2010, 7 => s.cast.ms
  | _, _ => s.odv idx sub

/-! ### Channels -/

def chanCode : ChanState → Nat
  | .idle => 0 | .run => 1 | .bindoff => 2

/-- 0x2100 + n. -/
def State.readChanObj (s : State) (n sub : Nat) : Nat :=
  match sub with
  | 0x03 => s.fld F.TIO_CH_CTRL_BSRC n
  | 0x04 => s.fld F.TIO_CH_CTRL_ENC n
  | 0x05 => s.fld F.TIO_CH_DIV n
  | 0x06 => s.fld F.TIO_CH_PERIOD n
  | 0x07 => s.fld F.TIO_CH_SCALE n
  | 0x08 => s.fld F.TIO_CH_PITCH n
  | 0x09 => s.pair F.TIO_CH_OFFSET_LO F.TIO_CH_OFFSET_HI n
  | 0x0A => s.fld F.TIO_CH_CTRL_ENCVALID n + 2 * s.fld F.TIO_CH_CTRL_REVHOLD n + 4 * s.fld F.TIO_CH_CTRL_TRIGEN n
  | 0x0B => if s.flag F.TIO_CH_CTRL_LOCKEN n then s.fld F.TIO_CH_CTRL_LEADER n else 0xFF
  | 0x0C => s.fld F.CXP_CH_WALES n
  | 0x0D => s.fld F.CXP_CH_RING_BASE n * 65536
  | 0x0E => s.fld F.CXP_CH_RING_SIZE n * 65536
  | 0x0F => s.fld F.CXP_CH_ICTRL_SPEC n
  | 0x10 => s.fld F.CXP_CH_ICTRL_PARTPOL n
  | 0x11 => s.fld F.CXP_CH_ICTRL_FILL n
  | 0x12 => s.fld F.CXP_CH_ICTRL_UMARKEN n
  | 0x14 => s.fld F.CXP_CH_CWD n
  | 0x1A => s.consBits n
  | 0x1C => if s.locked n then (s.members n).foldl (fun m k => m ||| 2 ^ k) 0 else 0
  | _ => s.odv (0x2100 + n) sub

/-- 0x2110 + n; the speed may rest on an open value (R50). -/
def State.readChanStat (s : State) (n sub : Nat) : Nat × State :=
  let c := s.ich n
  let p := fun (v : Nat) => (v, s)
  match sub with
  | 0x01 => p (chanCode (s.chan n).st)
  | 0x02 => p (s.chan n).row.toNat
  | 0x03 => p (encForm (s.webNow n)).toNat
  | 0x04 => let (v, s) := s.webSpeed n; ((BitVec.ofInt 32 v).toNat, s)
  | 0x05 => p (s.readReg .firmware ⟨.CXP_CH_ISTAT, n, 0⟩).toNat
  | 0x06 => p c.dropped
  | 0x07 => p c.partials
  | 0x08 => p (match c.lastDrop with | some d => d.1 | none => 0)
  | 0x09 => p (match c.lastDrop with | some d => d.2 | none => 0)
  | 0x0A => p (s.fld F.CXP_CH_NSLOTS n)
  | _ => p c.completed

/-- 0x6000 + n: the last completed row, and the result words copied at the latch. -/
def State.readProfile (s : State) (n sub : Nat) : Nat :=
  let of_ := fun (f : Marker → Nat) => match (s.ich n).last with | some m => f m | none => 0
  match sub with
  | 1 => of_ fun m => m.row.toNat
  | 2 => of_ fun m => m.time.toNat
  | 3 => of_ fun m => m.webpos.toNat
  | 4 => of_ fun m => m.flags.toNat
  | _ => s.odv (0x6000 + n) sub

/-! ### Beds, gauge, repair -/

/-- The entry of a physical bed (R460). -/
def State.bedEntry (s : State) (b : Nat) : Nat :=
  s.fld F.BED_CTRL_EN b + 2 * s.fld F.BED_CTRL_STANDBY b + 4 * s.fld F.BED_CTRL_SET b + 256 * s.fld F.BED_CTRL_LPOS b
    + 32768 * s.fld F.BED_STAT_RETIRED b

/-- The entry of a queue (0x2240). -/
def State.plqEntry (s : State) (q : Nat) : Nat :=
  s.fld F.PLQ_BIND_SET q + 64 * s.fld F.PLQ_BIND_BOUND q + 128 * s.fld F.PLQ_CTRL_OWNER q
    + 256 * (if q < 16 then s.fld F.PLQ_CTRL_PINEN q else 0)

/-- Whether a bed is a free spare (0x2320:01). -/
def State.isSpare (s : State) (b : Nat) : Bool :=
  !s.flag F.BED_CTRL_EN b && !s.flag F.BED_STAT_RETIRED b && !s.flag F.BED_STAT_FENCED b && !(s.bed b).swapped
    && s.gau.bed != some b && !(s.gau.take.any fun t => t.1 == b)

def countOf (n : Nat) (p : Nat → Bool) : Nat := ((List.range n).filter p).length

def State.readGauge (s : State) (idx sub : Nat) : Nat :=
  match idx, sub with
  | 0x2300, 1 => s.fld F.GAU_CTRL_EN
  | 0x2300, 2 => s.fld F.GAU_INTERVAL
  | 0x2300, 6 => countOf 136 fun b => (s.fld F.GAU_RETIRE (b / 32)).testBit (b % 32)
  | 0x2300, 7 => (List.range 64).foldl (fun m n => if s.noStandby n then m + 2 ^ n else m) 0
  | 0x2300, 8 => (BitVec.ofInt 16 s.pwr.hottest).toNat
  | 0x2310, 3 => s.limitNow (s.odv 0x2310 1)
  | 0x2310, 6 => 320
  | 0x2320, 1 => countOf 136 s.isSpare
  | 0x2320, 2 => (List.range 136).foldl (fun a b => a + b2n (decide (s.fld F.RPR_NEED_PNA b ≠ 0x3F)) + b2n (decide (s.fld F.RPR_NEED_PNB b ≠ 0x3F))) 0
  | 0x2320, 3 => (List.range 64).foldl (fun a n => a + b2n (decide (s.fld F.RPR_SLICE_PB0 n ≠ 0x7F)) + b2n (decide (s.fld F.RPR_SLICE_PB1 n ≠ 0x7F))) 0
  | 0x2320, 4 => s.fld F.RPR_STAT_APPLIED
  | _, _ => s.odv idx sub

/-- 0x2200 and 0x2240. -/
def State.readBeds (s : State) (idx sub : Nat) : Nat :=
  if idx = 0x2200 then
    (if 1 ≤ sub ∧ sub ≤ 0x88 then s.bedEntry (sub - 1) else if sub = 0x8A then bedLimit else s.odv idx sub)
  else if 1 ≤ sub ∧ sub ≤ 0x40 then s.plqEntry (sub - 1)
  else s.odv idx sub

/-! ### Outputs, encoders, time base -/

def State.readOut (s : State) (o sub : Nat) : Nat :=
  match sub with
  | 1 => s.fld F.TIO_OUT_CTRL_EN o
  | 3 => s.fld F.TIO_OUT_CTRL_CHAN o
  | 4 => s.fld F.TIO_OUT_CTRL_LPOL o + 2 * s.fld F.TIO_OUT_CTRL_HPOL o + 4 * s.fld F.TIO_OUT_CTRL_BODROP o
      + 8 * s.fld F.TIO_OUT_CTRL_BOKEEPT o
  | 5 => s.fld F.TIO_OUT_CTRL_SAFE o + 4 * s.fld F.TIO_OUT_CTRL_POL o + 8 * s.fld F.TIO_OUT_CTRL_OD o
  | 6 => s.fld F.TIO_OUT_STATION o
  | 7 => s.fld F.TIO_OUT_SKEW o
  | 8 => b2n (s.pinSensed o)
  | 9 => (s.out o).q.length
  | _ => s.odv (0x2400 + o) sub

def State.readEnc (s : State) (e sub : Nat) : Nat :=
  match sub with
  | 1 => s.fld F.TIO_ENC_CTRL_EN e + 2 * s.fld F.TIO_ENC_CTRL_DIRINV e + 4 * s.fld F.TIO_ENC_CTRL_FILTER e
  | 2 => s.fld F.TIO_ENC_CTRL_STALL e
  | 3 => (encForm (s.encPos e)).toNat
  | 4 => s.encCountsPerSec e
  | 5 => (s.reg ⟨.TIO_ENC_STAT, e, 0⟩).toNat % 16
  | _ => s.odv (0x2480 + e) sub

def State.readTb (s : State) (sub : Nat) : Nat :=
  match sub with
  | 1 => (s.reg ⟨.TBS_CTRL, 0, 0⟩).toNat % 16
  | 2 => s.fld F.TBS_SLEW
  | 3 => s.fld F.TBS_STEP_THR
  | 4 => s.now
  | 5 => (s.reg ⟨.TBS_STAT, 0, 0⟩).toNat % 32
  | 6 => s.fld F.TBS_OFFSET
  | _ => 0

/-! ### Timeouts, power, trust -/

/-- The register field behind a subindex of 0x2600; where one stands for many units, that of unit 0. -/
def timeoutFld : Nat → Option Fld
  | 0x1 => some F.STH_ARB_TO
  | 0x2 => some F.TMO_BEDREQ
  | 0x3 => some F.TMO_DRAIN
  | 0x4 => some F.TMO_CBUS
  | 0x5 => some F.DDR_CH_TO
  | 0x6 => some F.PLQ_WD
  | 0x7 => some F.TMO_BINDOFF
  | 0x8 => some F.TMO_TWD
  | 0xB => some F.KTH_TO_VER
  | 0xC => some F.KTH_TO_SIGN
  | 0xD => some F.KTH_TO_GEN
  | _ => none

def State.readTimeout (s : State) (sub : Nat) : Nat :=
  match timeoutFld sub with
  | some f => s.fld f
  | none => s.odv 0x2600 sub

def State.readPower (s : State) (sub : Nat) : Nat :=
  match sub with
  | 1 => s.fld F.PWR_STAT_SLEEP
  | 4 => s.fld F.PWR_PKG_0 / 10
  | 5 => s.fld F.PWR_PKG_16
  | 6 => countOf 136 fun b => s.flag F.BED_STAT_PWRGATED b
  | 7 => s.fld F.PWR_WSDLY
  | _ => s.odv 0x2700 sub

/-- 0x2800, but for what is longer than 8 bytes. -/
def State.readTrust (s : State) (sub : Nat) : Nat :=
  match sub with
  | 2 => s.bootN
  | 3 => s.leavesLeft
  | 0xB => s.slotBits
  | 0xC => Config.serial.toNat
  | _ => s.odv 0x2800 sub

/-! ### Program slots (R462) -/

/-- The identity image in the directory of the header in use (R437). -/
def State.identity (s : State) : List Byte :=
  match s.cast.used with
  | none => []
  | some h => match s.flashHdr h with
    | none => []
    | some f => match f.dir.find? fun e => e.typ == 5 && e.slot == 0x3F with
      | some e => s.flashBytes e.off e.len
      | none => []

/-- A program slot. -/
def State.slot (s : State) (k : Nat) : ProgSlot :=
  if k = 0x3F then
    let im := s.identity
    if im.isEmpty then default else ⟨im, 5, leAt im 8 4, 0, Config.sha256 im⟩
  else s.ect.slots.get k default

/-! ### All of it -/

/-- The value of a subindex that has a fixed length of at most 8 bytes. -/
def State.odNum (s : State) (idx sub : Nat) : Nat × State :=
  if sub = 0 ∧ (odVar idx).isNone ∧ !isMap idx then (match odRecord idx with | some r => (r.1, s) | none => (0, s))
  else if inRange 0x2100 16 idx then (s.readChanObj (idx - 0x2100) sub, s)
  else if inRange 0x2110 16 idx then s.readChanStat (idx - 0x2110) sub
  else if idx = 0x2200 ∨ idx = 0x2240 then (s.readBeds idx sub, s)
  else if inRange 0x2300 48 idx then (s.readGauge idx sub, s)
  else if inRange 0x2400 64 idx then (s.readOut (idx - 0x2400) sub, s)
  else if inRange 0x2480 8 idx then (s.readEnc (idx - 0x2480) sub, s)
  else if idx = 0x2500 then (s.readTb sub, s)
  else if idx = 0x2600 then (s.readTimeout sub, s)
  else if idx = 0x2700 then (s.readPower sub, s)
  else if idx = 0x2800 then (s.readTrust sub, s)
  else if idx = 0x2900 then (s.tallyValue sub, s)
  else if inRange 0x3000 64 idx then
    let x := s.slot (idx - 0x3000)
    ((match sub with | 2 => x.typ | 3 => x.version | 4 => x.image.length | 6 => x.status | _ => 0), s)
  else if inRange 0x6000 16 idx then (s.readProfile (idx - 0x6000) sub, s)
  else (s.readDevice idx sub, s)

/-- The bytes of a string, a DOMAIN or a long octet string; `none` for a number. -/
def State.odBytes (s : State) (idx sub : Nat) : Option (List Byte) :=
  if idx = 0x1008 then some (textBytes "Urgato " ++ textBytes (codeText Config.orderCode))
  else if idx = 0x1009 then some (textBytes (codeText Config.orderCode) ++ textBytes "/" ++ Config.siliconRev)
  else if idx = 0x100A then some (Config.versionText s.cast.version)
  else if inRange 0x2100 16 idx && decide (sub = 0x1B) then some (s.ect.camMap.get (idx - 0x2100) [])
  else if idx = 0x2310 ∧ sub = 2 then
    some ((List.range 16).flatMap fun k =>
      let b := s.odv 0x2310 1
      leBytes 2 (s.fld F.GAU_B_VF_0 b k) ++ leBytes 2 (s.fld F.GAU_B_VF_16 b k))
  else if idx = 0x2320 ∧ sub = 5 then some s.rprBytes
  else if idx = 0x2800 ∧ sub = 4 then some ((List.range 8).flatMap fun k => leBytes 4 (s.fld F.KTH_NONCE k))
  else if idx = 0x2800 ∧ sub = 8 then some s.kth.report
  else if idx = 0x2800 ∧ sub = 9 then some s.chalBytes
  else if inRange 0x3000 64 idx && decide (sub = 1) then some (s.slot (idx - 0x3000)).image
  else if inRange 0x3000 64 idx && decide (sub = 7) then some (leBytes 32 (s.slot (idx - 0x3000)).meas.toNat)
  else none

/-- What a subindex reads. -/
def State.odRead (s : State) (idx sub : Nat) : List Byte × State :=
  match s.odBytes idx sub with
  | some b => (b, s)
  | none =>
    let (v, s) := s.odNum idx sub
    (leBytes (((odInfo idx sub).bind OdInfo.len).getD 0) v, s)

end Sys2Proof.Machine
end

