-- ==== Sys2Proof/Machine/Web.lean ====
section
/-!
DEFINITION. Sys2Proof/Machine/Web.lean: the events of the time base, the encoders, the output scheduler and the capture inputs
(02_web_time.md). `dt` is the number of ticks since the command before (DESIGN CHOICE, notes/assumptions/7.md).
-/
namespace Sys2Proof.Machine

/-- Whether any channel is in RUN (R34, R36). -/
def State.anyRun (s : State) : Bool := s.web.chan.any fun e => e.2.st == .run

/-- The offset register holds signed 32-bit ns; an offset outside that range leaves an open value (R33). -/
def State.setOffset (s : State) (off : Int) : State :=
  if -(2 ^ 31 : Int) ≤ off ∧ off < 2 ^ 31 then s.setFld F.TBS_OFFSET (BitVec.ofInt 32 off).toNat
  else let (x, s) := s.fresh; s.setFld F.TBS_OFFSET x

/-- LOCKED takes a value; a change raises vector 163 (R346). -/
def State.setLocked (s : State) (v : Nat) : State :=
  if s.fld F.TBS_STAT_LOCKED = v then s else (s.setFld F.TBS_STAT_LOCKED v).raise 163

/-- One comparison of the time base with its source: `off` is source minus time base, `tol` and `need` are R33's. -/
def State.compareTb (s : State) (off : Int) (tol need : Nat) : State :=
  let s := s.setOffset off
  let s := if s.flag F.TBS_STAT_HOLDOVER && !s.tb.refLost then (s.setFld F.TBS_STAT_HOLDOVER 0).raise 163 else s
  let good := if off.natAbs ≤ tol then s.tb.good + 1 else 0
  let s := ({ s with tb := { s.tb with good := good } }).setLocked (b2n (decide (need ≤ good)))
  if s.fld F.TBS_CTRL_DISCEN = 0 then s
  else if !s.anyRun && decide (s.fld F.TBS_STEP_THR < off.natAbs) then
    ({ s with tb := { s.tb with time := s.tb.time + BitVec.ofInt 64 off, owed := 0 } }.setFld F.TBS_STAT_STEPPED 1).raise 163
  else { s with tb := { s.tb with owed := off } }

def execDcComparison (dt : Nat) (sys : DWord) (s : State) : Host.Outcome State Fault Refusal :=
  let s := s.advance dt
  .next (s.when (decide (s.fld F.TBS_CTRL_SRC = 1)) fun s => s.compareTb (sys.toInt - s.tb.time.toInt) 20 16)

def execPpsEdge (dt : Nat) (rising : Bool) (s : State) : Host.Outcome State Fault Refusal :=
  let s := s.advance dt
  .next (s.when (decide (s.fld F.TBS_CTRL_SRC = 2) && (rising != s.flag F.TBS_CTRL_PPSPOL)) fun s =>
    let r := s.now % 1000000000
    s.compareTb (if r < 500000000 then -(r : Int) else (1000000000 - r : Nat)) 50 4)

def execTbSourceLost (dt : Nat) (s : State) : Host.Outcome State Fault Refusal :=
  let s := s.advance dt
  .next (s.when (decide (s.fld F.TBS_CTRL_SRC = 1) || decide (s.fld F.TBS_CTRL_SRC = 2)) fun s =>
    (({ s with tb := { s.tb with good := 0 } }.setLocked 0).setFld F.TBS_STAT_HOLDOVER 1
      |>.setFld F.TBS_STAT_SRCLOST 1).raise 163)

/-- The levels of encoder `e` change and the decoder ignores it (R37, EN = 0). -/
def State.encLevels (s : State) (e : Nat) (a b : Bool) : State := s.setEnc e { s.enc e with a := a, b := b }

/-- R37: a transition of one phase counts by one, in the direction the phase order and DIR_INV give. -/
def State.encCount (s : State) (e : Nat) (a b : Bool) : State :=
  let x := s.enc e
  let aLeads := if a != x.a then a != b else a == b
  let down := (aLeads == Config.aLeadsDown) != s.flag F.TIO_ENC_CTRL_DIRINV e
  let same := decide (s.upstream e = !down)
  let fast := match x.edges with | t1 :: _ => decide (s.now < t1 + 20) | [] => false
  let s := s.setEnc e { x with
    a := a, b := b, count := if down then x.count + 1 else x.count - 1
    edges := if same then (s.now :: x.edges).take 17 else [s.now] }
  let s := (s.setFld F.TIO_ENC_STAT_DIR (b2n (!down)) e).setFld F.TIO_ENC_STAT_STOPPED 0 e
  let s := if fast then (s.setFld F.TIO_ENC_STAT_OVERSPEED 1 e).raise 164 else s
  let s := if down then s else { s with web := { s.web with
    chan := s.web.chan.map fun c => if s.encOf c.1 = e then (c.1, { c.2 with reversed := true }) else c } }
  s.reproject

/-- R37: both phases change together. -/
def State.encPhaseError (s : State) (e : Nat) (a b : Bool) : State :=
  (((s.encLevels e a b).bump F.TIO_ENC_STAT_PHASEERRS e).setFld F.TIO_ENC_STAT_PHASEERR 1 e).raise 164

def execEncoderTransition (dt : Nat) (e : Nat) (a b : Bool) (s : State) : Host.Outcome State Fault Refusal :=
  let s := s.advance dt
  .next (s.when (decide (e < 8)) fun s =>
    let x := s.enc e
    if !s.flag F.TIO_ENC_CTRL_EN e then s.encLevels e a b
    else if a != x.a && b != x.b then s.encPhaseError e a b
    else if a == x.a && b == x.b then s
    else s.encCount e a b)

def execEncoderStall (dt : Nat) (e : Nat) (s : State) : Host.Outcome State Fault Refusal :=
  let s := s.advance dt
  let due := match (s.enc e).edges with
    | t1 :: _ => decide (t1 + s.fld F.TIO_ENC_CTRL_STALL e * 1000 ≤ s.now)
    | [] => true
  .next (s.when (decide (e < 8) && s.flag F.TIO_ENC_CTRL_EN e && due) fun s =>
    (s.setFld F.TIO_ENC_STAT_STOPPED 1 e).reproject)

def execSchedulerScan (dt : Nat) (o : Nat) (s : State) : Host.Outcome State Fault Refusal :=
  .next ((s.advance dt).when (decide (o < 64)) fun s => s.loadEdge o)

def execOutputEventDue (dt : Nat) (o : Nat) (s : State) : Host.Outcome State Fault Refusal :=
  .next ((s.advance dt).when (decide (o < 64) && s.flag F.TIO_ARM_ARMED) fun s => s.performDue o .pos)

def execTimeEventDue (dt : Nat) (o : Nat) (s : State) : Host.Outcome State Fault Refusal :=
  .next ((s.advance dt).when (decide (o < 64) && s.flag F.TIO_ARM_ARMED) fun s => s.performDue o .time)

def execPulseEnd (dt : Nat) (o : Nat) (s : State) : Host.Outcome State Fault Refusal :=
  .next ((s.advance dt).when (decide (o < 64)) fun s =>
    let x := s.out o
    (s.setOut o { x with pulses := x.pulses.filter fun t => decide (s.uptime < t) }).drivePin o)

def execWindowEnd (dt : Nat) (o : Nat) (s : State) : Host.Outcome State Fault Refusal :=
  .next ((s.advance dt).when (decide (o < 64)) fun s =>
    let x := s.out o
    let w := s.webNow (s.fld F.TIO_OUT_CTRL_CHAN o)
    (s.setOut o { x with windows := x.windows.filter fun p => decide (w < p) }).drivePin o)

def execPinHoldEnd (dt : Nat) (o : Nat) (s : State) : Host.Outcome State Fault Refusal :=
  .next ((s.advance dt).when (decide (o < 64)) fun s =>
    match (s.out o).hold with
    | some t => if t ≤ s.uptime then (s.setOut o { s.out o with hold := none }).drivePin o else s
    | none => s)

def execCommitHorizon (dt : Nat) (o : Nat) (s : State) : Host.Outcome State Fault Refusal :=
  .next ((s.advance dt).when (decide (o < 64)) fun s => s.decideAll o)

def execOutputBindoffComplete (o : Nat) (s : State) : Host.Outcome State Fault Refusal :=
  let x := s.out o
  .next (s.when (decide (o < 64) && x.bindoff && x.q.isEmpty && x.pulses.isEmpty && x.windows.isEmpty) fun s =>
    s.endOutBindoff o)

def execOutputBindoffTimeout (o : Nat) (s : State) : Host.Outcome State Fault Refusal :=
  let x := s.out o
  .next (s.when (decide (o < 64) && x.bindoff) fun s =>
    (((s.bump F.TIO_OUT_CNT2_FLUSHED o x.q.length).bump F.TMO_CNT1_24).expiry.endOutBindoff o))

def execCaptureEdge (dt : Nat) (n : Nat) (rising : Bool) (s : State) : Host.Outcome State Fault Refusal :=
  let s := s.advance dt
  let edge := s.fld F.TIO_CAP_CTRL_EDGE n
  let chosen := decide (edge = 2) || (rising && decide (edge = 0)) || (!rising && decide (edge = 1))
  .next (s.when (decide (n < 16) && s.flag F.TIO_CAP_CTRL_EN n && chosen) fun s =>
    let c := s.fld F.TIO_CAP_CTRL_CHAN n
    let q := s.cap n
    if 8 ≤ q.length then s.bump F.TIO_CAP_STAT_LOST n
    else (s.setCap n (q ++ [⟨s.tb.time, (s.chan c).row, encForm (s.encPos (s.encOf c))⟩])).raise 162)

end Sys2Proof.Machine
end

