-- ==== Sys2Proof/Machine/RegWrite.lean ====
section
/-!
DEFINITION. Sys2Proof/Machine/RegWrite.lean: what a write of a register does: the permission it needs, the fields it changes, the
LO/HI pair, and the action its block takes (R8, R339, R545, R547 and the register tables), and the host's write set (R471).
-/
namespace Sys2Proof

/-- The block whose range holds an address of the control window (R465). -/
def Block.ofAddr (a : Nat) : Option Block :=
  if 0x10100000 ≤ a ∧ a < 0x10200000 then some .PCI
  else if 0x10800000 ≤ a ∧ a < 0x11000000 then some .PLQ
  else
    [Block.MTX, .TMO, .PWR, .GAU, .RPR, .TBS, .TIO, .STH, .DDR, .CXP, .HKC, .VOT, .KTH, .ECT, .BED].find? fun b =>
      decide (b.base ≤ a ∧ a < b.base + 0x10000)

namespace Machine

/-! ### Permissions (R335, R339) -/

/-- A write sets ARM_REQ and not DISARM (R70). -/
def armWrite (r : Reg) (v : Word) : Bool := decide (r.kind = .TIO_ARM) && decide (bitsOf v.toNat 2 1 = 1)

/-- The permission that a store to an address of the control window needs beside Store (R339). -/
def needOf (a : Nat) : Nat :=
  match Block.ofAddr a with
  | some .PLQ => pStream
  | some .CXP => pIngest
  | some .KTH => pKey
  | _ => pSystem

/-- A write changes a field that its table reserves to System (R30, R109; DEDUCED, notes/assumptions/22.md). -/
def State.sysField (s : State) (r : Reg) (v : Word) : Bool :=
  match r.kind with
  | .PLQ_CTRL => decide (bitsOf v.toNat 1 1 ≠ s.fld F.PLQ_CTRL_OWNER r.i)
  | .CXP_MBX_CMD => decide (bitsOf v.toNat 0 0 ≠ s.fld F.CXP_MBX_CMD_OWNER r.i)
  | _ => false

/-- R339, R335: the CODE and DETAIL of the capability fault that a store of a word through permissions `p` raises; `none` where the
store is allowed. -/
def State.regDenied (s : State) (p : BitVec 13) (a : Nat) (v : Word) : Option (Nat × Nat) :=
  let has := fun (k : Nat) => p.toNat.testBit k
  let r := Reg.ofAddr a
  if !has pStore then some (3, pStore)
  else if (match r with | some r => armWrite r v | none => false) then
    (if !has pArm then some (3, pArm) else if !s.voted then some (9, 0) else none)
  else if !has (needOf a) then some (3, needOf a)
  else if (match r with | some r => s.sysField r v | none => false) && !has pSystem then some (3, pSystem)
  else none

/-- A writer that carries System. -/
def Who.isSystem : Who → Bool
  | .hook _ _ p => p.toNat.testBit pSystem
  | .host _ => false
  | _ => true

/-! ### Fields (R8, R545) -/

/-- A power of two. -/
def isPow2 (n : Nat) : Bool := (List.range 33).any fun k => decide (n = 2 ^ k)

/-- Whether a field's condition of writing holds for a value (R545). -/
def State.wcond (s : State) (who : Who) (r : Reg) (x : Nat) : WCond → Bool
  | .always => true
  | .chIdle => (s.chan r.i).st == .idle
  | .camIdle => (s.chan (s.fld F.CXP_CAM_CTRL_CHAN r.i)).st == .idle
  | .outNotBindoff => !(s.out r.i).bindoff
  | .system => Who.isSystem who
  | .plqIdle => (s.plq r.i).older.isNone && (s.plq r.i).younger.isNone
  | .pinDisabled => !s.flag F.PLQ_CTRL_PINEN r.i
  | .pinQueue => decide (r.i < 16)
  | .setOnly => decide (x = 1)
  | .preDone => !s.flag F.TMO_CASTON_DONE
  | .bootRom => decide (who = .bootRom) && !s.flag F.MTX_REMAP_REMAP
  | .pow2 => isPow2 x

/-- A register's word after one field of a write. -/
def State.putField (s : State) (who : Who) (r : Reg) (v old : Nat) (f : Field) : Nat :=
  let x := bitsOf v f.hi f.lo
  match f.acc with
  | .rw => if f.rlo ≤ x ∧ x ≤ f.rhi ∧ !f.bad.contains x ∧ s.wcond who r x f.cond then putBits old f.hi f.lo x else old
  | .w1c => old - (old &&& (x * 2 ^ f.lo))
  | _ => old

/-- A register's word after a write: reserved, read-only and write-only fields keep their bits (R8). -/
def State.putWord (s : State) (who : Who) (r : Reg) (v : Word) : Word :=
  BitVec.ofNat 32 (r.kind.info.fields.foldl (fun old f => s.putField who r v.toNat old f) (s.reg r).toNat)

/-- A register's stored word with 0 in every field whose writing acts or clears: what a party writes back beside the field it means. -/
def State.restWord (s : State) (r : Reg) : Nat :=
  r.kind.info.fields.foldl (fun w f => if f.acc = .w ∨ f.acc = .w1c then putBits w f.hi f.lo 0 else w) (s.reg r).toNat

/-- Store the fields of a write. -/
def State.putReg (s : State) (who : Who) (r : Reg) (v : Word) : State := s.setReg r (s.putWord who r v)

/-- A bit of a write. -/
def setBit (v : Word) (k : Nat) : Bool := v.toNat.testBit k

/-! ### Actions of the blocks -/

/-- R36: TBS_SET sets the time base; it is ignored while a channel is in RUN. -/
def State.tbsSet (s : State) (v : Nat) : State :=
  if s.anyRun then (s.setFld F.TBS_STAT_SETREFUSED 1).raise 163
  else { s with tb := { s.tb with time := BitVec.ofNat 64 v, owed := 0 } }

/-- TIO_ARM: DISARM, else ARM_REQ (R70, R71). -/
def State.writeArm (s : State) (v : Word) : State :=
  if setBit v 2 then s.disarm else if setBit v 1 then s.armReq else s

/-- TIO_ENCn_CTRL: when EN becomes 1 the decoder starts from the present levels, as after a stall (R37). -/
def State.writeEnc (s : State) (who : Who) (r : Reg) (v : Word) : State :=
  let was := s.flag F.TIO_ENC_CTRL_EN r.i
  let s := s.putReg who r v
  if !was && s.flag F.TIO_ENC_CTRL_EN r.i then
    ((s.setEnc r.i { s.enc r.i with edges := [] }).setFld F.TIO_ENC_STAT_STOPPED 1 r.i).reproject
  else s

/-- TIO_CHn_CTRL: a channel that joins a lock group takes the leader's row counter (R47). -/
def State.writeChan (s : State) (who : Who) (r : Reg) (v : Word) : State :=
  let old := if s.locked r.i then some (s.fld F.TIO_CH_CTRL_LEADER r.i) else none
  let s := s.putReg who r v
  let l := s.fld F.TIO_CH_CTRL_LEADER r.i
  let s := if s.locked r.i && old != some l then s.setChan r.i { s.chan r.i with row := (s.chan l).row } else s
  s.reproject

/-- TIO_OUTo_CTRL: EN = 0 starts the bind-off (R73); SAFE, POL and OD act at once. -/
def State.writeOut (s : State) (who : Who) (r : Reg) (v : Word) : State :=
  let was := s.flag F.TIO_OUT_CTRL_EN r.i
  let s := s.putReg who r v
  let s := if was && !s.flag F.TIO_OUT_CTRL_EN r.i then s.startOutBindoff r.i else s
  s.drivePin r.i

/-- The writer of an event window: its core, thread and level (R76). Writers that are no hook thread count as one. -/
def State.evinWho (s : State) : Who → Nat × Nat × Nat
  | .hook c t _ => (c, t, (s.th c t).lvl)
  | _ => (3, 0, 0)

/-- CXP_LNKn_CTRL: a link that is disabled is down (DEDUCED, notes/assumptions/23.md). -/
def State.writeLink (s : State) (who : Who) (r : Reg) (v : Word) : State :=
  let was := s.flag F.CXP_LNK_CTRL_EN r.i
  let s := s.putReg who r v
  if was && !s.flag F.CXP_LNK_CTRL_EN r.i then (s.linkDown r.i).setFld F.CXP_LNK_STAT_LOCK 0 r.i else s

/-- CXP_CHn_ICTRL: EN = 0 starts ingest's bind-off (R108); EN = 1 lets a channel in RUN accept rows. -/
def State.writeIctrl (s : State) (who : Who) (r : Reg) (v : Word) : State :=
  let was := s.flag F.CXP_CH_ICTRL_EN r.i
  let s := s.putReg who r v
  let now := s.flag F.CXP_CH_ICTRL_EN r.i
  if was && !now then s.startIngestBindoff r.i
  else if !was && now && (s.chan r.i).st == .run && !s.flag F.CXP_CH_ISTAT_BINDOFF r.i then s.setFld F.CXP_CH_ISTAT_RUN 1 r.i
  else s

/-- CXP_MBXk_CMD: GO sends the request; the whole write is ignored while one is outstanding (R110). -/
def State.writeMbx (s : State) (who : Who) (r : Reg) (v : Word) : State :=
  if setBit v 31 then
    (if s.flag F.CXP_MBX_STAT_BUSY r.i then s.setFld F.CXP_MBX_STAT_REFUSED 1 r.i else (s.putReg who r v).mailboxGo r.i)
  else s.putReg who r v

/-- Beds that hold a logical position (R2). -/
def State.positions (s : State) : Nat :=
  ((List.range 136).filter fun b => s.flag F.BED_CTRL_EN b && !s.flag F.BED_CTRL_STANDBY b).length

/-- What BED_b_CTRL's fields come to: a bed woken on being enabled, gated when it leaves its set (R483). -/
def State.bedCtrl (s : State) (b : Nat) (was : Bool) : State :=
  let now := s.flag F.BED_CTRL_EN b
  let s := if !was && now then (s.powerBed b).setFld F.BED_STAT_CLKGATED 0 b
    else if was && !now then
      ((s.setFld F.BED_STAT_PWRGATED 1 b).setFld F.BED_STAT_CLKGATED 0 b).setBed b { s.bed b with patched := false }
    else s
  s.retune

/-- BED_b_CTRL: a write that would take a position beyond the limit leaves EN or STANDBY and sets ENREF (R140); RESET resets the
bed (R513). -/
def State.writeBed (s : State) (who : Who) (r : Reg) (v : Word) : State :=
  let b := r.i
  let was := s.flag F.BED_CTRL_EN b
  let held := was && !s.flag F.BED_CTRL_STANDBY b
  let s := if setBit v 0 && !setBit v 1 && !held && decide (bedLimit ≤ s.positions) then
      let old := (s.reg r).toNat % 4
      (s.putReg who r (BitVec.ofNat 32 (v.toNat / 4 * 4 + old))).setFld F.BED_STAT_ENREF 1 b
    else s.putReg who r v
  let s := s.bedCtrl b was
  if setBit v 16 then s.bedReset b else s

/-- R146, R240, R141: the word at 0x3C enqueues the entry of the window. -/
def State.submit (s : State) (q : Nat) : State :=
  let x := s.plq q
  let e := entryOf x.win x.winTag
  if !s.flag F.PLQ_CTRL_EN q || s.qBindoff q || decide (16 ≤ x.wait.length) then
    (s.setFld F.PLQ_STAT_SUBREFUSED 1 q).bump F.PLQ_CNT_0 q
  else if (match s.setOf q with | some n => (s.setBeds n).isEmpty | none => true) then s.postRefused q e 20 0 0
  else s.setPlq q { x with wait := x.wait ++ [e] }

/-- A tag pair after a word of the window is written: words 0 to 3 hold PROG, 4 to 7 SKT (R147). -/
def untagWord (t : Bool × Bool) (j : Nat) : Bool × Bool :=
  if j < 4 then (false, t.2) else if j < 8 then (t.1, false) else t

/-- PLQ_q_SUB, word `j`. -/
def State.writeSub (s : State) (q j : Nat) (v : Word) : State :=
  let x := s.plq q
  let s := s.setPlq q { x with win := x.win.set (4 * j) v, winTag := untagWord x.winTag j }
  if j = 15 then s.submit q else s

/-- PLQ_q_PIN, written while PIN_EN = 0. -/
def State.writePin (s : State) (who : Who) (r : Reg) (v : Word) : State :=
  if s.flag F.PLQ_CTRL_PINEN r.i then s
  else let x := s.plq r.i; (s.setPlq r.i { x with pinTag := untagWord x.pinTag r.j }).putReg who r v

/-- PLQ_q_CTRL: EN = 0, or a change of owner, starts the bind-off (R30, R240). -/
def State.writePlq (s : State) (who : Who) (r : Reg) (v : Word) : State :=
  let q := r.i
  let en := s.flag F.PLQ_CTRL_EN q
  let owner := s.fld F.PLQ_CTRL_OWNER q
  let t := s.putReg who r v
  let stop := en && !t.flag F.PLQ_CTRL_EN q
  let own := t.fld F.PLQ_CTRL_OWNER q
  let t := (t.setFld F.PLQ_CTRL_OWNER owner q).setFld F.PLQ_CTRL_EN (if stop then 1 else t.fld F.PLQ_CTRL_EN q) q
  let t := if own ≠ owner then t.setPlq q { t.plq q with newOwner := some (decide (own = 1)) } else t
  if stop || decide (own ≠ owner) then t.startQBindoff q else t.pinTry q

/-- PLQ_q_BIND: RAISE, and a change of the bed set through a bind-off of an enabled queue (R142, R240). -/
def State.writeBind (s : State) (who : Who) (r : Reg) (v : Word) : State :=
  let q := r.i
  let old := s.fld F.PLQ_BIND_SET q + 64 * s.fld F.PLQ_BIND_BOUND q
  let t := s.putReg who r v
  let new := t.fld F.PLQ_BIND_SET q + 64 * t.fld F.PLQ_BIND_BOUND q
  let t := if setBit v 15 then t.raiseEpoch q else t
  if new = old ∨ !s.flag F.PLQ_CTRL_EN q then t
  else
    let t := (t.setFld F.PLQ_BIND_SET (old % 64) q).setFld F.PLQ_BIND_BOUND (old / 64) q
    (t.setPlq q { t.plq q with newBind := some new }).startQBindoff q

/-- PLQ_q_CMD (R150). -/
def State.writePlqCmd (s : State) (q : Nat) (v : Word) : State :=
  if setBit v 1 then s.abort q else if setBit v 0 then s.resume q else s

/-- PLQ_q_MIG: GO starts the migration of LPOS to NEWBED (R235). -/
def State.writeMig (s : State) (who : Who) (r : Reg) (v : Word) : State :=
  let s := s.putReg who r v
  if setBit v 31 then s.migrate r.i (s.fld F.PLQ_MIG_LPOS r.i) (some (s.fld F.PLQ_MIG_NEWBED r.i)) false else s

/-- HKC_SWI: a vector from 64 on becomes pending on this copy's core (R297). -/
def State.writeSwi (s : State) (c : Nat) (v : Word) : State :=
  let n := v.toNat % 256
  if 64 ≤ n then s.setFld F.HKC_IRQ_CFG_PEND 1 c n else s

/-- R278, R340: a stopped thread starts at vector 0, level 0, with PCAP at VTAB's current value. -/
def State.runThread (s : State) (c t : Nat) : State :=
  if (s.th c t).st = .stopped then
    s.updTh c t fun x => { x with st := .running, pcap := x.vtab, started := s.uptime, kicked := s.uptime, waits := 0 }
  else s

/-- HKC_Tt_CTRL: TRESET resets the thread (R514), RUN starts a stopped one. -/
def State.writeTctrl (s : State) (c t : Nat) (v : Word) : State :=
  if setBit v 1 then s.updTh c t fun x => { x with st := .inReset }
  else if setBit v 0 then s.runThread c t else s

/-- HKC_Tt_STAT: LLHALT clears with its halt record (R356). -/
def State.writeTstat (s : State) (r : Reg) (v : Word) : State :=
  if setBit v 4 then
    let s := s.setFld F.HKC_T_STAT_LLHALT 0 r.i r.j
    ((s.setReg ⟨.HKC_T_HALT, r.i, r.j⟩ 0).setReg ⟨.HKC_T_HALTA_LO, r.i, r.j⟩ 0).setReg ⟨.HKC_T_HALTA_HI, r.i, r.j⟩ 0
  else s

/-- VOT_STEST.GO: the 18 cases run; which fails first is open (R383). -/
def State.writeStest (s : State) (v : Word) : State :=
  if setBit v 0 then
    let (x, s) := s.fresh
    s.selfTest (if x % 19 = 18 then none else some (x % 19))
  else s

/-- KTH_CMD: GO starts OP; the whole write is ignored while an operation is in progress (R419). -/
def State.writeKth (s : State) (who : Who) (r : Reg) (v : Word) : State :=
  if setBit v 31 then
    (if s.flag F.KTH_STAT_BUSY then s.setFld F.KTH_STAT_REFUSED 1
     else let s := s.putReg who r v; s.kthGo (s.fld F.KTH_CMD_OP))
  else s.putReg who r v

/-- PCI_DMB_CMD: GO submits the request to firmware (vector 185); the whole write is ignored while one is outstanding (R452). -/
def State.writeDmb (s : State) (who : Who) (r : Reg) (v : Word) : State :=
  if setBit v 31 then
    (if s.flag F.PCI_DMB_STAT_BUSY then s.setFld F.PCI_DMB_STAT_REFUSED 1
     else (((s.putReg who r v).setFld F.PCI_DMB_STAT_BUSY 1).setFld F.PCI_DMB_STAT_DONE 0).raise 185)
  else s.putReg who r v

/-- A DMA channel has a descriptor to process (R476). -/
def State.dmaActive (s : State) (c : Nat) : Bool :=
  s.flag F.PCI_DMA_CTRL_EN c && !s.flag F.PCI_DMA_STAT_1 c && decide (s.fld F.PCI_DMA_TAIL c ≠ s.fld F.PCI_DMA_HEAD c)

/-- R475: a fence starts: every cached entry is dropped; a descriptor in progress may have resolved its handle before. -/
def State.fenceGo (s : State) (v : Word) : State :=
  if setBit v 31 then
    { s.setFld F.PCI_HFENCE_0 0 with
      hcache := []
      host := { s.host with busy := (List.range 8).filter s.dmaActive, old := s.host.old ++ s.hcache } }
  else s

/-- R473: a word of a function's MSI-X table; unmasking a vector with its pending bit signals it. -/
def State.writeMsix (s : State) (fn w : Nat) (v : Word) : State :=
  let s := { s with host := { s.host with msix := s.host.msix.set (fn * 8192 + w) v } }
  let k := fn * 2048 + w / 4
  if w % 4 = 3 ∧ s.host.pba.contains k ∧ s.msixOpen fn (w / 4) then
    { s with host := { s.host with pba := setDel s.host.pba k } }.msix fn (w / 4)
  else s

/-- PWR_CTRL: STBY and WAKE (R484, R486). -/
def State.writePwr (s : State) (who : Who) (r : Reg) (v : Word) : State :=
  let s := s.putReg who r v
  let s := if setBit v 0 then s.enterStandby else s
  if setBit v 1 then s.leaveStandby else s

/-- GAU_CTRL: GO measures BED next (R494). -/
def State.writeGau (s : State) (who : Who) (r : Reg) (v : Word) : State :=
  let s := s.putReg who r v
  if setBit v 8 then { s with gau := { s.gau with next := some (s.fld F.GAU_CTRL_BED) } } else s

/-- TMO_KICK: the writing thread's watchdog restarts (R506). -/
def State.writeKick (s : State) : Who → State
  | .hook c t _ => s.updTh c t fun x => { x with kicked := s.uptime }
  | _ => s

/-- R512: a channel reset: the channel binds off, its pinned queues restart under a raised epoch, and it enters RUN again. -/
def State.channelReset (s : State) (n : Nat) : State :=
  let qs := s.pinnedQueues n
  let s := qs.foldl State.raiseEpoch s
  if s.leaderBusy n then s.bindoffGroup n else s.startChanBindoff n

/-- TMO_RESET: only the highest of COLD, WARM, HOOK and CHGO is performed (R509). -/
def State.writeReset (s : State) (who : Who) (r : Reg) (v : Word) : State :=
  let s := s.putReg who r v
  if setBit v 31 then s.systemReset 1 .tmo
  else if setBit v 30 then s.systemReset 2 .tmo
  else if setBit v 29 then s.hookReset .tmo
  else if setBit v 16 then s.channelReset (s.fld F.TMO_RESET_CHAN)
  else s

/-- Timed-I/O and time-base registers with an action. -/
def State.actWeb (s : State) (who : Who) (r : Reg) (v : Word) : State :=
  match r.kind with
  | .TIO_ARM => s.writeArm v
  | .TIO_ENC_CTRL => s.writeEnc who r v
  | .TIO_CH_CTRL => s.writeChan who r v
  | .TIO_OUT_CTRL => s.writeOut who r v
  | .TIO_OUT_EVIN => let w := s.evinWho who; s.evinWrite r.i w.1 w.2.1 w.2.2 v
  | _ => s.putReg who r v

/-- Ingest registers with an action. -/
def State.actIngest (s : State) (who : Who) (r : Reg) (v : Word) : State :=
  match r.kind with
  | .CXP_LNK_CTRL => s.writeLink who r v
  | .CXP_CH_ICTRL => s.writeIctrl who r v
  | .CXP_MBX_CMD => s.writeMbx who r v
  | _ => s.putReg who r v

/-- Bed and ply-queue registers with an action. -/
def State.actPly (s : State) (who : Who) (r : Reg) (v : Word) : State :=
  match r.kind with
  | .BED_CTRL => s.writeBed who r v
  | .BED_UC_CTRL => if setBit v 0 then s.ucLock else s
  | .PLQ_CTRL => s.writePlq who r v
  | .PLQ_BIND => s.writeBind who r v
  | .PLQ_CMD => s.writePlqCmd r.i v
  | .PLQ_SUB => s.writeSub r.i r.j v
  | .PLQ_PIN => s.writePin who r v
  | .PLQ_MIG => s.writeMig who r v
  | _ => s.putReg who r v

/-- Hook-complex and voter registers with an action. -/
def State.actHook (s : State) (who : Who) (r : Reg) (v : Word) : State :=
  match r.kind with
  | .HKC_SWI => s.writeSwi r.i v
  | .HKC_T_CTRL => s.writeTctrl r.i r.j v
  | .HKC_T_STAT => s.writeTstat r v
  | .VOT_CMD => if setBit v 0 then s.resyncHeld else s
  | .VOT_STEST => s.writeStest v
  | _ => s.putReg who r v

/-- Registers of the remaining blocks with an action. -/
def State.actSys (s : State) (who : Who) (r : Reg) (v : Word) : State :=
  match r.kind with
  | .DDR_CH_CTRL => let s := s.putReg who r v; if setBit v 0 then s.ddrRecover r.i else s
  | .TMO_CASTON => let s := s.putReg who r v; if setBit v 0 then s.castDone else s
  | .TMO_KICK => s.writeKick who
  | .TMO_RESET => s.writeReset who r v
  | .KTH_CMD => s.writeKth who r v
  | .KTH_PATH => s.setReg r v
  | .PCI_DMB_CMD => s.writeDmb who r v
  | .PCI_HFENCE => s.fenceGo v
  | .PCI_MSIX_TABLE => s.writeMsix 0 r.i v
  | .PWR_CTRL => s.writePwr who r v
  | .GAU_CTRL => s.writeGau who r v
  | _ => s.putReg who r v

/-- R547: the write of HI loads both halves in one step. -/
def State.loadPair (s : State) (who : Who) (lo hi : Reg) (v : Word) : State :=
  let l := s.held.get hi (s.reg lo)
  let s := { s with held := s.held.del hi }
  let both := l.toNat + 2 ^ 32 * v.toNat
  match hi.kind with
  | .TBS_SET_HI => (s.setReg lo l).tbsSet both
  | .TIO_CH_ROW_HI =>
    if (s.chan hi.i).st == .idle then
      let s := (s.setReg lo l).setChan hi.i { s.chan hi.i with row := BitVec.ofNat 64 both }
      s.reproject
    else s
  | .CXP_CH_REL_HI => s.writeRel hi.i hi.j both
  | .TIO_CH_OFFSET_HI => ((s.putReg who lo l).putReg who hi v).reproject
  | _ => (s.putReg who lo l).putReg who hi v

/-- A block that stays in reset in SAFE (R397). -/
def State.heldInReset (s : State) (b : Block) : Bool :=
  s.flag F.TMO_CASTON_SAFE && (decide (b = .CXP) || decide (b = .BED) || decide (b = .PLQ))

/-- A register takes a write. -/
def State.storeReg (s : State) (who : Who) (r : Reg) (v : Word) : State :=
  let b := r.kind.info.block
  if s.heldInReset b then s
  else if b = .HKC ∧ s.voted ∧ 0 < r.i then s
  else match r.kind.hiOf, r.kind.loOf with
    | some h, _ => if r.kind.info.fields.any fun f => f.acc != .r then { s with held := s.held.set { r with kind := h } v } else s
    | none, some l => if r.kind.info.fields.any fun f => f.acc != .r then s.loadPair who { r with kind := l } r v else s
    | none, none =>
      match b with
      | .TIO => s.actWeb who r v
      | .CXP => s.actIngest who r v
      | .BED => s.actPly who r v
      | .PLQ => s.actPly who r v
      | .HKC => s.actHook who r v
      | .VOT => s.actHook who r v
      | _ => s.actSys who r v

/-- A write by address: an offset that has no register ignores it (R465). -/
def State.storeAddr (s : State) (who : Who) (a : Nat) (v : Word) : State :=
  match Reg.ofAddr a with
  | none => s
  | some r => s.storeReg who r v

/-! ### The host (R469, R471) -/

/-- A register that function `fn` may write (R471), or whose side effect its reads have. -/
def State.hostSet (s : State) (fn : Nat) (r : Reg) : Bool :=
  let queue := fun (q : Nat) => s.flag F.PLQ_CTRL_OWNER q && decide (s.queueFn q = fn)
  let mbx := fun (k : Nat) => s.flag F.CXP_MBX_CMD_OWNER k
  let dma := decide (s.fld F.PCI_DMA_CTRL_FN r.i = fn)
  let rr := decide (s.fld F.PCI_RR_CTRL_FN r.i = fn)
  let pf0 := decide (fn = 0)
  match r.kind with
  | .PCI_ERR => true
  | .PCI_BAR2_H => pf0
  | .PCI_BAR4_H => pf0
  | .PCI_BAR4_OFF_LO => pf0
  | .PCI_BAR4_OFF_HI => pf0
  | .PCI_LNK_BAR4_H => decide (fn = 8 + r.i)
  | .PCI_LNK_BAR4_OFF_LO => decide (fn = 8 + r.i)
  | .PCI_LNK_BAR4_OFF_HI => decide (fn = 8 + r.i)
  | .PCI_DMA_RING_LO => dma
  | .PCI_DMA_RING_HI => dma
  | .PCI_DMA_SIZE => dma
  | .PCI_DMA_TAIL => dma
  | .PCI_DMA_WB_LO => dma
  | .PCI_DMA_WB_HI => dma
  | .PCI_DMA_STAT => dma
  | .PCI_RR_HOST_LO => rr
  | .PCI_RR_HOST_HI => rr
  | .PCI_RR_HSIZE => rr
  | .PCI_RR_CONS => rr
  | .PCI_RR_WB_LO => rr
  | .PCI_RR_WB_HI => rr
  | .PCI_RR_CNT => rr
  | .PCI_MSIX_TABLE => true
  | .PCI_DMB_CMD => pf0
  | .PCI_DMB_LEN => pf0
  | .PCI_DMB_OFF => pf0
  | .PCI_DMB_DATA => pf0
  | .PCI_DMB_STAT => pf0
  | .PLQ_SUB => queue r.i
  | .PLQ_CMD => queue r.i
  | .PLQ_CPL => queue r.i
  | .CXP_MBX_CMD => mbx r.i
  | .CXP_MBX_STAT => mbx r.i
  | .CXP_MBX_ADDR => mbx r.i
  | .CXP_MBX_TO => mbx r.i
  | .CXP_MBX_DATA => mbx r.i
  | .CXP_CH_REL_LO => decide (s.consKind r.i r.j = 2)
  | .CXP_CH_REL_HI => decide (s.consKind r.i r.j = 2)
  | _ => false

/-- A register write of a host function; what lies outside its write set is discarded and counted (R471). -/
def State.hostStore (s : State) (fn : Nat) (r : Reg) (v : Word) : State :=
  if !s.hostSet fn r then s.bump F.PCI_ERR_WPERM
  else if r.kind = .PCI_MSIX_TABLE then s.writeMsix fn r.i v
  else s.storeReg (.host fn) r v

/-- A register read of a host function: a register with a read side effect outside its write set reads 0 and nothing happens. -/
def State.hostLoad (s : State) (fn : Nat) (r : Reg) : Word × State :=
  if readActs r && !s.hostSet fn r then (0, s)
  else match r.kind with
    | .PCI_MSIX_TABLE => (s.msixWord fn r.i, s)
    | .PCI_MSIX_PBA =>
      (BitVec.ofNat 32 ((List.range 32).foldl (fun m k => if s.host.pba.contains (fn * 2048 + 32 * r.i + k) then m + 2 ^ k else m) 0), s)
    | _ => s.loadReg (.host fn) r

/-! ### Accesses by any party -/

/-- A hook thread that can perform an access: it runs and no exception waits. -/
def State.hookLive (s : State) (c t : Nat) : Bool :=
  let x := s.th c t
  s.coreLive c && decide (t < 4) && decide (x.st = .running) && x.fault.isNone && x.esc.isNone

/-- R442, R466: JTAG reaches the control window after an unlock with SCOPE[0]. -/
def State.jtagOpen (s : State) (k : Nat) : Bool := s.flag F.KTH_STAT_DBG && s.kth.scope.testBit k

/-- A master asks for a path that does not exist (R466). -/
def State.refusedPath (s : State) : State := s.bump F.MTX_CNT_0

/-- One register write by any party: a hook thread without the permission takes the capability fault and nothing is written (R339). -/
def State.writeBy (s : State) (who : Who) (a : Nat) (v : Word) : State :=
  match who with
  | .hook c t p =>
    if !s.hookLive c t then s
    else match s.regDenied p a v with
      | some (code, d) => s.setFault c t (exc 4 code a d)
      | none => s.storeAddr who a v
  | .host fn => match Reg.ofAddr a with
    | some r => s.hostStore fn r v
    | none => if (Block.ofAddr a).isSome then s.bump F.PCI_ERR_WPERM else s.bump F.PCI_ERR_HOLE
  | .jtag => if s.jtagOpen 0 then s.storeAddr who a v else s.refusedPath
  | _ => s.storeAddr who a v

/-- One register read by any party, recorded in `rd`. -/
def State.readBy (s : State) (who : Who) (a : Nat) : State :=
  match who with
  | .hook c t p =>
    if !s.hookLive c t then s
    else if p.toNat.testBit pLoad then s.loadAddr who a else s.setFault c t (exc 4 3 a pLoad)
  | .host fn => match Reg.ofAddr a with
    | some r => let (v, s) := s.hostLoad fn r; { s with rd := leBytes 4 v.toNat }
    | none => if (Block.ofAddr a).isSome then { s with rd := leBytes 4 0 }
      else { s.bump F.PCI_ERR_HOLE with rd := leBytes 4 0xFFFFFFFF }
  | .jtag => if s.jtagOpen 0 then s.loadAddr who a else s.refusedPath
  | _ => s.loadAddr who a

/-- A write of a register by its kind and indices. -/
def State.writeTo (s : State) (who : Who) (k : RegKind) (i j : Nat) (v : Nat) : State :=
  s.writeBy who (Reg.addr ⟨k, i, j⟩) (BitVec.ofNat 32 v)

/-- A read of a register by its kind and indices. -/
def State.readFrom (s : State) (who : Who) (k : RegKind) (i j : Nat) : State := s.readBy who (Reg.addr ⟨k, i, j⟩)

end Machine
end Sys2Proof
end

