-- ==== Sys2Proof/Machine/Regs.lean ====
section
/-!
DEFINITION. Sys2Proof/Machine/Regs.lean: the commands that are one register access: a plain write or read, and the writes and
reads that the spec names by what they start.
-/
namespace Sys2Proof.Machine

/-- The address is that of a register for which `p` holds. -/
def addrHas (a : Nat) (p : Reg → Bool) : Bool := match Reg.ofAddr a with | some r => p r | none => false

/-- A write of a register with its stored fields as they are and one field set. -/
def State.writeField (s : State) (who : Who) (f : Fld) (v : Nat) (i : Nat := 0) (j : Nat := 0) : State :=
  s.writeTo who f.k i j (putBits (s.restWord ⟨f.k, i, j⟩) f.hi f.lo v)

/-! ### Register accesses (R8, R547, R339, R471) -/

/-- REGISTER_WRITE. -/
def execRegisterWrite (who : Who) (addr : Nat) (v : Word) (s : State) : Host.Outcome State Fault Refusal := .next (s.writeBy who addr v)

/-- PAIR_HI_WRITE: a write of a HI half loads both halves. -/
def execPairHiWrite (who : Who) (addr : Nat) (v : Word) (s : State) : Host.Outcome State Fault Refusal :=
  .next (s.when (addrHas addr fun r => r.kind.loOf.isSome) fun s => s.writeBy who addr v)

/-- PAIR_LO_READ: a read of a LO half latches HI. -/
def execPairLoRead (who : Who) (addr : Nat) (s : State) : Host.Outcome State Fault Refusal :=
  .next (s.when (addrHas addr fun r => r.kind.hiOf.isSome) fun s => s.readBy who addr)

/-- What firmware's own read of a counter adds to 0x2900 (R461). -/
def State.takeAt (s : State) (who : Who) (addr : Nat) : State :=
  match who, Reg.ofAddr addr with
  | .firmware, some r => s.takeCounts r
  | _, _ => s

/-- RSC_READ: a read clears the fields with access rsc. -/
def execRscRead (who : Who) (addr : Nat) (s : State) : Host.Outcome State Fault Refusal :=
  .next (s.when (addrHas addr fun r => r.kind.info.fields.any fun f => f.acc == .rsc) fun s => (s.takeAt who addr).readBy who addr)

/-! ### Timed I/O -/

/-- TBS_SET_WRITE (R36): the write of TBS_SET_HI loads both halves. -/
def execTbsSetWrite (who : Who) (v : Word) (s : State) : Host.Outcome State Fault Refusal := .next (s.writeTo who .TBS_SET_HI 0 0 v.toNat)

/-- ENCODER_ENABLE (R37): a write of TIO_ENCe_CTRL. -/
def execEncoderEnable (who : Who) (e : Nat) (v : Word) (s : State) : Host.Outcome State Fault Refusal :=
  .next (s.when (decide (e < 8)) fun s => s.writeTo who .TIO_ENC_CTRL e 0 v.toNat)

/-- ARM_REQ (R70). -/
def execArmReq (who : Who) (s : State) : Host.Outcome State Fault Refusal := .next (s.writeTo who .TIO_ARM 0 0 2)

/-- DISARM (R71). -/
def execDisarm (who : Who) (s : State) : Host.Outcome State Fault Refusal := .next (s.writeTo who .TIO_ARM 0 0 4)

/-- OUTPUT_BINDOFF (R73): TIO_OUTo_CTRL.EN := 0. -/
def execOutputBindoff (who : Who) (o : Nat) (s : State) : Host.Outcome State Fault Refusal :=
  .next (s.when (decide (o < 64)) fun s => s.writeField who F.TIO_OUT_CTRL_EN 0 o)

/-- CAPTURE_POP (R74): a read of TIO_CAPn_POS_HI. -/
def execCapturePop (who : Who) (n : Nat) (s : State) : Host.Outcome State Fault Refusal :=
  .next (s.when (decide (n < 16)) fun s => s.readFrom who .TIO_CAP_POS_HI n 0)

/-- EVIN_WRITE (R76). -/
def execEvinWrite (who : Who) (o : Nat) (v : Word) (s : State) : Host.Outcome State Fault Refusal :=
  .next (s.when (decide (o < 64)) fun s => s.writeTo who .TIO_OUT_EVIN o 0 v.toNat)

/-! ### Memory and ingest -/

/-- DDR_RECOVER_COMMAND (R132): DDR_CHc_CTRL.RECOVER := 1. -/
def execDdrRecoverCommand (who : Who) (c : Nat) (s : State) : Host.Outcome State Fault Refusal :=
  .next (s.when (decide (c < 12)) fun s => s.writeField who F.DDR_CH_CTRL_RECOVER 1 c)

/-- EVENT_FIFO_POP (R111): a read of the last word of CXP_EVT_HEAD. -/
def execEventFifoPop (who : Who) (s : State) : Host.Outcome State Fault Refusal := .next (s.readFrom who .CXP_EVT_HEAD 15 0)

/-- MAILBOX_GO (R109, R110): a write of CXP_MBXk_CMD with GO. -/
def execMailboxGo (who : Who) (k : Nat) (v : Word) (s : State) : Host.Outcome State Fault Refusal :=
  .next (s.when (decide (k < 32) && setBit v 31) fun s => s.writeTo who .CXP_MBX_CMD k 0 v.toNat)

/-- RELEASE_ROW_WRITE (R100): the write of CXP_CHn_REL k HI loads both halves. -/
def execReleaseRowWrite (who : Who) (n k : Nat) (v : Word) (s : State) : Host.Outcome State Fault Refusal :=
  .next (s.when (decide (n < 16) && decide (k < 4)) fun s => s.writeTo who .CXP_CH_REL_HI n k v.toNat)

/-- DROP_LOG_POP (R101): a read of CXP_CHn_DLOG_HI. -/
def execDropLogPop (who : Who) (n : Nat) (s : State) : Host.Outcome State Fault Refusal :=
  .next (s.when (decide (n < 16)) fun s => s.readFrom who .CXP_CH_DLOG_HI n 0)

/-- INGEST_BINDOFF (R108): a write of CXP_CHn_ICTRL with EN = 0. -/
def execIngestBindoff (who : Who) (n : Nat) (v : Word) (s : State) : Host.Outcome State Fault Refusal :=
  .next (s.when (decide (n < 16) && !setBit v 0) fun s => s.writeTo who .CXP_CH_ICTRL n 0 v.toNat)

/-! ### Ply queues -/

/-- PLY_SUBMIT (R146): the word at 0x3C of PLQ_q_SUB. -/
def execPlySubmit (who : Who) (q : Nat) (v : Word) (s : State) : Host.Outcome State Fault Refusal :=
  .next (s.when (decide (q < 64)) fun s => s.writeTo who .PLQ_SUB q 15 v.toNat)

/-- PIN_ENABLE (R240): PLQ_q_CTRL.PIN_EN := 1. -/
def execPinEnable (who : Who) (q : Nat) (s : State) : Host.Outcome State Fault Refusal :=
  .next (s.when (decide (q < 16)) fun s => s.writeField who F.PLQ_CTRL_PINEN 1 q)

/-- RESUME (R150). -/
def execResume (who : Who) (q : Nat) (s : State) : Host.Outcome State Fault Refusal :=
  .next (s.when (decide (q < 64)) fun s => s.writeTo who .PLQ_CMD q 0 1)

/-- ABORT (R150). -/
def execAbort (who : Who) (q : Nat) (s : State) : Host.Outcome State Fault Refusal :=
  .next (s.when (decide (q < 64)) fun s => s.writeTo who .PLQ_CMD q 0 2)

/-- COMPLETION_POP (R149): a read of the last word of PLQ_q_CPL. -/
def execCompletionPop (who : Who) (q : Nat) (s : State) : Host.Outcome State Fault Refusal :=
  .next (s.when (decide (q < 64)) fun s => s.readFrom who .PLQ_CPL q 7)

/-- EPOCH_RAISE (R142): PLQ_q_BIND.RAISE := 1. -/
def execEpochRaise (who : Who) (q : Nat) (s : State) : Host.Outcome State Fault Refusal :=
  .next (s.when (decide (q < 64)) fun s => s.writeField who F.PLQ_BIND_RAISE 1 q)

/-- MIGRATION_GO (R235). -/
def execMigrationGo (who : Who) (q lpos nb : Nat) (s : State) : Host.Outcome State Fault Refusal :=
  .next (s.when (decide (q < 64) && decide (lpos < 128) && decide (nb < 136)) fun s =>
    s.writeTo who .PLQ_MIG q 0 (2 ^ 31 + nb * 2 ^ 16 + lpos))

/-- QUEUE_BINDOFF (R240): PLQ_q_CTRL.EN := 0. -/
def execQueueBindoff (who : Who) (q : Nat) (s : State) : Host.Outcome State Fault Refusal :=
  .next (s.when (decide (q < 64)) fun s => s.writeField who F.PLQ_CTRL_EN 0 q)

/-! ### Hook complex and voter -/

/-- SWI_WRITE (R297): a write of HKC_SWI of core `c`. -/
def execSwiWrite (who : Who) (c : Nat) (v : Word) (s : State) : Host.Outcome State Fault Refusal :=
  .next (s.when (decide (c < 3)) fun s => s.writeTo who .HKC_SWI c 0 v.toNat)

/-- THREAD_RUN (R278): HKC_Tt_CTRL.RUN := 1. -/
def execThreadRun (who : Who) (c t : Nat) (s : State) : Host.Outcome State Fault Refusal :=
  .next (s.when (decide (c < 3) && decide (t < 4)) fun s => s.writeTo who .HKC_T_CTRL c t 1)

/-- DIRTY_CLEAR (R372): a write of 1 to bits of HKC_Tt_FPST.DIRTY. -/
def execDirtyClear (who : Who) (c t : Nat) (v : Byte) (s : State) : Host.Outcome State Fault Refusal :=
  .next (s.when (decide (c < 3) && decide (t < 4)) fun s => s.writeTo who .HKC_T_FPST c t v.toNat)

/-- VOTER_SELF_TEST (R383): VOT_STEST.GO := 1. -/
def execVoterSelfTest (who : Who) (s : State) : Host.Outcome State Fault Refusal := .next (s.writeTo who .VOT_STEST 0 0 1)

/-- RESYNC_COMMAND (R381): VOT_CMD.RESYNC := 1. -/
def execResyncCommand (who : Who) (s : State) : Host.Outcome State Fault Refusal := .next (s.writeTo who .VOT_CMD 0 0 1)

/-- DROPPED_STITCH_POP (R392): a read of VOT_DS_POP. -/
def execDroppedStitchPop (who : Who) (s : State) : Host.Outcome State Fault Refusal := .next (s.readFrom who .VOT_DS_POP 0 0)

/-! ### Cast-on, matrix, Kethar -/

/-- CASTON_DONE (R393): TMO_CASTON.DONE := 1. -/
def execCastonDone (who : Who) (s : State) : Host.Outcome State Fault Refusal := .next (s.writeTo who .TMO_CASTON 0 0 1)

/-- UC_LOCK (R417): BED_UC_CTRL.LOCK := 1. -/
def execUcLock (who : Who) (s : State) : Host.Outcome State Fault Refusal := .next (s.writeTo who .BED_UC_CTRL 0 0 1)

/-- REMAP_SET (R464): MTX_REMAP.REMAP := 1. -/
def execRemapSet (who : Who) (s : State) : Host.Outcome State Fault Refusal := .next (s.writeTo who .MTX_REMAP 0 0 1)

/-- A write of KTH_CMD that starts an operation (R419). -/
def State.kthCmd (s : State) (who : Who) (op : Nat) : State := s.writeTo who .KTH_CMD 0 0 (2 ^ 31 + op)

/-- VERIFY_PLY (R425). -/
def execVerifyPly (who : Who) (s : State) : Host.Outcome State Fault Refusal := .next (s.kthCmd who 0x01)

/-- VERIFY_DOMAIN (R425). -/
def execVerifyDomain (who : Who) (s : State) : Host.Outcome State Fault Refusal := .next (s.kthCmd who 0x02)

/-- ATTEST (R439). -/
def execAttest (who : Who) (s : State) : Host.Outcome State Fault Refusal := .next (s.kthCmd who 0x03)

/-- SIGN (R435). -/
def execSign (who : Who) (s : State) : Host.Outcome State Fault Refusal := .next (s.kthCmd who 0x04)

/-- SIGN_REPAIR (R436). -/
def execSignRepair (who : Who) (s : State) : Host.Outcome State Fault Refusal := .next (s.kthCmd who 0x05)

/-- OPEN (R429). -/
def execKthOpen (who : Who) (s : State) : Host.Outcome State Fault Refusal := .next (s.kthCmd who 0x06)

/-- REKEY (R434). -/
def execRekey (who : Who) (s : State) : Host.Outcome State Fault Refusal := .next (s.kthCmd who 0x07)

/-- CHALLENGE (R441). -/
def execChallenge (who : Who) (s : State) : Host.Outcome State Fault Refusal := .next (s.kthCmd who 0x08)

/-- UNLOCK (R441). -/
def execUnlock (who : Who) (s : State) : Host.Outcome State Fault Refusal := .next (s.kthCmd who 0x09)

/-- KEYOP (R424). -/
def execKeyop (who : Who) (s : State) : Host.Outcome State Fault Refusal := .next (s.kthCmd who 0x0A)

/-- PATH_DONE (R438). -/
def execPathDone (who : Who) (s : State) : Host.Outcome State Fault Refusal := .next (s.kthCmd who 0x0B)

/-! ### Power, gauge, watchdogs and resets -/

/-- GAUGE_GO (R494): GAU_CTRL.GO with BED. -/
def execGaugeGo (who : Who) (b : Nat) (s : State) : Host.Outcome State Fault Refusal :=
  .next (s.when (decide (b < 136)) fun s =>
    s.writeTo who .GAU_CTRL 0 0 (putBits (putBits (s.restWord ⟨.GAU_CTRL, 0, 0⟩) 8 8 1) 31 24 b))

/-- STBY (R484): PWR_CTRL.STBY := 1. -/
def execStby (who : Who) (s : State) : Host.Outcome State Fault Refusal := .next (s.writeField who F.PWR_CTRL_STBY 1)

/-- WAKE (R486): PWR_CTRL.WAKE := 1. -/
def execWake (who : Who) (s : State) : Host.Outcome State Fault Refusal := .next (s.writeField who F.PWR_CTRL_WAKE 1)

/-- WATCHDOG_KICK (R506): a write of TMO_KICK. -/
def execWatchdogKick (who : Who) (v : Word) (s : State) : Host.Outcome State Fault Refusal := .next (s.writeTo who .TMO_KICK 0 0 v.toNat)

/-- COLD (R509): TMO_RESET.COLD := 1. -/
def execCold (who : Who) (s : State) : Host.Outcome State Fault Refusal := .next (s.writeField who F.TMO_RESET_COLD 1)

/-- WARM (R509): TMO_RESET.WARM := 1. -/
def execWarm (who : Who) (s : State) : Host.Outcome State Fault Refusal := .next (s.writeField who F.TMO_RESET_WARM 1)

/-- HOOK (R509): TMO_RESET.HOOK := 1. -/
def execHook (who : Who) (s : State) : Host.Outcome State Fault Refusal := .next (s.writeField who F.TMO_RESET_HOOK 1)

/-- CHGO (R512): TMO_RESET.CHGO := 1 with CHAN. -/
def execChgo (who : Who) (n : Nat) (s : State) : Host.Outcome State Fault Refusal :=
  .next (s.when (decide (n < 16)) fun s => s.writeTo who .TMO_RESET 0 0 (2 ^ 16 + n))

/-- BED_RESET (R513): BED_b_CTRL.RESET := 1. -/
def execBedReset (who : Who) (b : Nat) (s : State) : Host.Outcome State Fault Refusal :=
  .next (s.when (decide (b < 136)) fun s => s.writeField who F.BED_CTRL_RESET 1 b)

/-! ### Host interface -/

/-- HANDLE_FENCE (R475): PCI_HFENCE.GO := 1. -/
def execHandleFence (who : Who) (s : State) : Host.Outcome State Fault Refusal := .next (s.writeField who F.PCI_HFENCE_31 1)

/-- DMA_TAIL_WRITE (R476): a write of PCI_DMAc_TAIL. -/
def execDmaTailWrite (who : Who) (c : Nat) (v : Word) (s : State) : Host.Outcome State Fault Refusal :=
  .next (s.when (decide (c < 8)) fun s => s.writeTo who .PCI_DMA_TAIL c 0 v.toNat)

/-- DMA_HALT_CLEAR (R476): a write of 1 to PCI_DMAc_STAT.HALT. -/
def execDmaHaltClear (who : Who) (c : Nat) (s : State) : Host.Outcome State Fault Refusal :=
  .next (s.when (decide (c < 8)) fun s => s.writeTo who .PCI_DMA_STAT c 0 2)

/-- RESULT_RING_CONS_WRITE (R478): a write of PCI_RRr_CONS. -/
def execResultRingConsWrite (who : Who) (r : Nat) (v : Word) (s : State) : Host.Outcome State Fault Refusal :=
  .next (s.when (decide (r < 16)) fun s => s.writeTo who .PCI_RR_CONS r 0 v.toNat)

/-- MSIX_UNMASK (R473): the vector control word of an entry of the writer's table is written with mask 0. -/
def execMsixUnmask (who : Who) (k : Nat) (s : State) : Host.Outcome State Fault Refusal :=
  .next (s.when (decide (k < 1536)) fun s => s.writeTo who .PCI_MSIX_TABLE (4 * k + 3) 0 0)

/-- HOST_MAILBOX_GO (R452): a write of PCI_DMB_CMD with GO. -/
def execHostMailboxGo (who : Who) (v : Word) (s : State) : Host.Outcome State Fault Refusal :=
  .next (s.when (setBit v 31) fun s => s.writeTo who .PCI_DMB_CMD 0 0 v.toNat)

end Sys2Proof.Machine
end

