-- ==== Sys2Proof/Machine/OdWrite.lean ====
section
/-!
DEFINITION. Sys2Proof/Machine/OdWrite.lean: what a write of an object does once its checks have passed, the conditions that depend
on the state, and the checks in the order of R453. An action answers an SDO abort code, 0 for success.
-/
namespace Sys2Proof.Machine

/-- Firmware writes one field of a register. -/
def State.fw (s : State) (f : Fld) (v : Nat) (i : Nat := 0) : State := s.writeField .firmware f v i

/-- Firmware writes several fields of one register at once. -/
def State.fwFields (s : State) (k : RegKind) (i : Nat) (fs : List (Fld × Nat)) : State :=
  s.writeTo .firmware k i 0 (fs.foldl (fun w e => putBits w e.1.hi e.1.lo e.2) (s.restWord ⟨k, i, 0⟩))

/-! ### Entry to and exit from RUN (R446, R458) -/

/-- A channel enters RUN, or binds off, as its conditions stand (R458); a leader waits for its members (R47). -/
def State.settleRun (s : State) (n : Nat) : State :=
  match (s.chan n).st with
  | .idle => if s.chanWanted n && s.runOk n then (s.enterRun n).setOd (0x2100 + n) 2 2 else s
  | .run => if s.chanWanted n || s.leaderBusy n then s else s.startChanBindoff n
  | .bindoff => s

/-- The same for every channel, leaders after their members. -/
def State.settleAll (s : State) : State :=
  let lead := fun (s : State) (n : Nat) => s.locked n && decide (s.fld F.TIO_CH_CTRL_LEADER n = n)
  let s := (List.range 16).foldl (fun s n => if lead s n && (s.chan n).st == .run then s else s.settleRun n) s
  (List.range 16).foldl State.settleRun s

/-- 0x2100 + n:01 := 1 (R458). -/
def State.enableChan (s : State) (n : Nat) : Nat × State :=
  if s.odv (0x2100 + n) 1 = 1 ∧ s.odv (0x2100 + n) 2 ≠ 1 then (0, s)
  else if s.odv (0x2100 + n) 2 = 1 ∨ !s.runOk n then (aState, s)
  else
    let seen := s.ect.runSeen.filter fun m => m != n
    let s := { s with ect := { s.ect with runSeen := if s.ect.al = 8 then n :: seen else seen } }
    let s := (s.setOd (0x2100 + n) 1 1).setOd (0x2100 + n) 2 1
    (0, (s.fw F.CXP_CH_ICTRL_EN 1 n).settleRun n)

/-- The enable of a channel becomes 0 and the channel binds off (R447, R458). -/
def State.dropEnable (s : State) (n : Nat) : State :=
  let s := { s with ect := { s.ect with runSeen := s.ect.runSeen.filter fun m => m != n } }
  let s := (s.setOd (0x2100 + n) 1 0).setOd (0x2100 + n) 2 (if (s.chan n).st = .idle then 2 else 1)
  ((s.startChanBindoff n).fw F.CXP_CH_ICTRL_EN 0 n).settleChan n

/-- 0x2100 + n:01 := 0; a leader alone is refused while a member is in RUN (R47). -/
def State.disableChan (s : State) (n : Nat) : Nat × State :=
  if s.leaderBusy n then (aState, s)
  else if s.odv (0x2100 + n) 1 = 0 then (if s.odv (0x2100 + n) 2 = 1 then aState else 0, s)
  else (0, s.dropEnable n)

/-! ### Channel configuration -/

/-- A camera map record (R459). -/
structure CamRec where
  k : Nat
  fmt : Nat
  flip : Nat
  master : Nat
  speed : Nat
  links : Nat
  trig : Nat
  width : Nat
  trimL : Nat
  trimR : Nat
  hb : Nat
  dest : Nat
  delay : Nat
  spare : Nat

def camRec (b : List Byte) : CamRec :=
  { k := leAt b 0 1, fmt := leAt b 1 1 % 8, flip := leAt b 1 1 / 8 % 2, master := leAt b 2 1, speed := leAt b 3 1
    links := leAt b 4 4, trig := leAt b 8 4, width := leAt b 12 2, trimL := leAt b 14 2, trimR := leAt b 16 2
    hb := leAt b 18 2, dest := leAt b 20 4, delay := leAt b 24 2, spare := leAt b 1 1 / 16 + leAt b 26 6 }

def camRecs (b : List Byte) : List CamRec := (List.range (b.length / 32)).map fun i => camRec (slice b (32 * i) 32)

/-- A record whose fields are in range, for an entry that is free or the channel's own (R80, R459). -/
def State.camRecOk (s : State) (n : Nat) (r : CamRec) : Bool :=
  decide (r.k < 32) && decide (r.fmt < 6) && decide (r.master < 32) && decide (r.speed < 8) && fieldTakes F.CXP_LNK_CTRL_SPEED r.speed
    && decide (r.spare = 0) && between 1 65535 r.hb
    && (!s.flag F.CXP_CAM_CTRL_EN r.k || decide (s.fld F.CXP_CAM_CTRL_CHAN r.k = n))

/-- One record programs its camera entry and the links of the camera (DEDUCED, notes/assumptions/83.md); EN last, so that its condition of
writing is that of the channel the entry now names. -/
def State.putCam (s : State) (n : Nat) (r : CamRec) : State :=
  let s := s.fwFields .CXP_CAM_CTRL r.k [(F.CXP_CAM_CTRL_FLIP, r.flip), (F.CXP_CAM_CTRL_FMT, r.fmt), (F.CXP_CAM_CTRL_MASTER, r.master),
    (F.CXP_CAM_CTRL_CHAN, n)]
  let s := s.fw F.CXP_CAM_CTRL_EN 1 r.k
  let s := ((s.fw F.CXP_CAM_LINKS r.links r.k).fw F.CXP_CAM_TRIG r.trig r.k).fw F.CXP_CAM_WIDTH r.width r.k
  let s := (s.fwFields .CXP_CAM_TRIM r.k [(F.CXP_CAM_TRIM_0, r.trimL), (F.CXP_CAM_TRIM_16, r.trimR)]).fw F.CXP_CAM_DEST r.dest r.k
  (List.range 32).foldl (fun s l =>
    if r.links.testBit l then
      ((s.fwFields .CXP_LNK_CTRL l [(F.CXP_LNK_CTRL_SPEED, r.speed), (F.CXP_LNK_CTRL_EN, 1)]).fw F.CXP_LNK_DELAY r.delay l).fw
        F.CXP_LNK_HBTO r.hb l
    else s) s

/-- R459: the camera map of a channel: entries it no longer names are released. -/
def State.putCamMap (s : State) (n : Nat) (b : List Byte) : State :=
  let rs := camRecs b
  let s := (s.camsOf n).foldl (fun s k => if rs.any fun r => r.k == k then s else s.fw F.CXP_CAM_CTRL_EN 0 k) s
  let s := rs.foldl (fun s r => s.putCam n r) s
  let s := match rs.head? with | some r => s.fw F.TIO_CH_CTRL_LINK r.master n | none => s
  { s with ect := { s.ect with camMap := s.ect.camMap.set n b } }

/-- Writes of 0x2100 + n other than the enable and the camera map. -/
def State.putChan (s : State) (n sub v : Nat) : State :=
  match sub with
  | 0x03 => s.fw F.TIO_CH_CTRL_BSRC v n
  | 0x04 => s.fw F.TIO_CH_CTRL_ENC v n
  | 0x05 => s.fw F.TIO_CH_DIV v n
  | 0x06 => s.fw F.TIO_CH_PERIOD v n
  | 0x07 => s.fw F.TIO_CH_SCALE v n
  | 0x08 => s.fw F.TIO_CH_PITCH v n
  | 0x09 => (s.writeTo .firmware .TIO_CH_OFFSET_LO n 0 (v % 2 ^ 32)).writeTo .firmware .TIO_CH_OFFSET_HI n 0 (v / 2 ^ 32)
  | 0x0A => s.fwFields .TIO_CH_CTRL n [(F.TIO_CH_CTRL_ENCVALID, v), (F.TIO_CH_CTRL_REVHOLD, v / 2), (F.TIO_CH_CTRL_TRIGEN, v / 4)]
  | 0x0B => s.fwFields .TIO_CH_CTRL n [(F.TIO_CH_CTRL_LOCKEN, b2n (decide (v ≠ 0xFF))), (F.TIO_CH_CTRL_LEADER, if v = 0xFF then 0 else v)]
  | 0x0C => s.fw F.CXP_CH_WALES v n
  | 0x0D => s.fw F.CXP_CH_RING_BASE (v / 65536) n
  | 0x0E => s.fw F.CXP_CH_RING_SIZE (v / 65536) n
  | 0x0F => s.fw F.CXP_CH_ICTRL_SPEC v n
  | 0x10 => s.fw F.CXP_CH_ICTRL_PARTPOL v n
  | 0x11 => s.fw F.CXP_CH_ICTRL_FILL v n
  | 0x12 => s.fw F.CXP_CH_ICTRL_UMARKEN v n
  | 0x14 => s.fw F.CXP_CH_CWD v n
  | 0x19 => (if v < 16 then s.fw F.PLQ_CTRL_PCHAN n v else s).setOd (0x2100 + n) sub v
  | 0x1A => s.writeTo .firmware .CXP_CH_CONS n 0 v
  | _ => s.setOd (0x2100 + n) sub v

/-! ### PDO maps and assignments (R449) -/

/-- Whether a map entry may stand in a map of its direction. -/
def mapEntryOk (rx : Bool) (e : Nat) : Bool :=
  let len := e % 256
  let idx := e / 65536
  let sub := e / 256 % 256
  [8, 16, 32, 64].contains len && ((decide (idx = 0) && decide (sub = 0)) ||
    match odInfo idx sub with
    | some i => if rx then i.rx else i.tx
    | none => false)

/-- Bytes of the active assignment of a direction. -/
def State.pdoBytes (s : State) (rx : Bool) : Nat :=
  ((if rx then s.rxMap else s.txMap).foldl (fun a e => a + e % 256) 0) / 8

/-- Whether every assigned map of a direction is valid (R446, R449). -/
def State.mapsOk (s : State) (rx : Bool) : Bool :=
  (if rx then s.rxMap else s.txMap).all (mapEntryOk rx) && decide (s.pdoBytes rx ≤ 1024)

/-- One subindex of a map or an assignment: the entries while subindex 00 is 0, then the count. -/
def State.putMap (s : State) (idx sub v : Nat) : Nat × State :=
  let rx := inRange 0x1600 16 idx || decide (idx = 0x1C12)
  let isAssign := decide (idx = 0x1C12) || decide (idx = 0x1C13)
  if s.ect.al ≠ 2 then (aState, s)
  else if sub ≠ 0 then
    if s.odv idx 0 ≠ 0 then (aState, s)
    else if !isAssign && !mapEntryOk rx v then (aNoMap, s)
    else (0, s.setOd idx sub v)
  else
    let t := s.setOd idx 0 v
    if !isAssign && !(t.odList idx).all (mapEntryOk rx) then (aNoMap, s)
    else if 1024 < t.pdoBytes rx then (aMapSize, s)
    else (0, t)

/-! ### The bed-set map and ply queues (R30, R460) -/

/-- Beds that would hold a position after a write (R2). -/
def State.positionsWith (s : State) (b e : Nat) : Nat :=
  ((List.range 136).filter fun x =>
    if x = b then decide (e % 4 = 1) else s.flag F.BED_CTRL_EN x && !s.flag F.BED_CTRL_STANDBY x).length

/-- Standby beds of a set besides bed `b`. -/
def State.otherStandby (s : State) (n b : Nat) : Nat :=
  ((List.range 136).filter fun x => decide (x ≠ b) && s.flag F.BED_CTRL_EN x && s.flag F.BED_CTRL_STANDBY x
    && decide (s.fld F.BED_CTRL_SET x = n)).length

/-- A bed that holds a position of a running set (R460). -/
def State.bedRuns (s : State) (b : Nat) : Bool :=
  let n := s.fld F.BED_CTRL_SET b
  (s.setBeds n).contains b && !(s.queuesOf n).isEmpty

/-- The bed that a write of an entry would displace from a position of a running set. -/
def State.displaced (s : State) (b e : Nat) : Option Nat :=
  let n := e / 4 % 64
  if e % 4 = 1 ∧ !(s.queuesOf n).isEmpty then
    (s.setBeds n).find? fun x => decide (x ≠ b) && decide (s.fld F.BED_CTRL_LPOS x = e / 256 % 128)
  else none

/-- R460: the writes that are refused. -/
def State.bedEntryOk (s : State) (b e : Nat) : Bool :=
  let n := s.fld F.BED_CTRL_SET b
  let keeps := decide (e % 4 = 3) && decide (e / 4 % 64 = n)
  let wasStandby := s.flag F.BED_CTRL_EN b && s.flag F.BED_CTRL_STANDBY b
  let loses := if s.bedRuns b then decide (s.otherStandby n b ≤ 1) && decide (s.otherStandby n b ≠ 0) else wasStandby && !keeps && decide (s.otherStandby n b = 0)
  let same := decide (s.bedEntry b % 32768 = e % 32768)
  same || (decide (s.positionsWith b e - (if (s.displaced b e).isSome then 1 else 0) ≤ bedLimit) && !(s.latq n && loses))

/-- Start the migration that an entry calls for (R235, R460). -/
def State.mapMigrate (s : State) (b e n lpos : Nat) (nb : Option Nat) : State :=
  let s := (s.setBed b { s.bed b with entry := some e }).setOd 0x2200 0x89 1
  s.migrate ((s.queuesOf n).headD 0) lpos nb false

/-- R460: an entry of the bed-set map. -/
def State.putBed (s : State) (b v : Nat) : Nat × State :=
  let e := v % 32768
  let n := s.fld F.BED_CTRL_SET b
  let m := e / 4 % 64
  if s.bedEntry b % 32768 = e then (0, s)
  else if !s.bedEntryOk b e then (aRange, s)
  else if s.bedRuns b then
    if s.odv 0x2200 0x89 = 1 ∨ (s.bset n).mig.isSome then (aState, s)
    else (0, s.mapMigrate b e n (s.fld F.BED_CTRL_LPOS b) (s.spareBed n))
  else if (s.displaced b e).isSome then
    if s.odv 0x2200 0x89 = 1 ∨ (s.bset m).mig.isSome then (aState, s)
    else (0, ((s.joinSet b m).setFld F.BED_STAT_CLKGATED 0 b).mapMigrate b e m (e / 256 % 128) (some b))
  else
    (0, s.fwFields .BED_CTRL b [(F.BED_CTRL_EN, e), (F.BED_CTRL_STANDBY, e / 2), (F.BED_CTRL_SET, m), (F.BED_CTRL_LPOS, e / 256)])

/-- R30, R144: an entry of 0x2240: the queue binds off, then the entry takes effect. -/
def State.putQueue (s : State) (q v : Nat) : Nat × State :=
  let pin := v.testBit 8
  if (s.plq q).entry.isSome then (aState, s)
  else if pin && (v.testBit 7 || !s.consumes q (s.pinChan q)) then (aOther, s)
  else if s.flag F.PLQ_CTRL_EN q then
    let s := (s.setPlq q { s.plq q with entry := some v }).setOd 0x2240 0x41 1
    (0, s.fw F.PLQ_CTRL_EN 0 q)
  else (0, (s.setOd 0x2240 0x41 2).queueEntry q v)

/-! ### Gauge, re-plan, repair (R493, R494, R502) -/

/-- Field repairs in the map: kind, unit, element (R498, R502). -/
def State.fieldRepairs (s : State) : List (Nat × Nat × Nat) :=
  let one := fun (f p : Fld) (none_ kind u : Nat) =>
    if s.flag f u && decide (s.fld p u ≠ none_) then [(kind, u, s.fld p u)] else []
  ((List.range 136).flatMap fun b => one F.RPR_NEED_FIELDA F.RPR_NEED_PNA 0x3F 1 b ++ one F.RPR_NEED_FIELDB F.RPR_NEED_PNB 0x3F 1 b)
    ++ ((List.range 64).flatMap fun n => one F.RPR_SLICE_FIELD0 F.RPR_SLICE_PB0 0x7F 2 n ++ one F.RPR_SLICE_FIELD1 F.RPR_SLICE_PB1 0x7F 2 n)
    ++ ((List.range 136).filterMap fun b =>
      if (s.fld F.RPR_BEDR (b / 32)).testBit (b % 32) && !(s.fld F.RPR_BEDF (b / 32)).testBit (b % 32) then some (3, b, 0) else none)

/-- The container of a record before it is signed (R405, R436, R500). -/
def recordContainer (es : List (Nat × Nat × Nat)) : List Byte :=
  let payload := leBytes 4 0x52524755 ++ leBytes 4 es.length ++ leBytes 8 Config.serial.toNat
    ++ es.flatMap fun e => leBytes 1 e.1 ++ leBytes 1 0 ++ leBytes 2 e.2.1 ++ leBytes 2 e.2.2 ++ leBytes 2 0
  leBytes 4 0x4D494755 ++ leBytes 1 3 ++ leBytes 1 2 ++ leBytes 2 0 ++ leBytes 4 0 ++ leBytes 4 payload.length ++ leBytes 8 0
    ++ leBytes 4 0 ++ leBytes 4 0 ++ leBytes 60 0 ++ leBytes 4 0 ++ payload ++ leBytes sigLen 0

/-- Store to flash without the TYPE 3 entries, with a new record or none (R404, R502). -/
def State.storeRecords (s : State) (new : Option (List Byte)) : Option State :=
  s.flashStore (fun e => e.typ != 3) (new.map fun l => (3, 0, l))

/-- 0x2320:06 := 1: one signed record of every field repair, stored (R502). -/
def State.recordRepairs (s : State) : State :=
  let es := s.fieldRepairs
  let fail := fun (s : State) (e : Nat) => (s.setFld F.KTH_STAT_ERR e).setOd 0x2320 7 3
  if es.isEmpty ∨ 512 < es.length then s.setOd 0x2320 7 3
  else match parseContainer (recordContainer es) 3 with
    | none => s.setOd 0x2320 7 3
    | some c => match s.kthSign (signRepair c []) with
      | (.error e, s) => fail s e
      | (.ok g, s) => match s.storeRecords (some (signRepair c g)) with
        | some s => (s.setFld F.RPR_STAT_UNSAVED 0).setOd 0x2320 7 2
        | none => s.setOd 0x2320 7 3

/-- 0x2320:06 := 2: a header without field records (R502). -/
def State.discardRecords (s : State) : State :=
  match s.storeRecords none with
  | some s => s.setOd 0x2320 7 2
  | none => s.setOd 0x2320 7 3

/-- Writes of 0x2300, 0x2310, 0x2320. -/
def State.putGauge (s : State) (idx sub v : Nat) : Nat × State :=
  match idx, sub with
  | 0x2300, 1 => (0, s.fw F.GAU_CTRL_EN v)
  | 0x2300, 2 => (0, s.fw F.GAU_INTERVAL v)
  | 0x2300, 3 =>
    if s.odv 0x2300 5 = 1 then (aState, s)
    else (0, { s.setOd 0x2300 5 1 with gau := { s.gau with next := some (s.odv 0x2300 4) } })
  | 0x2310, 4 =>
    if s.odv 0x2310 5 = 1 then (aState, s)
    else (0, s.planBeds 0x2310 5 (if v = 1 then [s.odv 0x2310 1] else s.rotation))
  | 0x2320, 6 => if s.odv 0x2320 7 = 1 then (aState, s) else (0, if v = 1 then s.recordRepairs else s.discardRecords)
  | _, _ => (0, s.setOd idx sub v)

/-! ### Outputs, encoders, time base, timeouts, power -/

/-- Writes of 0x2400 + o. -/
def State.putOut (s : State) (o sub v : Nat) : Nat × State :=
  match sub with
  | 1 =>
    let en := s.flag F.TIO_OUT_CTRL_EN o
    if (s.out o).bindoff then (aState, s)
    else if v = 1 then (0, (s.fw F.TIO_OUT_CTRL_EN 1 o).setOd (0x2400 + o) 2 2)
    else if en then (0, (s.setOd (0x2400 + o) 2 1).fw F.TIO_OUT_CTRL_EN 0 o)
    else (0, s)
  | 3 => (0, s.fw F.TIO_OUT_CTRL_CHAN v o)
  | 4 => (0, s.fwFields .TIO_OUT_CTRL o [(F.TIO_OUT_CTRL_LPOL, v), (F.TIO_OUT_CTRL_HPOL, v / 2), (F.TIO_OUT_CTRL_BODROP, v / 4),
      (F.TIO_OUT_CTRL_BOKEEPT, v / 8)])
  | 5 => (0, s.fwFields .TIO_OUT_CTRL o [(F.TIO_OUT_CTRL_SAFE, v), (F.TIO_OUT_CTRL_POL, v / 4), (F.TIO_OUT_CTRL_OD, v / 8)])
  | 6 => (0, s.fw F.TIO_OUT_STATION v o)
  | _ => (0, s.fw F.TIO_OUT_SKEW v o)

/-- Writes of 0x2480 + e. -/
def State.putEnc (s : State) (e sub v : Nat) : State :=
  if sub = 1 then s.fwFields .TIO_ENC_CTRL e [(F.TIO_ENC_CTRL_EN, v), (F.TIO_ENC_CTRL_DIRINV, v / 2), (F.TIO_ENC_CTRL_FILTER, v / 4)]
  else s.fw F.TIO_ENC_CTRL_STALL v e

/-- Writes of 0x2500; the time is refused while a channel is in RUN (R36). -/
def State.putTb (s : State) (sub v : Nat) : Nat × State :=
  match sub with
  | 1 => (0, s.fwFields .TBS_CTRL 0 [(F.TBS_CTRL_SRC, v), (F.TBS_CTRL_DISCEN, v / 4), (F.TBS_CTRL_PPSPOL, v / 8)])
  | 2 => (0, s.fw F.TBS_SLEW v)
  | 3 => (0, s.fw F.TBS_STEP_THR v)
  | _ =>
    if s.anyRun then (aState, s)
    else (0, (s.writeTo .firmware .TBS_SET_LO 0 0 (v % 2 ^ 32)).writeTo .firmware .TBS_SET_HI 0 0 (v / 2 ^ 32))

/-- Writes of 0x2600: one timeout for every unit that has it. -/
def State.putTimeout (s : State) (sub v : Nat) : State :=
  let units := match sub with | 0x5 => 12 | 0x6 => 64 | _ => 1
  match timeoutFld sub with
  | some f => (List.range units).foldl (fun s i => s.fw f v i) s
  | none => s.setOd 0x2600 sub v

/-- Writes of 0x2700 (R484, R486). -/
def State.putPower (s : State) (sub v : Nat) : Nat × State :=
  if sub = 7 then (0, s.fw F.PWR_WSDLY v)
  else if v = 1 then
    if s.devState ≠ 1 ∨ s.fld F.PWR_STAT_SLEEP = 2 ∨ s.odv 0x2700 3 = 1 then (aState, s)
    else (0, (s.fw F.PWR_CTRL_STBY 1).setOd 0x2700 3 2)
  else if s.fld F.PWR_STAT_SLEEP ≠ 2 ∨ s.odv 0x2700 3 = 1 then (aState, s)
  else (0, (s.setOd 0x2700 3 1).fw F.PWR_CTRL_WAKE 1)

/-! ### Trust (R434, R439 to R441) -/

/-- An operation of the Kethar block started by the dictionary: refused while one runs or OPEN has not ended (R409, R440). -/
def State.odKeth (s : State) (o : KOp) : Nat × State :=
  if s.odv 0x2800 6 = 1 ∨ s.flag F.KTH_STAT_BUSY ∨ (s.odv 0x2800 1 = 1 ∧ (o.od = 1 ∨ o.od = 2)) then (aState, s)
  else
    let s := (s.setOd 0x2800 6 1).setOd 0x2800 7 0
    if s.opAccepted o.op then (0, s.kthStart o) else (0, (s.kthStart o).setOd 0x2800 6 3)

/-- Writes of 0x2800. -/
def State.putTrust (s : State) (sub v : Nat) (bs : List Byte) : Nat × State :=
  match sub with
  | 4 => (0, (List.range 8).foldl (fun s k => s.fw F.KTH_NONCE (leAt bs (4 * k) 4) k) s)
  | 5 =>
    if v = 1 then s.odKeth ⟨opAttest, 0, 0, 0, none, 1⟩
    else if v = 2 then s.odKeth ⟨opRekey, 0, 0, 0, none, 2⟩
    else s.odKeth ⟨opChallenge, 0, 0, 0, none, 3⟩
  | _ => s.odKeth ⟨opUnlock, 0, bs.length, 0, some bs, 4⟩

/-! ### Program slots (R462) -/

def State.setSlot (s : State) (k : Nat) (x : ProgSlot) : State := { s with ect := { s.ect with slots := s.ect.slots.set k x } }

/-- Verification of an image held in a slot: status 2, or status 3 and the slot empty. `fresh` after a write, which also extends the
measurement register of its type (R426). -/
def State.slotVerify (s : State) (k : Nat) (im : List Byte) (fresh : Bool) : State :=
  let typ := leAt im 4 1
  let r := if 1 ≤ typ ∧ typ ≤ 5 then s.verifyCount im typ else (.error eFormat, s.bump F.KTH_CNT_24)
  match r with
  | (.error _, s) => s.setSlot k ⟨[], 0, 0, 3, 0⟩
  | (.ok c, s) =>
    let h := Config.sha256 c.whole
    let s := if fresh && decide (typ = 4) then s.extend 3 h else if fresh && decide (typ = 5) then s.extend 6 h else s
    s.setSlot k ⟨im, typ, c.version, 2, h⟩

/-- Store an image in flash under its type and slot (R404); `none` where it has no room. -/
def State.slotStore (s : State) (k typ : Nat) (im : List Byte) : Option State :=
  s.flashStore (fun e => !(e.typ == typ && e.slot == k)) (some (typ, k, im))

/-- A DOMAIN download of an image (R462). -/
def State.slotWrite (s : State) (k : Nat) (im : List Byte) : Nat × State :=
  if 512 * 1024 < im.length ∧ !s.ddrReady then (aState, s) else (0, s.slotVerify k im true)

/-- 0x3000 + s:05: 1 verify again, 2 store to flash, 3 clear. -/
def State.slotCommand (s : State) (k v : Nat) : Nat × State :=
  let x := s.slot k
  if v = 3 then (0, s.setSlot k ⟨[], 0, 0, 2, 0⟩)
  else if x.image.isEmpty then (aState, s)
  else if v = 1 then (0, s.slotVerify k x.image false)
  else match s.slotStore k x.typ x.image with
    | some s => (0, s.setSlot k { x with status := 2 })
    | none => (0, s.setSlot k { x with status := 3 })

/-! ### Device commands (R446, R447) -/

/-- The conditions under which outputs may be armed (R446). -/
def State.mayOp (s : State) : Bool := s.voted && !s.flag F.VOT_STEST_FAIL && !s.flag F.TMO_CASTON_SAFE

/-- R446: a device bind-off starts, to end in AL state `t`, 0 for no change: every enable becomes 0, every channel and every enabled
output binds off. -/
def State.startDevBindoff (s : State) (t : Nat) : State :=
  let s := { s with ect := { s.ect with bindoff := some t, cut := false } }
  let s := (List.range 16).foldl (fun s n => if s.odv (0x2100 + n) 1 = 1 ∨ (s.chan n).st = .run then s.dropEnable n else s) s
  (List.range 64).foldl (fun s o => if s.flag F.TIO_OUT_CTRL_EN o then s.fw F.TIO_OUT_CTRL_EN 0 o else s) s

/-- 0x2000:02 but for the resets, which follow the answer. -/
def State.devCommand (s : State) (v : Nat) : Nat × State :=
  match v with
  | 1 => if s.odv 0x2000 3 = 1 ∨ s.ect.bindoff.isSome then (aState, s) else (0, (s.setOd 0x2000 3 1).startDevBindoff 0)
  | 4 => if s.mayOp then (0, (s.fw F.TIO_ARM_ARMREQ 1).setOd 0x2000 3 2) else (aState, s)
  | 5 => (0, (s.fw F.TIO_ARM_DISARM 1).setOd 0x2000 3 2)
  | _ => (0, s.setOd 0x2000 3 2)

/-! ### Checks and dispatch (R453) -/

/-- Whether a length is the object's. -/
def lengthOk (idx sub : Nat) (i : OdInfo) (n : Nat) : Bool :=
  match i.len with
  | some k => n == k
  | none =>
    if inRange 0x2100 16 idx then decide (n % 32 = 0) && between 1 8 (n / 32)
    else if idx = 0x2800 ∧ sub = 10 then n == 3348
    else if inRange 0x3000 64 idx then decide (n ≤ 0x1000000)
    else true

/-- Conditions on the value that only the state decides (R459, R460). -/
def State.valueOk (s : State) (idx sub : Nat) (bs : List Byte) : Bool :=
  if inRange 0x2100 16 idx && decide (sub = 0x1B) then
    let ks := (camRecs bs).map (·.k)
    (camRecs bs).all (s.camRecOk (idx - 0x2100)) && decide (ks.eraseDups = ks)
  else if idx = 0x2200 then s.bedEntryOk (sub - 1) (ofLeBytes bs % 32768)
  else true

/-- The state checks that need no action: split mode (R385), a channel that is not IDLE (R458). -/
def State.stateOk (s : State) (idx sub : Nat) : Bool :=
  !(safetyObj idx && !s.voted)
    && !(inRange 0x2100 16 idx && !([1, 0x12, 0x13, 0x18].contains sub) && (s.chan (idx - 0x2100)).st != .idle)

/-- The checks that a download passes before its action: the first that fails gives the abort (R453). `n` bytes are to be written; the
bytes are known for `some`. -/
def State.odCheck (s : State) (path : Path) (idx sub n : Nat) (bs : Option (List Byte)) : Nat :=
  match odInfo idx sub with
  | none => if odExists idx then aNoSub else aNoObject
  | some i =>
    if !i.wr then aReadOnly
    else if !lengthOk idx sub i n then aLength
    else if (match bs, i.len with | some b, some k => decide (k ≤ 8) && !odRange idx sub (ofLeBytes b) | _, _ => false) then aRange
    else if (match bs with | some b => !s.valueOk idx sub b | none => false) then aRange
    else if path == .host && fieldOnly idx && s.ect.leftInit then aFieldOnly
    else if !s.stateOk idx sub then aState
    else 0

/-- The action of a write that has passed its checks. -/
def State.odAct (s : State) (idx sub : Nat) (bs : List Byte) : Nat × State :=
  let v := ofLeBytes bs
  if isMap idx then s.putMap idx sub v
  else if idx = 0x2000 ∧ sub = 2 then s.devCommand v
  else if inRange 0x2100 16 idx then
    let n := idx - 0x2100
    if sub = 1 then (if v = 1 then s.enableChan n else s.disableChan n)
    else if sub = 0x1B then (0, s.putCamMap n bs)
    else (0, s.putChan n sub v)
  else if idx = 0x2200 then s.putBed (sub - 1) v
  else if idx = 0x2240 then s.putQueue (sub - 1) v
  else if inRange 0x2300 48 idx then s.putGauge idx sub v
  else if inRange 0x2400 64 idx then s.putOut (idx - 0x2400) sub v
  else if inRange 0x2480 8 idx then (0, s.putEnc (idx - 0x2480) sub v)
  else if idx = 0x2500 then s.putTb sub v
  else if idx = 0x2600 then (0, s.putTimeout sub v)
  else if idx = 0x2700 then s.putPower sub v
  else if idx = 0x2800 then s.putTrust sub v bs
  else if idx = 0x2900 then (0, s.clearTally)
  else if inRange 0x3000 64 idx then
    (if sub = 1 then s.slotWrite (idx - 0x3000) bs else s.slotCommand (idx - 0x3000) v)
  else (0, s.setOd idx sub v)

/-- One subindex is written: the checks, then the action; a refused write changes nothing (R453). -/
def State.odWrite (s : State) (path : Path) (idx sub : Nat) (bs : List Byte) : Nat × State :=
  let a := s.odCheck path idx sub bs.length (some bs)
  if a ≠ 0 then (a, s)
  else
    let r := s.odAct idx sub bs
    if r.1 ≠ 0 then (r.1, s) else r

end Sys2Proof.Machine
end

