-- ==== Sys2Proof/Machine/Dict.lean ====
section
/-!
DEFINITION. Sys2Proof/Machine/Dict.lean: the dictionary as its two paths see it: complete access, the host mailbox with its segments,
the answers, the recovery set of SAFE, and the commands that are one dictionary request (R28, R407, R444, R452 to R454, R462).
-/
namespace Sys2Proof.Machine

/-! ### Complete access (R444, R449) -/

/-- The subindices of a complete access from `sub` on, each with its length; `none` where one has no fixed length. -/
def caSubs (idx sub : Nat) : Option (List (Nat × Nat)) :=
  match odRecord idx with
  | none => none
  | some (top, _) =>
    (((List.range (top + 1)).filter fun k => decide (sub ≤ k) && (odInfo idx k).isSome).mapM fun k =>
      match k, odInfo idx k with
      | 0, _ => some (0, 2)
      | k, some i => i.len.map fun n => (k, n)
      | _, none => none)

/-- Split the bytes of a complete access over its subindices, as far as they go; subindex 00 takes one byte and one of padding. -/
def caSplit : List (Nat × Nat) → List Byte → List (Nat × List Byte)
  | [], _ => []
  | (k, n) :: rest, bs =>
    if bs.isEmpty then [] else (k, if k = 0 then bs.take 1 else bs.take n) :: caSplit rest (bs.drop n)

/-- Write subindices in order; the first abort ends it (R28). -/
def State.odWrites (s : State) (path : Path) (idx : Nat) : List (Nat × List Byte) → Nat × State
  | [] => (0, s)
  | (k, bs) :: rest =>
    let r := s.odWrite path idx k bs
    if r.1 ≠ 0 then r else r.2.odWrites path idx rest

/-- A download of one subindex, or of an object from a subindex on (DEDUCED, notes/assumptions/84.md). -/
def State.odDownload (s : State) (path : Path) (idx sub : Nat) (ca : Bool) (bs : List Byte) : Nat × State :=
  if !ca then s.odWrite path idx sub bs
  else match caSubs idx sub with
    | none => (if odExists idx then aOther else aNoObject, s)
    | some l =>
      let parts := caSplit l bs
      if isMap idx then
        -- one step: refused as a whole
        let n := match parts.head? with | some (0, b) => ofLeBytes b | _ => parts.length
        let r := s.odWrites path idx ((0, [0]) :: (parts.filter fun p => p.1 != 0) ++ [(0, leBytes 1 n)])
        if r.1 ≠ 0 then (r.1, s) else r
      else s.odWrites path idx (parts.filter fun p => p.1 != 0)

/-- An upload: the abort code, or 0 with the bytes. -/
def State.odUpload (s : State) (idx sub : Nat) (ca : Bool) : Nat × List Byte × State :=
  if ca then
    match caSubs idx sub with
    | none => (if odExists idx then aOther else aNoObject, [], s)
    | some l =>
      let l := if isMap idx then l.filter fun e => decide (e.1 ≤ s.odv idx 0) else l
      let r := l.foldl (fun (a : List Byte × State) e =>
        match odInfo idx e.1 with
        | some i => if i.rd then let (b, t) := a.2.odRead idx e.1; (a.1 ++ (b ++ leBytes (e.2 - b.length) 0), t) else (a.1 ++ leBytes e.2 0, a.2)
        | none => a) ([], s)
      (0, r.1, r.2)
  else match odInfo idx sub with
    | none => (if odExists idx then aNoSub else aNoObject, [], s)
    | some i =>
      if !i.rd then (if i.wr then aWriteOnly else aReadOnly, [], s)
      else let (b, t) := s.odRead idx sub; (0, b, t)

/-! ### SAFE (R407) -/

/-- A download in SAFE: 2 to 0x2000:02, and images of program slots, which go to flash unverified. -/
def State.safeDownload (s : State) (idx sub : Nat) (bs : List Byte) : Nat × State :=
  if idx = 0x2000 ∧ sub = 2 then (if bs = [2] then 0 else aRange, s)
  else if inRange 0x3000 64 idx && decide (sub = 1) then
    match s.slotStore (idx - 0x3000) (leAt bs 4 1) bs with
    | some s => (0, s)
    | none => (aOther, s)
  else (aState, s)

/-- An upload in SAFE. -/
def State.safeUpload (s : State) (idx sub : Nat) (ca : Bool) : Nat × List Byte × State :=
  if recoverySet idx || (decide (idx = 0x2000) && decide (sub = 1)) then s.odUpload idx sub ca else (aState, [], s)

/-- The device is in SAFE. -/
def State.inSafe (s : State) : Bool := s.flag F.TMO_CASTON_SAFE

def State.serveDownload (s : State) (path : Path) (idx sub : Nat) (ca : Bool) (bs : List Byte) : Nat × State :=
  if s.inSafe then s.safeDownload idx sub bs else s.odDownload path idx sub ca bs

def State.serveUpload (s : State) (idx sub : Nat) (ca : Bool) : Nat × List Byte × State :=
  if s.inSafe then s.safeUpload idx sub ca else s.odUpload idx sub ca

/-! ### Answers (R452, R453) -/

/-- The answer of the host mailbox: DONE and ABORT, for an upload with the length of the segment and MORE. -/
def State.answerHost (s : State) (idx sub a : Nat) (data : List Byte) (seg more : Nat) : State :=
  let s := (((s.setFld F.PCI_DMB_STAT_BUSY 0).setFld F.PCI_DMB_STAT_DONE 1).setFld F.PCI_DMB_ABORT a).setFld F.PCI_DMB_STAT_SEGLEN seg
  ((s.setFld F.PCI_DMB_STAT_MORE more).send (.sdo .host idx sub a data)).msix 0 0

/-- The answer of the PLC's mailbox. -/
def State.answerPlc (s : State) (idx sub a : Nat) (data : List Byte) : State := s.send (.sdo .plc idx sub a data)

/-- The PLC's mailbox is served: firmware runs and the ESM is in PREOP, SAFEOP or OP (R446). -/
def State.plcServed (s : State) : Bool := s.fwUp && (decide (s.ect.al = 2) || decide (s.ect.al = 4) || decide (s.ect.al = 8))

/-- The host mailbox is served: by firmware, or by the boot ROM in SAFE (R407). -/
def State.hostServed (s : State) : Bool := s.fwUp || s.inSafe

/-- The host's outstanding request is this one: OP 1 upload, 2 download. -/
def State.asked (s : State) (op idx sub : Nat) (ca : Bool) : Bool :=
  s.hostServed && s.flag F.PCI_DMB_STAT_BUSY && decide (s.fld F.PCI_DMB_CMD_OP = op) && decide (s.fld F.PCI_DMB_CMD_INDEX = idx)
    && decide (s.fld F.PCI_DMB_CMD_SUB = sub) && s.flag F.PCI_DMB_CMD_CA == ca

/-- The first `n` bytes of the data window. -/
def State.dmbWindow (s : State) (n : Nat) : List Byte :=
  ((List.range (ceilDiv n 4)).flatMap fun k => leBytes 4 (s.fld F.PCI_DMB_DATA k)).take n

def State.setSegs (s : State) (x : Option Segs) : State :=
  { s with ect := { s.ect with segs := match x with | some x => s.ect.segs.set 1 x | none => s.ect.segs.del 1 } }

/-- What a served download ends with: the abort code and the state, reset commands of 0x2000:02 to follow the answer (R447, R509). -/
def State.afterAnswer (s : State) (idx sub a : Nat) (bs : List Byte) : State :=
  if idx = 0x2000 ∧ sub = 2 ∧ a = 0 then
    (if s.inSafe then s.systemReset 1 .safeCommand
     else if bs = [2] then s.systemReset 1 .dictionary
     else if bs = [3] then s.systemReset 2 .dictionary
     else s)
  else s

/-- A download by the PLC. -/
def State.plcDownload (s : State) (idx sub : Nat) (ca : Bool) (bs : List Byte) : State :=
  let r := s.serveDownload .plc idx sub ca bs
  (r.2.answerPlc idx sub r.1 []).afterAnswer idx sub r.1 bs

/-- The bytes of a whole host download are there. -/
def State.hostRun (s : State) (idx sub : Nat) (ca : Bool) (bs : List Byte) : State :=
  let r := s.serveDownload .host idx sub ca bs
  (r.2.answerHost idx sub r.1 [] 0 0).afterAnswer idx sub r.1 bs

/-- Segments of a host download (R452): the first carries the total length, each next one goes on where the last ended. -/
def State.hostDownload (s : State) (idx sub : Nat) (ca : Bool) : State :=
  let total := s.fld F.PCI_DMB_LEN
  let off := s.fld F.PCI_DMB_OFF
  let refuse := fun (a : Nat) => (s.setSegs none).answerHost idx sub a [] 0 0
  if off = 0 then
    if total ≤ 4096 then (s.setSegs none).hostRun idx sub ca (s.dmbWindow total)
    else
      let a := if s.inSafe then 0 else if ca then 0 else s.odCheck .host idx sub total none
      if a ≠ 0 then refuse a
      else (s.setSegs (some ⟨idx, sub, total, s.dmbWindow 4096⟩)).answerHost idx sub 0 [] 0 0
  else match s.ect.segs.find? fun e => e.1 == 1 with
    | none => refuse aToggle
    | some (_, x) =>
      if x.idx ≠ idx ∨ x.sub ≠ sub ∨ x.data.length ≠ off then refuse aToggle
      else
        let data := x.data ++ s.dmbWindow (min 4096 (x.total - off))
        if x.total ≤ data.length then (s.setSegs none).hostRun idx sub ca data
        else (s.setSegs (some { x with data := data })).answerHost idx sub 0 [] 0 0

/-- A host upload: the segment at PCI_DMB_OFF into the data window. -/
def State.hostUpload (s : State) (idx sub : Nat) (ca : Bool) : State :=
  let off := s.fld F.PCI_DMB_OFF
  let r := s.serveUpload idx sub ca
  if r.1 ≠ 0 then r.2.2.answerHost idx sub r.1 [] 0 0
  else if r.2.1.length < off then r.2.2.answerHost idx sub aOther [] 0 0
  else
    let seg := (r.2.1.drop off).take 4096
    let s := (List.range (ceilDiv seg.length 4)).foldl (fun s k => s.setFld F.PCI_DMB_DATA (leAt seg (4 * k) 4) k) r.2.2
    (s.setFld F.PCI_DMB_LEN r.2.1.length).answerHost idx sub 0 seg seg.length (b2n (decide (off + seg.length < r.2.1.length)))

/-- A download on either path: the PLC's carries its bytes, the host's stand in its mailbox. -/
def State.download (s : State) (path : Path) (idx sub : Nat) (ca : Bool) (bs : List Byte) : State :=
  match path with
  | .plc => s.when s.plcServed fun s => (s.raise 187).plcDownload idx sub ca bs
  | .host => s.when (s.asked 2 idx sub ca) fun s => s.hostDownload idx sub ca

/-- An upload on either path. -/
def State.upload (s : State) (path : Path) (idx sub : Nat) (ca : Bool) : State :=
  match path with
  | .plc => s.when s.plcServed fun s => let r := (s.raise 187).serveUpload idx sub ca; r.2.2.answerPlc idx sub r.1 r.2.1
  | .host => s.when (s.asked 1 idx sub ca) fun s => s.hostUpload idx sub ca

def execSdoDownload (path : Path) (idx sub : Nat) (ca : Bool) (data : List Byte) (s : State) : Host.Outcome State Fault Refusal :=
  .next (s.download path idx sub ca data)

def execSdoUpload (path : Path) (idx sub : Nat) (ca : Bool) (s : State) : Host.Outcome State Fault Refusal := .next (s.upload path idx sub ca)

/-- PDO_MAP_WRITE (R449). -/
def execPdoMapWrite (path : Path) (idx sub : Nat) (ca : Bool) (data : List Byte) (s : State) : Host.Outcome State Fault Refusal :=
  .next (s.when (isMap idx) fun s => s.download path idx sub ca data)

/-! ### Commands that are one write -/

/-- ATTESTATION_COMMAND: 0x2800:05 := 1 (R440). -/
def execAttestationCommand (path : Path) (s : State) : Host.Outcome State Fault Refusal := .next (s.download path 0x2800 5 false [1])

/-- REKEY_COMMAND: 0x2800:05 := 2 (R434). -/
def execRekeyCommand (path : Path) (s : State) : Host.Outcome State Fault Refusal := .next (s.download path 0x2800 5 false [2])

/-- CHALLENGE_COMMAND: 0x2800:05 := 3 (R441). -/
def execChallengeCommand (path : Path) (s : State) : Host.Outcome State Fault Refusal := .next (s.download path 0x2800 5 false [3])

/-- UNLOCK_RESPONSE: a write of 0x2800:0A (R441). -/
def execUnlockResponse (path : Path) (data : List Byte) (s : State) : Host.Outcome State Fault Refusal :=
  .next (s.download path 0x2800 0xA false data)

/-- DEVICE_BINDOFF_COMMAND: 0x2000:02 := 1 (R447). -/
def execDeviceBindoffCommand (path : Path) (s : State) : Host.Outcome State Fault Refusal := .next (s.download path 0x2000 2 false [1])

/-- COLD_RESET_COMMAND: 0x2000:02 := 2 (R509). -/
def execColdResetCommand (path : Path) (s : State) : Host.Outcome State Fault Refusal := .next (s.download path 0x2000 2 false [2])

/-- WARM_RESET_COMMAND: 0x2000:02 := 3 (R509). -/
def execWarmResetCommand (path : Path) (s : State) : Host.Outcome State Fault Refusal := .next (s.download path 0x2000 2 false [3])

/-- ARM_COMMAND: 0x2000:02 := 4 (R446). -/
def execArmCommand (path : Path) (s : State) : Host.Outcome State Fault Refusal := .next (s.download path 0x2000 2 false [4])

/-- DISARM_COMMAND: 0x2000:02 := 5 (R446). -/
def execDisarmCommand (path : Path) (s : State) : Host.Outcome State Fault Refusal := .next (s.download path 0x2000 2 false [5])

/-- CHANNEL_ENABLE: a write of 0x2100 + n:01 (R458). -/
def execChannelEnable (path : Path) (n v : Nat) (s : State) : Host.Outcome State Fault Refusal :=
  .next (s.when (decide (n < 16)) fun s => s.download path (0x2100 + n) 1 false (leBytes 1 v))

/-- CAMERA_MAP_WRITE: a write of 0x2100 + n:1B (R459). -/
def execCameraMapWrite (path : Path) (n : Nat) (data : List Byte) (s : State) : Host.Outcome State Fault Refusal :=
  .next (s.when (decide (n < 16)) fun s => s.download path (0x2100 + n) 0x1B false data)

/-- BED_MAP_WRITE: a write of 0x2200:b+1 (R460). -/
def execBedMapWrite (path : Path) (b v : Nat) (s : State) : Host.Outcome State Fault Refusal :=
  .next (s.when (decide (b < 136)) fun s => s.download path 0x2200 (b + 1) false (leBytes 2 v))

/-- QUEUE_ENTRY_WRITE: a write of 0x2240:q+1 (R30). -/
def execQueueEntryWrite (path : Path) (q v : Nat) (s : State) : Host.Outcome State Fault Refusal :=
  .next (s.when (decide (q < 64)) fun s => s.download path 0x2240 (q + 1) false (leBytes 2 v))

/-- GAUGE_BED_COMMAND: 0x2300:03 := 1 (R494). -/
def execGaugeBedCommand (path : Path) (s : State) : Host.Outcome State Fault Refusal := .next (s.download path 0x2300 3 false [1])

/-- REPLAN_BED: 0x2310:04 := 1 (R493). -/
def execReplanBed (path : Path) (s : State) : Host.Outcome State Fault Refusal := .next (s.download path 0x2310 4 false [1])

/-- REPLAN_ALL: 0x2310:04 := 2 (R493). -/
def execReplanAll (path : Path) (s : State) : Host.Outcome State Fault Refusal := .next (s.download path 0x2310 4 false [2])

/-- RECORD_FIELD_REPAIRS: 0x2320:06 := 1 (R502). -/
def execRecordFieldRepairs (path : Path) (s : State) : Host.Outcome State Fault Refusal := .next (s.download path 0x2320 6 false [1])

/-- DISCARD_FIELD_RECORDS: 0x2320:06 := 2 (R502). -/
def execDiscardFieldRecords (path : Path) (s : State) : Host.Outcome State Fault Refusal := .next (s.download path 0x2320 6 false [2])

/-- ENTER_STANDBY: 0x2700:02 := 1 (R484). -/
def execEnterStandby (path : Path) (s : State) : Host.Outcome State Fault Refusal := .next (s.download path 0x2700 2 false [1])

/-- RETURN_TO_SERVICE: 0x2700:02 := 2 (R486). -/
def execReturnToService (path : Path) (s : State) : Host.Outcome State Fault Refusal := .next (s.download path 0x2700 2 false [2])

/-- CLEAR_COUNTERS: 0x2900:20 := 1 (R461). -/
def execClearCounters (path : Path) (s : State) : Host.Outcome State Fault Refusal := .next (s.download path 0x2900 0x20 false [1])

/-- SLOT_IMAGE_WRITE: a download to 0x3000 + k:01 (R462). -/
def execSlotImageWrite (path : Path) (k : Nat) (data : List Byte) (s : State) : Host.Outcome State Fault Refusal :=
  .next (s.when (decide (k < 64)) fun s => s.download path (0x3000 + k) 1 false data)

/-- VERIFY_AGAIN: 0x3000 + k:05 := 1 (R462). -/
def execVerifyAgain (path : Path) (k : Nat) (s : State) : Host.Outcome State Fault Refusal :=
  .next (s.when (decide (k < 64)) fun s => s.download path (0x3000 + k) 5 false [1])

/-- STORE_TO_FLASH: 0x3000 + k:05 := 2 (R404). -/
def execStoreToFlash (path : Path) (k : Nat) (s : State) : Host.Outcome State Fault Refusal :=
  .next (s.when (decide (k < 64)) fun s => s.download path (0x3000 + k) 5 false [2])

/-- CLEAR_SLOT: 0x3000 + k:05 := 3 (R462). -/
def execClearSlot (path : Path) (k : Nat) (s : State) : Host.Outcome State Fault Refusal :=
  .next (s.when (decide (k < 64)) fun s => s.download path (0x3000 + k) 5 false [3])

/-! ### FoE (R407, R444, R462) -/

/-- FoE error codes: not found, access denied, disk full. -/
def foeNotFound : Nat := 0x8001
def foeDenied : Nat := 0x8002
def foeFull : Nat := 0x8003

/-- An FoE write of file `file`: in SAFE stored to flash, else held and verified (R407, R462). -/
def State.foeWrite (s : State) (file : Nat) (data : List Byte) : Nat × State :=
  if !inRange 0x3000 64 file then (foeNotFound, s)
  else
    let k := file - 0x3000
    if s.inSafe then
      match s.slotStore k (leAt data 4 1) data with
      | some s => (0, s)
      | none => (foeFull, s)
    else if k = 0x3F then (foeDenied, s)
    else if 0x1000000 < data.length ∨ (512 * 1024 < data.length ∧ !s.ddrReady) then (foeFull, s)
    else (0, s.slotVerify k data true)

/-- FoE is served with CoE, and for writes in BOOT (R407, R446). -/
def State.foeServed (s : State) (wr : Bool) : Bool := s.plcServed || (wr && s.inSafe && decide (s.ect.al = 3))

def execFoeWrite (file : Nat) (data : List Byte) (s : State) : Host.Outcome State Fault Refusal :=
  .next (s.when (s.foeServed true) fun s => let r := s.foeWrite file data; r.2.send (.foe file r.1 []))

def execFoeRead (file : Nat) (s : State) : Host.Outcome State Fault Refusal :=
  .next (s.when (s.foeServed false) fun s =>
    let im := (s.slot (file - 0x3000)).image
    if !inRange 0x3000 64 file || im.isEmpty then s.send (.foe file foeNotFound []) else s.send (.foe file 0 im))

/-- R445: a mailbox request of an unsupported protocol is answered with the mailbox error "protocol not supported". -/
def execMailboxProtocolUnsupported (typ : Nat) (s : State) : Host.Outcome State Fault Refusal :=
  .next (s.when (s.plcServed && !([3, 4].contains typ)) fun s => (s.raise 187).send (.mbxError 2))

end Sys2Proof.Machine
end

