-- ==== Sys2Proof/Machine/Electrical.lean ====
section
/-!
DEFINITION. Sys2Proof/Machine/Electrical.lean: resets as events with their triggers, the reset inputs, supplies, the reference
clock and CORE_EN (R509 to R512, R523 to R527, R536).
-/
namespace Sys2Proof.Machine

/-! ### Reset levels with their triggers (R509) -/

/-- R510: a power-on reset. -/
def execPowerOnReset (s : State) : Host.Outcome State Fault Refusal := .next s.powerOnReset

/-- The triggers of a cold reset. -/
def coldTrig : Trig → Bool
  | .sysrst => true | .dictionary => true | .tmo => true | .thermal => true | .safeCommand => true | .refck => true
  | _ => false

/-- R510: a cold reset. -/
def execColdReset (t : Trig) (s : State) : Host.Outcome State Fault Refusal := .next (s.when (coldTrig t) fun s => s.systemReset 1 t)

/-- The triggers of a warm reset. -/
def warmTrig : Trig → Bool
  | .dictionary => true | .tmo => true | .restartFailed => true
  | _ => false

/-- R510: a warm reset. -/
def execWarmReset (t : Trig) (s : State) : Host.Outcome State Fault Refusal := .next (s.when (warmTrig t) fun s => s.systemReset 2 t)

/-- The triggers of a hook complex reset. -/
def hookTrig : Trig → Bool
  | .tmo => true | .noMajority => true | .threadWatchdog => true | .stageWatchdog => true
  | _ => false

/-- R511: a hook complex reset. -/
def execHookComplexReset (t : Trig) (s : State) : Host.Outcome State Fault Refusal := .next (s.when (hookTrig t) fun s => s.hookReset t)

/-- R512: a channel reset. -/
def execChannelReset (n : Nat) (s : State) : Host.Outcome State Fault Refusal :=
  .next (s.when (decide (n < 16)) fun s => s.channelReset n)

/-! ### Reset inputs (R525, R526, R536) -/

/-- The device drives CORE_EN. -/
def State.driveCore (s : State) (on : Bool) : State := { s.send (.coreEn on) with pwr := { s.pwr with coreEn := on } }

/-- R526, R525: PORST_L low: a power-on reset, and CORE_EN low. -/
def execPorstL (s : State) : Host.Outcome State Fault Refusal :=
  .next (s.when (!s.pwr.porst) fun s =>
    let s := s.powerOnReset.driveCore false
    { s with pwr := { s.pwr with porst := true } })

/-- R526: SYSRST_L low: a cold reset; a power-on reset that coincides is performed in its place. -/
def execSysrstL (s : State) : Host.Outcome State Fault Refusal :=
  .next (s.when (!s.pwr.sysrst) fun s =>
    let s := if s.pwr.porst then s else s.systemReset 1 .sysrst
    { s with pwr := { s.pwr with sysrst := true } })

/-- R536: PORST_L or SYSRST_L rises: the bifurcation straps are sampled. -/
def execResetInputRelease (por : Bool) (straps : Nat) (s : State) : Host.Outcome State Fault Refusal :=
  .next (s.when ((if por then s.pwr.porst else s.pwr.sysrst) && decide (straps < 4)) fun s =>
    let s := s.setFld F.PCI_STAT_BIF straps
    { s with pwr := if por then { s.pwr with porst := false } else { s.pwr with sysrst := false } })

/-! ### Supplies (R523, R524, R526, R527) -/

/-- The bit of PWR_SUPMON that records a supply; none for the always-on supplies. -/
def supplyBit : Supply → Option Fld
  | .vaonCore => none
  | .vaonIo => none
  | .vddCore => some F.PWR_SUPMON_COREUV
  | .corePg => some F.PWR_SUPMON_COREPG
  | .vddqDdr => some F.PWR_SUPMON_VDDQDDR
  | .vddaDdr => some F.PWR_SUPMON_VDDADDR
  | .vddSerdes => some F.PWR_SUPMON_VDDSERDES
  | .vddhSerdes => some F.PWR_SUPMON_VDDHSERDES
  | .vioGen => some F.PWR_SUPMON_VIOGEN
  | .vioSb => some F.PWR_SUPMON_VIOSB
  | .vioMii => some F.PWR_SUPMON_VIOMII

/-- Record a supply in PWR_SUPMON. -/
def State.noteSupply (s : State) (x : Supply) : State := match supplyBit x with | some f => s.setFld f 1 | none => s

/-- The supplies of steps 4 to 6, which CORE_EN brings up (R523). -/
def afterCoreEn : Supply → Bool
  | .vddCore => true | .corePg => true | .vddaDdr => true | .vddSerdes => true | .vddqDdr => true | .vddhSerdes => true
  | _ => false

/-- R526: a supply stays below its threshold for 2 µs: a power-on reset for the always-on supplies, else a cold reset with TRIG 1. A
supply that CORE_EN brings up is expected only while CORE_EN is high. -/
def execSupplyBelowThreshold (x : Supply) (s : State) : Host.Outcome State Fault Refusal :=
  .next (match supplyBit x with
    | none => s.powerOnReset
    | some _ => s.when (s.pwr.coreEn || !afterCoreEn x) fun s => (s.systemReset 1 .sysrst).noteSupply x)

/-- R523: 100 µs after PORST_L rises CORE_EN is driven high. -/
def execCoreEnRise (s : State) : Host.Outcome State Fault Refusal :=
  .next (s.when (!s.pwr.porst && !s.pwr.coreEn && !s.flag F.PWR_STAT_TRIP) fun s => s.driveCore true)

/-- R524: supplies of steps 4 to 6 that are not in range 50 ms after CORE_EN: CORE_EN low, and their record. -/
def execSupplyTimeout (missing : List Supply) (s : State) : Host.Outcome State Fault Refusal :=
  .next (s.when (s.pwr.coreEn && decide (s.fld F.TMO_CASTON_STAGE = 0) && !missing.isEmpty && missing.all afterCoreEn) fun s =>
    ((missing.foldl State.noteSupply s).driveCore false).driveSafe)

/-- R524: 100 ms later CORE_EN is driven high again. -/
def execCoreEnRetry (s : State) : Host.Outcome State Fault Refusal :=
  .next (s.when (!s.pwr.porst && !s.pwr.coreEn && !s.flag F.PWR_STAT_TRIP) fun s => s.driveCore true)

/-- R527's table: VDD_CORE above 0.90 V for 2 µs: CORE_OV, CORE_EN low, then a cold reset. -/
def execCoreOvervoltage (s : State) : Host.Outcome State Fault Refusal :=
  .next (s.when s.pwr.coreEn fun s => ((s.driveCore false).systemReset 1 .sysrst).setFld F.PWR_SUPMON_COREOV 1)

/-! ### The reference clock (R527) -/

/-- R527: REFCK absent for 16 periods of the 32.768 kHz clock: safe levels and a cold reset; the time base runs on that clock. -/
def execRefckLoss (s : State) : Host.Outcome State Fault Refusal :=
  .next (s.when (!s.tb.refLost) fun s =>
    let s := s.systemReset 1 .refck
    { s.setFld F.TBS_STAT_HOLDOVER 1 with tb := { s.tb with refLost := true, phase := 0 } })

/-- R527: REFCK present for 1 ms. A time base with no source leaves holdover (DEDUCED, notes/assumptions/31.md). -/
def execRefckReturn (s : State) : Host.Outcome State Fault Refusal :=
  .next (s.when s.tb.refLost fun s =>
    let s := { s with tb := { s.tb with refLost := false } }
    if s.fld F.TBS_CTRL_SRC = 1 ∨ s.fld F.TBS_CTRL_SRC = 2 then s else s.setFld F.TBS_STAT_HOLDOVER 0)

end Sys2Proof.Machine
end

