-- ==== Sys2Proof/Machine/Esm.lean ====
section
/-!
DEFINITION. Sys2Proof/Machine/Esm.lean: the EtherCAT state machine and process data (R29, R444 to R451, R458).
-/
namespace Sys2Proof.Machine

/-! ### Transitions (R446 to R448) -/

/-- The ESM is in a state, with an AL status code, 0 for none. -/
def State.setAl (s : State) (al code : Nat) : State :=
  ({ s with ect := { s.ect with al := al, alCode := code } }.send (.alStatus al code)).raise 188

/-- A requested transition is refused: the state stays (R446). -/
def State.refuseAl (s : State) (code : Nat) : State := s.setAl s.ect.al code

/-- Firmware acts on a transition: it runs, and no device bind-off that ends in a transition is under way. -/
def State.esmFree (s : State) : Bool := s.fwUp && (s.ect.bindoff.getD 0 == 0)

/-- INIT to PREOP; `smOk`: the SM0 and SM1 settings are valid. In SAFE the boot ROM refuses it (R407). -/
def State.toPreop (s : State) (smOk : Bool) : State :=
  if s.inSafe then s.refuseAl 0x0011
  else if !smOk then s.refuseAl 0x0016
  else ({ s with ect := { s.ect with leftInit := true } }).setAl 2 0

def execInitToPreop (smOk : Bool) (s : State) : Host.Outcome State Fault Refusal :=
  .next (s.when (decide (s.ect.al = 1) && (s.inSafe || s.esmFree)) fun s => s.toPreop smOk)

/-- The checks of enabled channels at PREOP to SAFEOP (R458): one that fails stays IDLE with status failed. -/
def State.checkEnabled (s : State) : State :=
  (List.range 16).foldl (fun s n =>
    if s.odv (0x2100 + n) 1 = 1 ∧ (s.chan n).st = .idle ∧ !s.runOk n then s.setOd (0x2100 + n) 2 3 else s) s

/-- PREOP to SAFEOP; `dcOk`: 0x1C32 and 0x1C33 are consistent with the DC settings. -/
def State.toSafeop (s : State) (dcOk : Bool) : State :=
  if !s.castOnDone then s.refuseAl 0x8002
  else if !s.mapsOk true then s.refuseAl 0x001D
  else if !s.mapsOk false then s.refuseAl 0x001E
  else if !dcOk then s.refuseAl 0x0030
  else ((s.setAl 4 0).settleAll).checkEnabled

def execPreopToSafeop (dcOk : Bool) (s : State) : Host.Outcome State Fault Refusal :=
  .next (s.when (decide (s.ect.al = 2) && (s.esmFree || (!s.castOnDone && s.ect.bindoff.isNone))) fun s => s.toSafeop dcOk)

/-- SAFEOP to OP: the run requests count from now on (R458), and firmware arms the outputs with 0x2000:06 = 1. -/
def State.toOp (s : State) : State :=
  if !s.mayOp then s.refuseAl 0x8001
  else
    let on := (List.range 16).filter fun n => s.odv (0x2100 + n) 1 = 1
    let s := ({ s with ect := { s.ect with runSeen := on } }).setAl 8 0
    if s.odv 0x2000 6 = 1 then s.fw F.TIO_ARM_ARMREQ 1 else s

def execSafeopToOp (s : State) : Host.Outcome State Fault Refusal :=
  .next (s.when (decide (s.ect.al = 4) && s.esmFree) State.toOp)

/-- What a fall to SAFEOP does to the outputs: 0x2000:07 = 1 disarms them (R71, R446). -/
def State.fallArm (s : State) : State := if s.odv 0x2000 7 = 1 then s.fw F.TIO_ARM_DISARM 1 else s

/-- OP to SAFEOP as requested: the RxPDO values stand as received last. -/
def execOpToSafeop (s : State) : Host.Outcome State Fault Refusal :=
  .next (s.when (decide (s.ect.al = 8) && s.esmFree) fun s => ((s.setAl 4 0).fallArm).settleAll)

/-- Each channel's fieldbus-loss policy: 1 binds the channel off (R14, R446, DEDUCED, notes/assumptions/85.md). -/
def State.fieldbusLoss (s : State) : State :=
  (List.range 16).foldl (fun s n =>
    if s.odv (0x2100 + n) 0x18 = 1 ∧ s.odv (0x2100 + n) 1 = 1 then s.dropEnable n else s) s

/-- OP to SAFEOP by the SM2 watchdog, with AL status 0x001B (R446, R503). -/
def execSm2Watchdog (s : State) : Host.Outcome State Fault Refusal :=
  .next (s.when (decide (s.ect.al = 8) && s.esmFree) fun s =>
    ((((s.bump F.TMO_CNT1_8).expiry.setAl 4 0x001B).fallArm).fieldbusLoss).settleAll)

/-- A fall to PREOP (2) or INIT (1): the device binds off, and the AL state changes when that ends. BOOT falls to INIT at once. -/
def State.fallTo (s : State) (t : Nat) : State :=
  if s.ect.al = 3 then s.setAl 1 0
  else if s.ect.bindoff.isSome then { s with ect := { s.ect with bindoff := some t } }
  else s.startDevBindoff t

def execDeviceBindoff (t : Nat) (s : State) : Host.Outcome State Fault Refusal :=
  .next (s.when ((decide (t = 2) && (decide (s.ect.al = 4) || decide (s.ect.al = 8)) && s.esmFree)
      || (decide (t = 1) && decide (s.ect.al ≠ 1) && (s.fwUp || decide (s.ect.al = 3)))) fun s => s.fallTo t)

/-- The device bind-off ends: every channel is IDLE and no output binds off; the outputs are disarmed (R446, R448). -/
def State.endDevBindoff (s : State) : State :=
  match s.ect.bindoff with
  | none => s
  | some t =>
    let cut := s.ect.cut
    let s := ({ s with ect := { s.ect with bindoff := none, cut := false } }.finish 0x2000 3 true).fw F.TIO_ARM_DISARM 1
    if t = 0 then s else s.setAl t (if cut then 0x8003 else 0)

def execDeviceBindoffEnd (s : State) : Host.Outcome State Fault Refusal :=
  .next (s.when (s.ect.bindoff.isSome && s.allIdle && s.fwUp && (List.range 64).all fun o => !(s.out o).bindoff) State.endDevBindoff)

/-- INIT to BOOT: in SAFE; otherwise refused (R407, R446). -/
def execInitToBoot (s : State) : Host.Outcome State Fault Refusal :=
  .next (s.when (decide (s.ect.al = 1) && (s.inSafe || s.fwUp)) fun s => if s.inSafe then s.setAl 3 0 else s.refuseAl 0x0011)

/-! ### Process data (R29, R450, R451) -/

/-- R451: result words 0 to 15 of a channel's result block. -/
def State.copyResults (s : State) (n : Nat) : State :=
  let a := s.odv (0x2100 + n) 0x1E
  if a = 0 then s else (List.range 16).foldl (fun s k => s.setOd (0x6000 + n) (5 + k) (s.peekNat (a + 4 * k) 4)) s

/-- The bytes of one entry of a TxPDO map: the value's low bits, padding 0 (R449). -/
def State.txEntry (s : State) (e : Nat) : List Byte × State :=
  let n := e % 256 / 8
  if e / 65536 = 0 then (leBytes n 0, s)
  else let (b, s) := s.odRead (e / 65536) (e / 256 % 256); (leBytes n (ofLeBytes b), s)

/-- R450: every mapped value of the cycle at one latch. -/
def State.latchInputs (s : State) : State :=
  let s := (List.range 16).foldl State.copyResults s
  let r := s.txMap.foldl (fun (a : List Byte × State) e => let x := a.2.txEntry e; (a.1 ++ x.1, x.2)) ([], s)
  { r.2 with ect := { r.2.ect with tx := r.1 } }.send (.txpdo r.1)

/-- INPUT_LATCH: inputs are valid in SAFEOP and OP; they are not refreshed while the complex restarts (R446, R511). -/
def execInputLatch (s : State) : Host.Outcome State Fault Refusal :=
  .next (s.when ((decide (s.ect.al = 4) || decide (s.ect.al = 8)) && s.fwUp) State.latchInputs)

/-- Received process data goes to the objects that its map names, in order (R29, R449). -/
def State.applyRx : List Nat → List Byte → State → State
  | [], _, s => s
  | e :: rest, bs, s =>
    let n := e % 256 / 8
    let s := if e / 65536 = 0 then s else s.setOd (e / 65536) (e / 256 % 256) (ofLeBytes (bs.take n))
    applyRx rest (bs.drop n) s

/-- R451: the command words of a channel as one 32-byte store. -/
def State.commandBlock (s : State) (n : Nat) : State :=
  let a := s.odv (0x2100 + n) 0x1F
  if a = 0 then s else s.store a ((List.range 8).flatMap fun k => leBytes 4 (s.odv (0x7000 + n) (2 + k)))

/-- SM2_EVENT: in OP the received outputs take effect, the command blocks are written, and run requests start or end RUN. -/
def execSm2Event (data : List Byte) (s : State) : Host.Outcome State Fault Refusal :=
  .next (s.when (decide (s.ect.al = 8) && s.fwUp) fun s =>
    let s := State.applyRx s.rxMap data { s with ect := { s.ect with rx := data } }
    ((List.range 16).foldl State.commandBlock s).settleAll)

/-! ### Distributed clocks and ports (R444, R455) -/

/-- DC_SYNC_EVENT: SYNC0 (0) or SYNC1 (1); `missed`: no SM2 event came in the cycle that ends (DEDUCED, notes/assumptions/86.md). -/
def State.dcSync (s : State) (k : Nat) (missed : Bool) : State :=
  let s := s.raise (189 + k)
  if k = 0 ∧ s.ect.al = 8 ∧ s.odv 0x1C32 1 = 2 ∧ s.fwUp then
    if missed then
      let m := s.ect.syncMiss + 1
      let s := ({ s with ect := { s.ect with syncMiss := m } }.setOd 0x1C32 0xB (min 65535 (s.odv 0x1C32 0xB + 1))).setOd 0x1C32 0x20 1
      if s.odv 0x10F1 2 ≤ m then s.emergency 0x8700 else s
    else { s with ect := { s.ect with syncMiss := 0 } }.setOd 0x1C32 0x20 0
  else s

def execDcSyncEvent (k : Nat) (missed : Bool) (s : State) : Host.Outcome State Fault Refusal :=
  .next (s.when (decide (k < 2)) fun s => s.dcSync k missed)

/-- ECT_PORT_LINK_CHANGE: a port without link closes into loopback (R444). -/
def execEctPortLinkChange (port : Nat) (up : Bool) (s : State) : Host.Outcome State Fault Refusal :=
  .next (s.when (decide (port < 2)) fun s =>
    let ps := s.ect.portUp.filter fun p => p != port
    { s with ect := { s.ect with portUp := if up then port :: ps else ps } }.send (.portLoop port (!up)))

end Sys2Proof.Machine
end

