-- ==== Sys2Proof/Machine/Flags.lean ====
section
/-!
DEFINITION. Sys2Proof/Machine/Flags.lean: the integer operations of the hook cores with N, Z, C, V (R245 to R252, R314) and the
conditions (R320).
-/
namespace Sys2Proof

/-- Size in bytes and bits. -/
def Sz.bytes : Sz → Nat
  | .b => 1 | .h => 2 | .w => 4 | .d => 8
def Sz.bits (z : Sz) : Nat := 8 * z.bytes

/-- The floating-point format an ESZ code selects (R302). -/
def Sz.fmt : Sz → Fmt
  | .b => .fp16 | .h => .bf16 | .w => .fp32 | .d => .fp64

/-- Bits of a vector length (R302). -/
def VLen.bits : VLen → Nat
  | .v4096 => 4096 | .v2048 => 2048 | .v1024 => 1024 | .v512 => 512

/-- MUL and DIV counts by size (R253, R315) and floating-point counts by format (R316). -/
def Sz.mulCount : Sz → Nat
  | .b => 1 | .h => 1 | .w => 2 | .d => 4
def Sz.divCount : Sz → Nat
  | .b => 3 | .h => 3 | .w => 4 | .d => 6
def Fmt.mulCount : Fmt → Nat
  | .fp16 => 1 | .bf16 => 1 | .fp32 => 2 | .fp64 => 4
def Fmt.divCount : Fmt → Nat
  | .fp16 => 3 | .bf16 => 3 | .fp32 => 4 | .fp64 => 6

namespace Machine

/-- The result of a hook integer operation: the w-bit result, C, V, and the sticky flags it raises. -/
structure IRes where
  r : Nat
  c : Bool
  v : Bool
  st : Nat
  deriving DecidableEq, Repr

/-- A result whose V stands in its flag mask. -/
def iresOf (p : Nat × Nat) (c : Bool) : IRes := ⟨p.1, c, decide (p.2 / fV % 2 = 1), p.2 % 32⟩

/-- A result that raises nothing. -/
def iresPlain (r : Nat) : IRes := ⟨r, false, false, 0⟩

/-- R252, ADD: C is the unsigned carry. -/
def iAdd (sat sg : Bool) (w a b : Nat) : IRes := iresOf (addI sat sg w a b) (decide (2 ^ w ≤ a % 2 ^ w + b % 2 ^ w))
/-- R252, SUB and CMP: C is the borrow. -/
def iSub (sat sg : Bool) (w a b : Nat) : IRes := iresOf (subI sat sg w a b) (decide (a % 2 ^ w < b % 2 ^ w))
/-- R252, NEG and ABS. -/
def iNeg (sat sg : Bool) (w a : Nat) : IRes := iresOf (negI sat sg w a) (decide (a % 2 ^ w ≠ 0))
def iAbs (sat : Bool) (w a : Nat) : IRes := iresOf (absI sat true w a) false
/-- R252, MUL: C when the unsigned product exceeds UMAX. -/
def iMul (sat sg : Bool) (w a b : Nat) : IRes := iresOf (mulI sat sg w a b) (decide (2 ^ w ≤ a % 2 ^ w * (b % 2 ^ w)))
/-- R246: MULH raises no flag; what a vector form makes of it, which writes no N, Z, C and V (R367). -/
def iMulh (sg : Bool) (w a b : Nat) : IRes := iresPlain (mulhI sg w a b)
/-- R248, R249. -/
def iDiv (sat sg : Bool) (w a b : Nat) : IRes := iresOf (divI sat sg w a b) false
def iRem (sg : Bool) (w a b : Nat) : IRes := iresOf (remI sg w a b) false

/-- R252: C of a shift by a count above 0: the last bit shifted out for counts to w; beyond, 0 or the sign for SAR. -/
def iShl (w a n : Nat) : IRes :=
  ⟨shlI w a n, decide (1 ≤ n ∧ n ≤ w) && (a % 2 ^ w).testBit (w - n), false, 0⟩
def iShr (w a n : Nat) : IRes :=
  ⟨shrI w a n, decide (1 ≤ n ∧ n ≤ w) && (a % 2 ^ w).testBit (n - 1), false, 0⟩
def iSar (w a n : Nat) : IRes :=
  ⟨sarI w a n, decide (1 ≤ n) && (a % 2 ^ w).testBit (min n w - 1), false, 0⟩

/-- The conditions of Bcc and CSEL (R320, table). -/
def condHolds (x : Thread) (cc : Nat) : Bool :=
  let n := x.sbit 4
  let z := x.sbit 5
  let c := x.sbit 6
  let v := x.sbit 7
  match cc with
  | 0 => z
  | 1 => !z
  | 2 => c
  | 3 => !c
  | 4 => n
  | 5 => !n
  | 6 => v
  | 7 => !v
  | 8 => !c && !z
  | 9 => c || z
  | 10 => n != v
  | 11 => n == v
  | 12 => !z && n == v
  | 13 => z || n != v
  | _ => true

/-- Write an integer result to rd with N, Z, C and V (R304, R252). -/
def putI (x : Thread) (w rd : Nat) (r : IRes) : Thread :=
  (x.setG rd (r.r % 2 ^ w)).setNZCV ((r.r % 2 ^ w).testBit (w - 1)) (decide (r.r % 2 ^ w = 0)) r.c r.v |>.sticky r.st

/-- The flags alone, as CMP writes them. -/
def putCmp (x : Thread) (w a b : Nat) : Thread :=
  let r := iSub false true w a b
  x.setNZCV ((r.r % 2 ^ w).testBit (w - 1)) (decide (r.r % 2 ^ w = 0)) r.c r.v

end Machine
end Sys2Proof
end

