-- ==== Sys2Proof/Machine/HookFp.lean ====
section
/-!
DEFINITION. Sys2Proof/Machine/HookFp.lean: the floating-point instructions of the hook cores and the register-vector
instructions (R314, R258 to R273, R366 to R368).
-/
namespace Sys2Proof.Machine

/-- A floating-point instruction with an f destination: the result in the format's bits with 0 above, and its sticky flags
(R304). -/
def State.hookFp (s : State) (a : HI) (m : Fmt) (srcs : List Nat) (fd count : Nat) (f : FCtl → Thread → Nat × Nat) :
    Host.Outcome State Fault Refusal :=
  .next (s.hookIssue a (fun _ => ⟨srcs.map .f, [.f fd], count, false⟩) fun s =>
    let x := s.th a.core a.thr
    let r := f x.fctl x
    .ok ((s.updTh a.core a.thr fun x => x.sticky r.2).setF a.core a.thr fd (r.1 % 2 ^ Fmt_w m)))

/-- The low bits of f`i` that a format occupies. -/
def fLow (x : Thread) (m : Fmt) (i : Nat) : Nat := x.f i % 2 ^ Fmt_w m

/-- FCMP and FCMPS: Z equal, N less, C greater, V unordered; NV for a signalling NaN, or for any NaN (R252). -/
def State.hookFcmp (s : State) (a : HI) (m : Fmt) (fa fb : Nat) (signal : Bool) : Host.Outcome State Fault Refusal :=
  s.hookReg a (fun _ => ⟨[.f fa, .f fb], [], 1, false⟩) fun x =>
    let p := fLow x m fa
    let q := fLow x m fb
    let o := cmpF x.fctl m p q
    let nv := if signal then isNaN m p || isNaN m q else isSNaN m p || isSNaN m q
    (x.setNZCV (o == .lt) (o == .eq) (o == .gt) (o == .un)).sticky (flagIf nv fNV)

/-- R316: FADD. -/
def execHFadd (a : HI) (m : Fmt) (fd fa fb : Nat) (s : State) : Host.Outcome State Fault Refusal :=
  s.hookFp a m [fa, fb] fd 1 fun c x => addF c m (fLow x m fa) (fLow x m fb)

/-- R316: FSUB. -/
def execHFsub (a : HI) (m : Fmt) (fd fa fb : Nat) (s : State) : Host.Outcome State Fault Refusal :=
  s.hookFp a m [fa, fb] fd 1 fun c x => subF c m (fLow x m fa) (fLow x m fb)

/-- R316: FMUL. -/
def execHFmul (a : HI) (m : Fmt) (fd fa fb : Nat) (s : State) : Host.Outcome State Fault Refusal :=
  s.hookFp a m [fa, fb] fd m.mulCount fun c x => mulF c m (fLow x m fa) (fLow x m fb)

/-- R316: FDIV. -/
def execHFdiv (a : HI) (m : Fmt) (fd fa fb : Nat) (s : State) : Host.Outcome State Fault Refusal :=
  s.hookFp a m [fa, fb] fd m.divCount fun c x => divF c m (fLow x m fa) (fLow x m fb)

/-- R316: FSQRT. -/
def execHFsqrt (a : HI) (m : Fmt) (fd fa : Nat) (s : State) : Host.Outcome State Fault Refusal :=
  s.hookFp a m [fa] fd m.divCount fun c x => sqrtF c m (fLow x m fa)

/-- R316: FMA, one rounding. -/
def execHFma (a : HI) (m : Fmt) (fd fa fb fc : Nat) (s : State) : Host.Outcome State Fault Refusal :=
  s.hookFp a m [fa, fb, fc] fd m.mulCount fun c x => fmaF c m false false (fLow x m fa) (fLow x m fb) (fLow x m fc)

/-- R316: FMS, one rounding. -/
def execHFms (a : HI) (m : Fmt) (fd fa fb fc : Nat) (s : State) : Host.Outcome State Fault Refusal :=
  s.hookFp a m [fa, fb, fc] fd m.mulCount fun c x => fmaF c m false true (fLow x m fa) (fLow x m fb) (fLow x m fc)

/-- R316: FNMA, one rounding. -/
def execHFnma (a : HI) (m : Fmt) (fd fa fb fc : Nat) (s : State) : Host.Outcome State Fault Refusal :=
  s.hookFp a m [fa, fb, fc] fd m.mulCount fun c x => fmaF c m true false (fLow x m fa) (fLow x m fb) (fLow x m fc)

/-- R316: FMIN. -/
def execHFmin (a : HI) (m : Fmt) (fd fa fb : Nat) (s : State) : Host.Outcome State Fault Refusal :=
  s.hookFp a m [fa, fb] fd 1 fun c x => minmaxF false c m (fLow x m fa) (fLow x m fb)

/-- R316: FMAX. -/
def execHFmax (a : HI) (m : Fmt) (fd fa fb : Nat) (s : State) : Host.Outcome State Fault Refusal :=
  s.hookFp a m [fa, fb] fd 1 fun c x => minmaxF true c m (fLow x m fa) (fLow x m fb)

/-- R252: FCMP. -/
def execHFcmp (a : HI) (m : Fmt) (fa fb : Nat) (s : State) : Host.Outcome State Fault Refusal := s.hookFcmp a m fa fb false

/-- R252: FCMPS. -/
def execHFcmps (a : HI) (m : Fmt) (fa fb : Nat) (s : State) : Host.Outcome State Fault Refusal := s.hookFcmp a m fa fb true

/-- R271: FCVT from the format of its format byte to that of ESZ. -/
def execHFcvt (a : HI) (m : Fmt) (fd fa : Nat) (g : Fmt) (s : State) : Host.Outcome State Fault Refusal :=
  s.hookFp a m [fa] fd 1 fun c x => cvtFF c g m (fLow x g fa)

/-- R272: FCVTI. -/
def execHFcvti (a : HI) (rd fa : Nat) (g : Fmt) (z : Sz) (sg sat : Bool) (s : State) : Host.Outcome State Fault Refusal :=
  s.hookReg a (fun x => ⟨[.f fa], [x.rg rd], 1, false⟩) fun x =>
    let r := cvtFI x.fctl g sat sg z.bits (fLow x g fa)
    (x.setG rd (r.1 % 2 ^ z.bits)).sticky r.2

/-- R273: ICVTF. -/
def execHIcvtf (a : HI) (m : Fmt) (fd ra : Nat) (z : Sz) (sg : Bool) (s : State) : Host.Outcome State Fault Refusal :=
  .next (s.hookIssue a (fun x => ⟨[x.rg ra], [.f fd], 1, false⟩) fun s =>
    let x := s.th a.core a.thr
    let r := cvtIF x.fctl m (toI sg z.bits (x.g ra))
    .ok ((s.updTh a.core a.thr fun x => x.sticky r.2).setF a.core a.thr fd (r.1 % 2 ^ Fmt_w m)))

/-- R316: FSGN copies, negates or clears the sign bit. -/
def execHFsgn (a : HI) (m : Fmt) (fd fa mode : Nat) (s : State) : Host.Outcome State Fault Refusal :=
  s.hookFp a m [fa] fd 1 fun _ x =>
    let b := fLow x m fa
    (if mode = 1 then negF m b else if mode = 2 then absF m b else b, 0)

/-! ### Register vectors -/

/-- Operands an opcode reads: one, two or three. -/
def VOp.arity : VOp → Nat
  | .neg => 1 | .abs => 1 | .not => 1 | .popc => 1 | .clz => 1 | .fsqrt => 1
  | .fma => 3 | .fms => 3 | .fnma => 3
  | _ => 2

/-- Integer division of elements. -/
def VOp.divides : VOp → Bool
  | .div => true | .divu => true | .rem => true | .remu => true
  | _ => false

/-- One element as the scalar instruction computes it, and the sticky flags it raises (R366). -/
def vElem (c : FCtl) (op : VOp) (z : Sz) (a b d : Nat) : Nat × Nat :=
  let w := z.bits
  let m := z.fmt
  let i := fun (r : IRes) => (r.r % 2 ^ w, r.st)
  let p := fun (n : Nat) => (n % 2 ^ w, 0)
  match op with
  | .add => i (iAdd false true w a b)
  | .sub => i (iSub false true w a b)
  | .neg => i (iNeg false true w a)
  | .abs => i (iAbs false w a)
  | .mul => i (iMul false true w a b)
  | .mulh => i (iMulh true w a b)
  | .mulhu => i (iMulh false w a b)
  | .div => i (iDiv false true w a b)
  | .divu => i (iDiv false false w a b)
  | .rem => i (iRem true w a b)
  | .remu => i (iRem false w a b)
  | .qadd => i (iAdd true true w a b)
  | .qaddu => i (iAdd true false w a b)
  | .qsub => i (iSub true true w a b)
  | .qsubu => i (iSub true false w a b)
  | .min => p (minOfI true w a b)
  | .max => p (maxOfI true w a b)
  | .minu => p (minOfI false w a b)
  | .maxu => p (maxOfI false w a b)
  | .and => p (a &&& b)
  | .or => p (a ||| b)
  | .xor => p (a ^^^ b)
  | .andn => p (a &&& notI w b)
  | .not => p (notI w a)
  | .shl => p (shlI w a b)
  | .shr => p (shrI w a b)
  | .sar => p (sarI w a b)
  | .rol => p (rolI w a b)
  | .ror => p (rorI w a b)
  | .popc => p (popcI w a)
  | .clz => p (clzI w a)
  | .fadd => addF c m a b
  | .fsub => subF c m a b
  | .fmul => mulF c m a b
  | .fdiv => divF c m a b
  | .fsqrt => sqrtF c m a
  | .fma => fmaF c m false false a b d
  | .fms => fmaF c m false true a b d
  | .fnma => fmaF c m true false a b d
  | .fmin => minmaxF false c m a b
  | .fmax => minmaxF true c m a b

/-- Elements of `w` bits, `n` of them, from a vector. -/
def vSplit (w : Nat) : Nat → Nat → List Nat
  | 0, _ => []
  | n + 1, v => v % 2 ^ w :: vSplit w n (v / 2 ^ w)

/-- A vector from its elements. -/
def vJoin (w : Nat) : List Nat → Nat
  | [] => 0
  | e :: t => e % 2 ^ w + 2 ^ w * vJoin w t

/-- The elements of a register-vector operation with their flags. -/
def vApply (c : FCtl) (op : VOp) (z : Sz) : List Nat → List Nat → List Nat → List (Nat × Nat)
  | a :: as, b :: bs, d :: ds => vElem c op z a b d :: vApply c op z as bs ds
  | _, _, _ => []

/-- R366 to R368: a register-vector instruction writes VL bits and the OR of its elements' flags; an enabled zero divisor faults
with nothing written. -/
def execRegisterVectorInstruction (a : HI) (op : VOp) (z : Sz) (vl : VLen) (vd va vb vc : Nat) (s : State) :
    Host.Outcome State Fault Refusal :=
  let srcs := [va, vb, vc].take (VOp.arity op)
  .next (s.hookIssue a (fun _ => ⟨srcs.map .v, [.v vd], vl.bits / 256, false⟩) fun s =>
    let x := s.th a.core a.thr
    let n := vl.bits / z.bits
    let el := fun (k : Nat) => vSplit z.bits n (x.v k)
    let rs := vApply x.fctl op z (el va) (el vb) (el vc)
    if VOp.divides op && x.sbit 19 && (el vb).any (· == 0) then .fault s (exc 8 0 (s.insAddr a) 0)
    else
      .ok ((s.updTh a.core a.thr fun x => x.sticky (rs.foldl (fun m r => m ||| r.2) 0)).setV a.core a.thr vd vl.bits
        (vJoin z.bits (rs.map (·.1)))))

end Sys2Proof.Machine
end

