-- ==== Sys2Proof/Machine/Operands.lean ====
section
/-!
DEFINITION. Sys2Proof/Machine/Operands.lean: memory operands of hook instructions: the effective address, the base writeback and
the capability register they use (R306, R307).
-/
namespace Sys2Proof.Machine

/-- R306: the effective address of an access of `n` bytes. -/
def eaOf (x : Thread) (m : MOp) (n : Nat) : Nat :=
  let a := capAddr (x.c m.cap)
  match m.form with
  | .base => (a + m.disp.toNat) % 2 ^ 64
  | .index => (a + x.g m.index * 2 ^ m.scale + m.disp.toNat) % 2 ^ 64
  | .postInc => a
  | .preDec => (a + 2 ^ 64 - n) % 2 ^ 64

/-- R307: the base writeback of post-increment and pre-decrement, under the address-setting rule. -/
def writeback (x : Thread) (m : MOp) (n : Nat) : Thread :=
  let a := capAddr (x.c m.cap)
  match m.form with
  | .postInc => x.setC m.cap (capSetAddr (x.c m.cap) (a + n))
  | .preDec => x.setC m.cap (capSetAddr (x.c m.cap) (a + 2 ^ 64 - n))
  | _ => x

/-- The registers a memory operand reads. -/
def mUses (x : Thread) (m : MOp) : List HReg :=
  x.rc m.cap :: (if m.form = .index then [x.rg m.index] else [])

/-- The registers a memory operand writes. -/
def mWrites (x : Thread) (m : MOp) : List HReg :=
  if m.form = .postInc ∨ m.form = .preDec then [x.rc m.cap] else []

end Sys2Proof.Machine
end

