-- ==== Sys2Proof/Machine/HookSys.lean ====
section
/-!
DEFINITION. Sys2Proof/Machine/HookSys.lean: branches, gate calls, system registers, WAIT, BRK and the barriers of SPLIT and MERGE
(R319, R320 to R325, R358 to R362). Those that reach memory are in HookCall.lean.
-/
namespace Sys2Proof.Machine

/-! ### Transfers (R319) -/

/-- R319: a transfer to `target` by changing PCAP's address; the target must lie within PCAP's bounds. -/
def State.jump (s : State) (a : HI) (target : Nat) : HOut :=
  let p := (s.th a.core a.thr).pcap
  if capCovers p target 1 then .ok (s.updTh a.core a.thr fun x => { x with pcap := capSetAddr p target })
  else .fault s (exc 4 4 (s.insAddr a) 0)

/-- The code of a capability that does not allow use `perm` at [a, a + n), 0 where it does (R308, R319). -/
def capCode (c : CapV) (perm a n : Nat) : Nat :=
  if !c.tag then 1 else if capOtype c ≠ 0 then 2 else if !(capPerms c).testBit perm then 3
  else if !capCovers c a n then 4 else 0

/-- A capability fault at an instruction, with the permission bit as DETAIL for code 3 (R343). -/
def capFault (code perm at' : Nat) : Exc := exc 4 code at' (if code = 3 then perm else 0)

/-- R319: install a c register as PCAP. -/
def State.jumpCap (s : State) (a : HI) (c : CapV) : HOut :=
  let code := capCode c pExecute (capAddr c) 1
  if code = 0 then .ok (s.updTh a.core a.thr fun x => { x with pcap := c })
  else .fault s (capFault code pExecute (s.insAddr a))

/-- A branch by a displacement from the first byte after it. -/
def State.branch (s : State) (a : HI) (rel : DWord) : HOut :=
  s.jump a ((capAddr (s.th a.core a.thr).pcap + rel.toNat) % 2 ^ 64)

/-- R319: BR. -/
def execHBr (a : HI) (rel : DWord) (s : State) : Host.Outcome State Fault Refusal :=
  .next (s.hookIssue a (fun _ => ⟨[], [], 2, false⟩) fun s => s.branch a rel)

/-- R319: Bcc. -/
def execHBcc (a : HI) (cc : Nat) (rel : DWord) (s : State) : Host.Outcome State Fault Refusal :=
  .next (s.hookIssue a (fun x => ⟨[], [], if condHolds x cc then 2 else 1, false⟩) fun s =>
    if condHolds (s.th a.core a.thr) cc then s.branch a rel else .ok s)

/-- R319: CBZ and CBNZ. The count of their read of g is that of a branch not taken or taken. -/
def State.cbranch (s : State) (a : HI) (rn : Nat) (rel : DWord) (zero : Bool) : State :=
  s.hookIssue a (fun x => ⟨[x.rg rn], [], 1, false⟩) fun s =>
    if decide ((s.th a.core a.thr).g rn = 0) = zero then s.branch a rel else .ok s

/-- R319: CBZ. -/
def execHCbz (a : HI) (rn : Nat) (rel : DWord) (s : State) : Host.Outcome State Fault Refusal := .next (s.cbranch a rn rel true)

/-- R319: CBNZ. -/
def execHCbnz (a : HI) (rn : Nat) (rel : DWord) (s : State) : Host.Outcome State Fault Refusal := .next (s.cbranch a rn rel false)

/-- R319: JR. -/
def execHJr (a : HI) (cn : Nat) (s : State) : Host.Outcome State Fault Refusal :=
  .next (s.hookIssue a (fun x => ⟨[x.rc cn], [], 2, false⟩) fun s => s.jumpCap a ((s.th a.core a.thr).c cn))

/-! ### System registers (R322, R323, R341) -/

/-- Whether a system register is of class c. -/
def SReg.isCap : SReg → Bool
  | .stat => false
  | .sstat => false
  | _ => true

/-- Whether MFS and MTS of it need System (R322). -/
def SReg.needsSystem : SReg → Bool
  | .pcap => false
  | .stat => false
  | _ => true

/-- A system register of class c. -/
def SReg.capOf (x : Thread) : SReg → CapV
  | .pcap => x.pcap
  | .sscap => x.sscap
  | .vtab => x.vtab
  | .slink => x.slink
  | .wspc => x.bank.wspc
  | .gateC n => x.gates.get n capNull
  | .gateD n => x.gates.get (8 + n) capNull
  | .stat => capNull
  | .sstat => capNull

/-- R322: MFS. PCAP reads with the address of the MFS. -/
def execHMfs (a : HI) (d : Nat) (r : SReg) (s : State) : Host.Outcome State Fault Refusal :=
  .next (s.hookIssue a (fun x => ⟨[], [if SReg.isCap r then x.rc d else x.rg d], 1, SReg.needsSystem r⟩) fun s =>
    .ok (s.updTh a.core a.thr fun x =>
      match r with
      | .stat => x.setG d x.stat.toNat
      | .sstat => x.setG d x.sstat.toNat
      | .pcap => x.setC d (capSetAddr x.pcap (s.insAddr a))
      | r => x.setC d (SReg.capOf x r)))

/-- STAT as MTS writes it (R341): LEVEL and reserved bits keep, GA and FU need System, RM ignores 5 to 7. -/
def statWrite (old v : Nat) (system : Bool) : Nat :=
  let put := fun (o hi lo : Nat) => putBits o hi lo (bitsOf v hi lo)
  let o := put old 13 4
  let o := if bitsOf v 16 14 < 5 then put o 16 14 else o
  let o := put o 20 17
  if system then put o 23 22 else o

/-- STAT as SRET and RETX load it: reserved bits are 0 (R354), a rounding mode of 5 to 7 keeps the old one (R341). -/
def statLoad (old v : Nat) : Nat :=
  let v := putBits v 63 24 0
  let v := putBits v 21 21 0
  if bitsOf v 16 14 < 5 then v else putBits v 16 14 (bitsOf old 16 14)

/-- R322, R323: MTS. -/
def execHMts (a : HI) (r : SReg) (n : Nat) (s : State) : Host.Outcome State Fault Refusal :=
  .next (s.hookIssue a (fun x => ⟨[if SReg.isCap r then x.rc n else x.rg n], [], 1, SReg.needsSystem r⟩) fun s =>
    .ok (s.updTh a.core a.thr fun x =>
      match r with
      | .stat => { x with stat := BitVec.ofNat 64 (statWrite x.stat.toNat (x.g n) ((capPerms x.pcap).testBit pSystem)) }
      | .sstat => { x with sstat := BitVec.ofNat 64 (x.g n) }
      | .sscap => { x with sscap := x.c n }
      | .vtab => { x with vtab := x.c n }
      | .slink => { x with slink := x.c n }
      | .wspc => x.updBank fun b => { b with wspc := x.c n }
      | .gateC k => { x with gates := x.gates.set k (x.c n) }
      | .gateD k => { x with gates := x.gates.set (8 + k) (x.c n) }
      | .pcap => x))

/-! ### Gate calls (R358 to R362) -/

/-- R358: whether gate `n` is valid. -/
def gateValid (x : Thread) (n : Nat) : Bool :=
  let c := x.gates.get n capNull
  let d := x.gates.get (8 + n) capNull
  c.tag && d.tag && decide (capOtype c ≠ 0 ∧ capOtype c = capOtype d) && (capPerms c).testBit pExecute

/-- The unsealed pair of gate `n`. -/
def gateCode (x : Thread) (n : Nat) : CapV := capWithOtype (x.gates.get n capNull) 0 true
def gateData (x : Thread) (n : Nat) : CapV := capWithOtype (x.gates.get (8 + n) capNull) 0 true

/-- R359, R360: SCALL. -/
def execHScall (a : HI) (n : Nat) (s : State) : Host.Outcome State Fault Refusal :=
  .next (s.hookIssue a (fun x => ⟨[], [x.rc 13], 4, false⟩) fun s =>
    let x := s.th a.core a.thr
    if !gateValid x n then .fault s (exc 4 6 (s.insAddr a) 0)
    else if x.sbit 23 then .fault s (exc 4 7 (s.insAddr a) 0)
    else
      .ok (s.updTh a.core a.thr fun x =>
        ({ x with slink := x.pcap, sstat := x.stat, pcap := gateCode x n }.setC 13 (gateData x n)).setSbits 23 23 1))

/-- R361: SRET. -/
def execHSret (a : HI) (s : State) : Host.Outcome State Fault Refusal :=
  .next (s.hookIssue a (fun x => ⟨[], [x.rc 13], 3, false⟩) fun s =>
    let x := s.th a.core a.thr
    if !x.sbit 23 || !capHas x.slink pExecute then .fault s (exc 4 8 (s.insAddr a) 0)
    else
      .ok (s.updTh a.core a.thr fun x =>
        -- LEVEL never changes but by entry and RETX (R341)
        let st := putBits (putBits (statLoad x.stat.toNat x.sstat.toNat) 23 23 0) 3 0 x.lvl
        let x := { x with pcap := x.slink, stat := BitVec.ofNat 64 st }
        x.setC 13 ⟨(x.c 13).bits, false⟩))

/-! ### WAIT, BRK and the barriers -/

/-- The halt of a thread (R324, R356): STATE, LLHALT and the record of the exception that could not be entered. -/
def State.haltThread (s : State) (c t : Nat) (e : Exc) : State :=
  let l := (s.th c t).lvl
  let s := s.updTh c t fun x => { x with st := .halted, fault := none, esc := none }
  let s := s.setFld F.HKC_T_STAT_LLHALT 1 c t
  let s := s.setReg ⟨.HKC_T_HALT, c, t⟩
    (BitVec.ofNat 32 (e.vec * 2 ^ 24 + e.esc * 2 ^ 16 + e.code * 256 + l * 16 + 1))
  s.setPair F.HKC_T_HALTA_LO F.HKC_T_HALTA_HI e.faddr c t

/-- R324: WAIT makes the thread idle; at level 8 it halts. -/
def execHWait (a : HI) (s : State) : Host.Outcome State Fault Refusal :=
  .next (s.hookIssue a (fun _ => ⟨[], [], 1, false⟩) fun s =>
    if (s.th a.core a.thr).lvl = 8 then .ok (s.haltThread a.core a.thr (exc 0 0 0 0))
    else .ok (s.updTh a.core a.thr fun x => { x with st := .idle }))

/-- R321: BRK; imm8 is the DETAIL. -/
def execHBrk (a : HI) (imm : Nat) (s : State) : Host.Outcome State Fault Refusal :=
  .next (s.hookIssue a (fun _ => ⟨[], [], 1, false⟩) fun s => .fault s (exc 13 0 (s.insAddr a) imm))

/-- Arrival at a barrier; in the other mode the instruction is undefined (R325, R344). -/
def State.arrive (s : State) (a : HI) (b : Barrier) (legal : Bool) : State :=
  s.hookIssue a (fun _ => ⟨[], [], 1, legal⟩) fun s =>
    if !legal then .fault s (exc 3 0 (s.insAddr a) 0)
    else .ok (s.updTh a.core a.thr fun x => { x with st := .idle, barrier := some b })

/-- R325: SPLIT. -/
def execHSplit (a : HI) (s : State) : Host.Outcome State Fault Refusal := .next (s.arrive a .split s.voted)

/-- R325: MERGE. -/
def execHMerge (a : HI) (s : State) : Host.Outcome State Fault Refusal := .next (s.arrive a .merge !s.voted)

end Sys2Proof.Machine
end

