-- ==== Sys2Proof/Machine/HookMem.lean ====
section
/-!
DEFINITION. Sys2Proof/Machine/HookMem.lean: a hook thread's accesses to memory and registers: their checks, the store buffer and
its forwarding, outstanding loads, and the load and store instructions (R282 to R284, R291 to R294, R306 to R313, R357, R369 to R371).
-/
namespace Sys2Proof.Machine

/-! ### Checks (R308, R309, R311, R312, R339, R357) -/

/-- The control-register range of R309. -/
def inCtrl (a : Nat) : Bool := decide (0x10000000 ≤ a ∧ a < 0x20000000)

/-- R357: an access that the lifeline region refuses: from a level below 8, from another thread, or through port B. -/
def lifelineBad (core thr lvl ea : Nat) : Bool :=
  let o := ea - 0x2000000
  decide (0x3C000 ≤ o % 0x40000) &&
    !(decide (lvl = 8) && decide (o / 0x40000 = core) && decide ((o % 0x40000 - 0x3C000) / 0x1000 = thr))

/-- R147: an STC that the submission window or the pin slot takes with its tag: at offset 0x00 or 0x10 of either. -/
def plqCapAt (ea : Nat) : Bool :=
  match Reg.ofAddr ea with
  | some r => (decide (r.kind = .PLQ_SUB) || decide (r.kind = .PLQ_PIN)) && (decide (r.j = 0) || decide (r.j = 4))
  | none => false

/-- An access of a hook instruction: its capability, address, size, the permissions it needs, the value of a store, whether it is a
register-vector transfer, and whether it is CAS. -/
structure Acc where
  cap : CapV
  ea : Nat
  n : Nat
  perms : List Nat
  wr : Option Nat
  vec : Bool
  cas : Bool

/-- Check 4: alignment. -/
def State.accAlign (s : State) (q : Acc) : Bool :=
  decide (q.ea % q.n = 0) && !(inCtrl q.ea && decide (q.n ≠ 4) && !(q.wr.isSome && decide (q.n = 16) && plqCapAt q.ea)) &&
    !(q.vec && decide (s.regionOf q.ea = .rom))

/-- Check 5: the range accepts the access. -/
def State.accPlace (s : State) (core thr lvl : Nat) (q : Acc) : Bool :=
  match s.regionOfRange q.ea q.n with
  | .reserved => false
  | .rom => q.wr.isNone && !q.cas
  | .tcm => !lifelineBad core thr lvl q.ea
  | .sram => !(q.wr.isSome && s.inFwWindow q.ea q.n)
  | _ => !q.cas

/-- R308: the first check that an access fails, as its exception. -/
def State.accFault (s : State) (core thr : Nat) (q : Acc) : Option Exc :=
  let f := fun (vec code d : Nat) => some (exc vec code q.ea d)
  let p : BitVec 13 := BitVec.ofNat 13 (capPerms q.cap)
  if !q.cap.tag then f 4 1 0
  else if capOtype q.cap ≠ 0 then f 4 2 0
  else match q.perms.find? fun k => !(capPerms q.cap).testBit k with
    | some k => f 4 3 k
    | none =>
      match (match q.wr with | some v => if inCtrl q.ea then s.regDenied p q.ea (BitVec.ofNat 32 v) else none | none => none) with
      | some (code, d) => f 4 code d
      | none =>
        if !capCovers q.cap q.ea q.n then f 4 4 0
        else if !s.accAlign q then f 5 0 0
        else if !s.accPlace core thr (s.th core thr).lvl q then f 6 0 0
        else none

/-! ### The store buffer (R292) -/

/-- Whether the entry holds bytes of memory, and the byte it holds for address `k`. -/
def SbEntry.byteFor (e : SbEntry) (k : Nat) : Option Byte :=
  if !e.ctrl && decide (e.addr ≤ k) && decide (k < e.addr + 16) && e.be.toNat.testBit (k - e.addr) then
    some (BitVec.ofNat 8 (e.data.toNat / 2 ^ (8 * (k - e.addr))))
  else none

/-- The youngest buffered byte for address `k` (R293). -/
def fwdByte (sb : List SbEntry) (k : Nat) : Option Byte :=
  sb.foldl (fun o e => match SbEntry.byteFor e k with | some b => some b | none => o) none

/-- Whether an entry meets [a, a + n). -/
def SbEntry.meets (e : SbEntry) (a n : Nat) : Bool := (List.range n).any fun k => (SbEntry.byteFor e (a + k)).isSome

/-- Runs of bytes that are present, with their addresses. -/
def byteRuns : List (Option Byte) → Nat → Option (Nat × List Byte) → List (Nat × List Byte)
  | [], _, cur => cur.toList
  | some b :: t, a, none => byteRuns t (a + 1) (some (a, [b]))
  | some b :: t, a, some (x, bs) => byteRuns t (a + 1) (some (x, bs ++ [b]))
  | none :: t, a, cur => cur.toList ++ byteRuns t (a + 1) none

/-- A capability store into the submission window or a pin slot: its words and its tag (R147). -/
def State.storePlqCap (s : State) (who : Who) (a : Nat) (bits : Quad) (tag : Bool) : State :=
  let s := (List.range 4).foldl (fun s k => s.storeAddr who (a + 4 * k) (BitVec.ofNat 32 (bits.toNat / 2 ^ (32 * k)))) s
  match Reg.ofAddr a with
  | none => s
  | some r =>
    let x := s.plq r.i
    let put := fun (t : Bool × Bool) => if r.j = 0 then (tag, t.2) else (t.1, tag)
    if r.kind = .PLQ_SUB then s.setPlq r.i { x with winTag := put x.winTag }
    else if s.flag F.PLQ_CTRL_PINEN r.i then s
    else s.setPlq r.i { x with pinTag := put x.pinTag }

/-- A store reaches its target. -/
def State.performStore (s : State) (core thr : Nat) (e : SbEntry) : State :=
  if e.ctrl then
    (if e.be = 0xFFFF then s.storePlqCap (.hook core thr e.perms) e.addr e.data e.tag
     else s.storeAddr (.hook core thr e.perms) e.addr (BitVec.ofNat 32 e.data.toNat))
  else if e.tag && decide (e.be = 0xFFFF) then s.storeCap e.addr e.data true
  else
    (byteRuns ((List.range 16).map fun k => SbEntry.byteFor e (e.addr + k)) e.addr none).foldl (fun s r => s.store r.1 r.2) s

/-- The oldest entry of a thread drains. -/
def State.drainOldest (s : State) (c t : Nat) : State :=
  match (s.th c t).sb with
  | [] => s
  | e :: rest => (s.updTh c t fun x => { x with sb := rest }).performStore c t e

/-- `n` entries drain. -/
def State.drainN (s : State) (c t : Nat) : Nat → State
  | 0 => s
  | n + 1 => (s.drainOldest c t).drainN c t n

/-- Every buffered store reaches its target. -/
def State.drainAll (s : State) (c t : Nat) : State := s.drainN c t (s.th c t).sb.length

/-- Stores drain in order until none that satisfies `p` is left. -/
def State.drainThrough (s : State) (c t : Nat) (p : SbEntry → Bool) : State :=
  let sb := (s.th c t).sb
  s.drainN c t (match sb.reverse.findIdx? p with | some k => sb.length - k | none => 0)

/-- Whether a new entry merges into the youngest one (R292). -/
def mergesWith (y e : SbEntry) : Bool := !y.ctrl && !e.ctrl && !y.frame && !e.frame && decide (y.addr = e.addr)

/-- The merged entry: the newer bytes stand; a store that is no whole capability clears the tag (R311). -/
def mergeSb (y e : SbEntry) : SbEntry :=
  let pick := fun (k : Nat) => if e.be.toNat.testBit k then e.data.toNat / 2 ^ (8 * k) % 256 else y.data.toNat / 2 ^ (8 * k) % 256
  { e with
    data := BitVec.ofNat 128 ((List.range 16).foldl (fun v k => v + pick k * 2 ^ (8 * k)) 0)
    be := y.be ||| e.be
    tag := e.tag && decide (e.be = 0xFFFF)
    idem := y.idem && e.idem }

/-- A store enters the buffer; a full one drains its oldest entry first. -/
def State.enterStore (s : State) (c t : Nat) (e : SbEntry) : State :=
  match (s.th c t).sb.getLast? with
  | some y =>
    if mergesWith y e then s.updTh c t fun x => { x with sb := x.sb.dropLast ++ [mergeSb y e] }
    else
      let s := if 8 ≤ ((s.th c t).sb.filter fun e => !e.frame).length then
          s.drainThrough c t fun e' => decide (some e' = ((s.th c t).sb.find? fun e => !e.frame))
        else s
      s.updTh c t fun x => { x with sb := x.sb ++ [e] }
  | none => s.updTh c t fun x => { x with sb := [e] }

/-- R294: a store that meets the 64 bytes from the next instruction on is a prefetch hit. -/
def State.notePrefetch (s : State) (c t a n : Nat) : State :=
  let p := capAddr (s.th c t).pcap
  if a < p + 64 ∧ p < a + n then s.bump F.HKC_T_EVCNT_16 c 1 t else s

/-- The bytes of a checked store of at most 16 enter the buffer. -/
def State.bufStore (s : State) (c t : Nat) (cap : CapV) (ea n v : Nat) (tag : Bool) : State :=
  let ctrl := inCtrl ea
  let g := ea / 16 * 16
  let p : BitVec 13 := BitVec.ofNat 13 (capPerms cap)
  let e : SbEntry :=
    if ctrl then ⟨ea, BitVec.ofNat 128 v, if n = 16 then 0xFFFF else 0xF, tag, true, p, false, false⟩
    else ⟨g, BitVec.ofNat 128 (v % 2 ^ (8 * n) * 2 ^ (8 * (ea - g))), BitVec.ofNat 16 ((2 ^ n - 1) * 2 ^ (ea - g)), tag, false, p,
      (capPerms cap).testBit pIdem, false⟩
  (s.notePrefetch c t ea n).enterStore c t e

/-! ### Loads (R293) -/

/-- What a load brings: the value, poison, the tag, the state after. -/
structure Got where
  v : Nat
  poison : Bool
  tag : Bool
  s : State

/-- The address of the thread's own HKC_Tt_FPST. -/
def ownFpst (c t : Nat) : Nat := Reg.addr ⟨.HKC_T_FPST, c, t⟩

/-- R373: the thread's load of its own HKC_Tt_FPST waits for its outstanding loads of f and v. -/
def State.fpstWait (s : State) (c t ea : Nat) : State :=
  if ea = ownFpst c t then s.settle c t fun l => match l.dest with | some d => d.isFp | none => false else s

/-- A load from a control register: every earlier store without Idempotent has reached its target. -/
def State.getCtrl (s : State) (c t : Nat) (cap : CapV) (ea : Nat) : Got :=
  let s := (s.drainThrough c t fun e => !e.idem).fpstWait c t ea
  match Reg.ofAddr ea with
  | none => ⟨0, false, false, s⟩
  | some r =>
    let (v, s) := s.loadReg (.hook c t (BitVec.ofNat 13 (capPerms cap))) r
    ⟨v.toNat, false, false, s⟩

/-- The stores that a load waits for (R293). -/
def State.beforeLoad (s : State) (c t : Nat) (cap : CapV) (ea n : Nat) : State :=
  let sb := (s.th c t).sb
  let any := sb.any fun e => SbEntry.meets e ea n
  let all := (List.range n).all fun k => (fwdByte sb (ea + k)).isSome
  if (capPerms cap).testBit pIdem then
    let r := s.regionOf ea
    if any && !all && (decide (r = .stash) || decide (r = .ddr)) then s.drainThrough c t fun e => SbEntry.meets e ea n else s
  else s.drainThrough c t fun e => !e.idem || (!e.ctrl && decide (e.addr < ea + n ∧ ea < e.addr + 16))

/-- The tag that LDC reads: of the youngest buffered store to the granule, else of memory (R311). -/
def State.tagSeen (s : State) (c t ea : Nat) : Bool :=
  match s.regionOf ea with
  | .stash => false
  | .rom => false
  | _ => (s.th c t).sb.foldl (fun g e => if SbEntry.meets e ea 16 then e.tag && decide (e.be = 0xFFFF) else g) (s.tagAt ea)

/-- A checked load of `n` bytes. -/
def State.getMem (s : State) (c t : Nat) (cap : CapV) (ea n : Nat) : Got :=
  if inCtrl ea then s.getCtrl c t cap ea
  else
    let s := s.beforeLoad c t cap ea n
    let sb := (s.th c t).sb
    let tag := decide (n = 16) && s.tagSeen c t ea
    if (List.range n).all fun k => (fwdByte sb (ea + k)).isSome then
      ⟨ofLeBytes ((List.range n).map fun k => (fwdByte sb (ea + k)).getD 0), false, tag, s⟩
    else
      let (bs, p, s) := s.load ea n
      ⟨ofLeBytes ((List.range n).map fun k => (fwdByte sb (ea + k)).getD (bs.getD k 0)), p, tag, s⟩

/-- R283: the data of an outstanding load that is past its delay slot arrives. -/
def execLoadDataArrival (core thr k : Nat) (s : State) : Host.Outcome State Fault Refusal :=
  .next (s.when (s.coreLive core && decide (thr < 4)) fun s =>
    match (s.th core thr).loads[k]? with
    | none => s
    | some l =>
      if l.slot then s
      else (s.updTh core thr fun x => { x with loads := x.loads.eraseIdx k }).deliver core thr l)

/-- R292: the oldest entry of a thread's store buffer drains. -/
def execStoreBufferDrain (core thr : Nat) (s : State) : Host.Outcome State Fault Refusal :=
  .next (s.when (s.coreLive core && decide (thr < 4)) fun s => s.drainOldest core thr)

/-! ### The load instructions -/

/-- An outstanding load of `n` bytes: `conv` is what its destination will hold. -/
def State.doLoad (s : State) (a : HI) (m : MOp) (n : Nat) (perms : List Nat) (vec : Bool) (dest : Thread → HReg) (conv : Nat → Nat) :
    HOut :=
  let x := s.th a.core a.thr
  let cap := x.c m.cap
  let ea := eaOf x m n
  match s.accFault a.core a.thr ⟨cap, ea, n, perms, none, vec, false⟩ with
  | some e => .fault s e
  | none =>
    let g := s.getMem a.core a.thr cap ea n
    let l : HLoad :=
      { dest := some (dest x), lvl := x.lvl, val := conv g.v, tag := g.tag, bits := 8 * n, fault := if g.poison then 7 else 0
        addr := ea, pc := g.s.insAddr a, slot := true, ctrl := inCtrl ea, slotB := a.slotB }
    .ok (g.s.updTh a.core a.thr fun x => let x := writeback x m n; { x with loads := x.loads ++ [l] })

/-- Issue a load of `n` bytes. -/
def State.loadIns (s : State) (a : HI) (m : MOp) (n count : Nat) (perms : List Nat) (vec : Bool) (dest : Thread → HReg)
    (conv : Nat → Nat) : Host.Outcome State Fault Refusal :=
  .next (s.hookIssue a (fun x => ⟨mUses x m, dest x :: mWrites x m, count, false⟩) fun s => s.doLoad a m n perms vec dest conv)

/-- R310: LD, zero-extended. -/
def execHLd (a : HI) (z : Sz) (rd : Nat) (m : MOp) (s : State) : Host.Outcome State Fault Refusal :=
  s.loadIns a m z.bytes 1 [pLoad] false (fun x => x.rg rd) id

/-- R310: LDS, sign-extended. -/
def execHLds (a : HI) (z : Sz) (rd : Nat) (m : MOp) (s : State) : Host.Outcome State Fault Refusal :=
  s.loadIns a m z.bytes 1 [pLoad] false (fun x => x.rg rd) fun v => (BitVec.ofInt 64 (signedOf z.bits v)).toNat

/-- R310: LDF, with 0 above the format (R304). -/
def execHLdf (a : HI) (z : Sz) (fd : Nat) (m : MOp) (s : State) : Host.Outcome State Fault Refusal :=
  s.loadIns a m z.bytes 1 [pLoad] false (fun _ => .f fd) id

/-- R310, R311: LDC. -/
def execHLdc (a : HI) (cd : Nat) (m : MOp) (s : State) : Host.Outcome State Fault Refusal :=
  s.loadIns a m 16 1 [pLoad, pLoadCap] false (fun x => x.rc cd) id

/-- R369: LDV. -/
def execHLdv (a : HI) (vl : VLen) (vd : Nat) (m : MOp) (s : State) : Host.Outcome State Fault Refusal :=
  s.loadIns a m (vl.bits / 8) (vl.bits / 256) [pLoad] true (fun _ => .v vd) id

/-- R373: FPST_READ: an LD.W of the thread's own HKC_Tt_FPST. -/
def execFpstRead (a : HI) (rd : Nat) (m : MOp) (s : State) : Host.Outcome State Fault Refusal :=
  .next (s.when (decide (eaOf (s.th a.core a.thr) m 4 = ownFpst a.core a.thr)) fun s =>
    s.hookIssue a (fun x => ⟨mUses x m, x.rg rd :: mWrites x m, 1, false⟩) fun s =>
      s.doLoad a m 4 [pLoad] false (fun x => x.rg rd) id)

/-! ### The store instructions -/

/-- A store of `n` bytes of a value. -/
def State.doStore (s : State) (a : HI) (m : MOp) (n : Nat) (perms : List Nat) (v : Nat) (tag : Bool) : HOut :=
  let x := s.th a.core a.thr
  let cap := x.c m.cap
  let ea := eaOf x m n
  match s.accFault a.core a.thr ⟨cap, ea, n, perms, some v, false, false⟩ with
  | some e => .fault s e
  | none => .ok ((s.bufStore a.core a.thr cap ea n v tag).updTh a.core a.thr fun x => writeback x m n)

/-- Issue a store: its source register, and the value and tag it holds. -/
def State.storeIns (s : State) (a : HI) (m : MOp) (n : Nat) (perms : List Nat) (src : Thread → List HReg) (val : Thread → Nat × Bool) :
    Host.Outcome State Fault Refusal :=
  .next (s.hookIssue a (fun x => ⟨src x ++ mUses x m, mWrites x m, 1, false⟩) fun s =>
    let v := val (s.th a.core a.thr)
    s.doStore a m n perms v.1 v.2)

/-- R310: ST. -/
def execHSt (a : HI) (z : Sz) (rs : Nat) (m : MOp) (s : State) : Host.Outcome State Fault Refusal :=
  s.storeIns a m z.bytes [pStore] (fun x => [x.rg rs]) fun x => (x.g rs % 2 ^ z.bits, false)

/-- R310: STI. -/
def execHSti (a : HI) (z : Sz) (m : MOp) (imm : DWord) (s : State) : Host.Outcome State Fault Refusal :=
  s.storeIns a m z.bytes [pStore] (fun _ => []) fun _ => (imm.toNat % 2 ^ z.bits, false)

/-- R310: STF. -/
def execHStf (a : HI) (z : Sz) (fs : Nat) (m : MOp) (s : State) : Host.Outcome State Fault Refusal :=
  s.storeIns a m z.bytes [pStore] (fun _ => [.f fs]) fun x => (x.f fs % 2 ^ z.bits, false)

/-- R310, R311: STC. -/
def execHStc (a : HI) (cs : Nat) (m : MOp) (s : State) : Host.Outcome State Fault Refusal :=
  s.storeIns a m 16 [pStore, pStoreCap] (fun x => [x.rc cs]) fun x => ((x.c cs).bits.toNat, (x.c cs).tag)

/-- R369: STV waits until the store buffer is empty and writes past it. -/
def State.doStv (s : State) (a : HI) (m : MOp) (n v : Nat) : HOut :=
  let x := s.th a.core a.thr
  let cap := x.c m.cap
  let ea := eaOf x m n
  match s.accFault a.core a.thr ⟨cap, ea, n, [pStore], some v, true, false⟩ with
  | some e => .fault s e
  | none =>
    .ok ((((s.drainAll a.core a.thr).notePrefetch a.core a.thr ea n).store ea (leBytes n v)).updTh a.core a.thr fun x => writeback x m n)

/-- R369: STV. -/
def execHStv (a : HI) (vl : VLen) (vs : Nat) (m : MOp) (s : State) : Host.Outcome State Fault Refusal :=
  .next (s.hookIssue a (fun x => ⟨.v vs :: mUses x m, mWrites x m, vl.bits / 256, false⟩) fun s =>
    s.doStv a m (vl.bits / 8) ((s.th a.core a.thr).v vs % 2 ^ vl.bits))

/-! ### GATHV (R313, R370, R371) -/

/-- The elements of a gather from element `e` on, in index order: the values, or the first failing element's fault. -/
def State.gather (s : State) (a : HI) (cap : CapV) (n : Nat) : Nat → List Nat → Except Exc (List Nat) × State
  | _, [] => (.ok [], s)
  | e, ea :: t =>
    match s.accFault a.core a.thr ⟨cap, ea, n, [pLoad], none, false, false⟩ with
    | some x => (.error { x with detail := e, gath := true }, s)
    | none =>
      if inCtrl ea then (.error { exc 4 3 ea e with gath := true }, s)
      else
        let g := s.getMem a.core a.thr cap ea n
        if g.poison then (.error { exc 7 0 ea (g.s.insAddr a) with gath := true }, g.s)
        else match g.s.gather a cap n (e + 1) t with
          | (.ok vs, s) => (.ok (g.v :: vs), s)
          | (.error x, s) => (.error x, s)

/-- R370: the addresses of a gather. -/
def gatherAddrs (x : Thread) (m : MOp) (z : Sz) (n vx : Nat) : List Nat :=
  (vSplit z.bits n (x.v vx)).map fun i =>
    (BitVec.ofNat 64 (eaOf x m z.bytes) + BitVec.ofInt 64 (signedOf z.bits i * (z.bytes : Nat))).toNat

/-- R313, R370, R371: GATHV. -/
def execHGathv (a : HI) (z : Sz) (vl : VLen) (vd : Nat) (m : MOp) (vx : Nat) (s : State) : Host.Outcome State Fault Refusal :=
  .next (s.hookIssue a (fun x => ⟨.v vx :: mUses x m, [.v vd], vl.bits / 256, false⟩) fun s =>
    let x := s.th a.core a.thr
    let cap := x.c m.cap
    let n := vl.bits / z.bits
    let addrs := gatherAddrs x m z n vx
    if cap.tag && decide (capOtype cap = 0) && (capPerms cap).testBit pLoad && !(capPerms cap).testBit pIdem then
      .fault s (exc 4 3 (addrs.headD 0) pIdem)
    else match s.gather a cap z.bytes 0 addrs with
      | (.error e, s) => .fault s e
      | (.ok vs, s) => .ok (s.setV a.core a.thr vd vl.bits (vJoin z.bits vs)))

/-! ### CAS (R312) -/

/-- CAS: one indivisible read and write; poisoned data are not compared, and the load's fault reports them. -/
def State.doCas (s : State) (a : HI) (z : Sz) (rd rs : Nat) (m : MOp) : HOut :=
  let x := s.th a.core a.thr
  let n := z.bytes
  let cap := x.c m.cap
  let ea := eaOf x m n
  let new := x.g rs % 2 ^ z.bits
  match s.accFault a.core a.thr ⟨cap, ea, n, [pLoad, pStore], some new, false, true⟩ with
  | some e => .fault s e
  | none =>
    let s := s.drainAll a.core a.thr
    let (bs, p, s) := s.load ea n
    let old := ofLeBytes bs
    let hit := !p && decide (old = x.g rd % 2 ^ z.bits)
    let s := if hit then (s.notePrefetch a.core a.thr ea n).store ea (leBytes n new) else s
    let l : HLoad :=
      { dest := some (x.rg rd), lvl := x.lvl, val := old, tag := false, bits := 8 * n, fault := if p then 7 else 0
        addr := ea, pc := s.insAddr a, slot := true, ctrl := false, slotB := a.slotB }
    .ok (s.updTh a.core a.thr fun x =>
      let x := (writeback x m n).setSbits 5 5 (b2n hit)
      { x with loads := x.loads ++ [l] })

/-- R312: CAS. -/
def execHCas (a : HI) (z : Sz) (rd rs : Nat) (m : MOp) (s : State) : Host.Outcome State Fault Refusal :=
  .next (s.hookIssue a (fun x => ⟨x.rg rd :: x.rg rs :: mUses x m, x.rg rd :: mWrites x m, 2, false⟩) fun s => s.doCas a z rd rs m)

/-! ### IFENCE and FENCE (R321) -/

/-- R321: IFENCE: every buffered store reaches its target; the instructions that follow are fetched again. -/
def execHIfence (a : HI) (s : State) : Host.Outcome State Fault Refusal :=
  .next (s.hookIssue a (fun _ => ⟨[], [], 3, false⟩) fun s => .ok (s.drainAll a.core a.thr))

/-- R321: FENCE. -/
def execHFence (a : HI) (s : State) : Host.Outcome State Fault Refusal :=
  .next (s.hookIssue a (fun _ => ⟨[], [], 1, false⟩) fun s => .ok (s.drainAll a.core a.thr))

/-! ### The control bus times out (R467) -/

/-- MTX_LASTTO's code of a master. -/
def masterCode : Who → Nat
  | .hook c _ _ => c
  | .host _ => 3
  | .bootRom => 4
  | .jtag => 5
  | .firmware => 0

/-- The first outstanding load of a control register at `a` becomes a bus-timeout fault. -/
def timeoutLoad (a : Nat) : List HLoad → List HLoad
  | [] => []
  | l :: t => if l.ctrl && decide (l.addr = a) && decide (l.fault = 0) then { l with fault := 14 } :: t else l :: timeoutLoad a t

/-- The oldest buffered store to the control register at `a` is discarded. -/
def timeoutStore (a : Nat) : List SbEntry → List SbEntry
  | [] => []
  | e :: t => if e.ctrl && decide (e.addr = a) then t else e :: timeoutStore a t

/-- R467: a transaction of `who` at control address `a` reaches the timeout. -/
def State.busTimeout (s : State) (who : Who) (a : Nat) (wr : Bool) : State :=
  let s := (s.bump F.MTX_CNT_16).expiry
  let s := s.setReg ⟨.MTX_LASTTO, 0, 0⟩ (BitVec.ofNat 32 (masterCode who * 2 ^ 29 + a % 2 ^ 28))
  match who with
  | .hook c t _ =>
    if wr then (s.updTh c t fun x => { x with sb := timeoutStore a x.sb }).raise 191
    else s.updTh c t fun x => { x with loads := timeoutLoad a x.loads }
  | .host _ => if wr then s else { s with rd := List.replicate 4 0xFF }
  | _ => s

/-- Whether the transaction is outstanding: a hook thread's stands among its loads or in its store buffer. -/
def State.busPending (s : State) (who : Who) (a : Nat) (wr : Bool) : Bool :=
  match who with
  | .hook c t _ =>
    s.coreLive c && decide (t < 4) &&
      (if wr then (s.th c t).sb.any fun e => e.ctrl && decide (e.addr = a)
       else (s.th c t).loads.any fun l => l.ctrl && decide (l.addr = a) && decide (l.fault = 0))
  | _ => inCtrl a

/-- R467: CONTROL_BUS_TIMEOUT. -/
def execControlBusTimeout (who : Who) (a : Nat) (wr : Bool) (s : State) : Host.Outcome State Fault Refusal :=
  .next (s.when (s.busPending who a wr) fun s => s.busTimeout who a wr)

end Sys2Proof.Machine
end

