-- ==== Sys2Proof/Machine/HookCall.lean ====
section
/-!
DEFINITION. Sys2Proof/Machine/HookCall.lean: calls and returns through the shadow stack, register windows with their spill and fill,
and RETX (R286 to R289, R319, R320, R354, R363, R364).
-/
namespace Sys2Proof.Machine

/-! ### CALL, CALLR, RET -/

/-- The checks of a push through SSCAP: those of R319 at the branch, then alignment and place of the store. -/
def State.pushFault (s : State) (a : HI) : Option Exc :=
  let x := s.th a.core a.thr
  let top := capAddr x.sscap
  let code := if top < 8 then (if x.sscap.tag ∧ capOtype x.sscap = 0 ∧ (capPerms x.sscap).testBit pStore then 4
      else capCode x.sscap pStore top 0) else capCode x.sscap pStore (top - 8) 8
  if code ≠ 0 then some (capFault code pStore (s.insAddr a))
  else s.accFault a.core a.thr ⟨x.sscap, top - 8, 8, [pStore], some (capAddr x.pcap), false, false⟩

/-- R320: c14, SSCAP and the shadow stack take the return address; then PCAP becomes `p`. -/
def State.callTo (s : State) (a : HI) (p : CapV) : HOut :=
  match s.pushFault a with
  | some e => .fault s e
  | none =>
    let x := s.th a.core a.thr
    let top := capAddr x.sscap - 8
    let s := s.bufStore a.core a.thr x.sscap top 8 (capAddr x.pcap) false
    .ok (s.updTh a.core a.thr fun x => { x.setC 14 x.pcap with sscap := capSetAddr x.sscap top, pcap := p })

/-- R320: CALL. -/
def execHCall (a : HI) (rel : DWord) (s : State) : Host.Outcome State Fault Refusal :=
  .next (s.hookIssue a (fun x => ⟨[], [x.rc 14], 2, false⟩) fun s =>
    let p := (s.th a.core a.thr).pcap
    let target := (capAddr p + rel.toNat) % 2 ^ 64
    if capCovers p target 1 then s.callTo a (capSetAddr p target) else .fault s (exc 4 4 (s.insAddr a) 0))

/-- R320: CALLR. -/
def execHCallr (a : HI) (cn : Nat) (s : State) : Host.Outcome State Fault Refusal :=
  .next (s.hookIssue a (fun x => ⟨[x.rc cn], [x.rc 14], 2, false⟩) fun s =>
    let c := (s.th a.core a.thr).c cn
    let code := capCode c pExecute (capAddr c) 1
    if code = 0 then s.callTo a c else .fault s (capFault code pExecute (s.insAddr a)))

/-- R320: RET compares the shadow return address with c14's. -/
def State.doRet (s : State) (a : HI) : HOut :=
  let x := s.th a.core a.thr
  let top := capAddr x.sscap
  let c14 := x.c 14
  match s.accFault a.core a.thr ⟨x.sscap, top, 8, [pLoad], none, false, false⟩ with
  | some e => .fault s e
  | none =>
    let g := s.getMem a.core a.thr x.sscap top 8
    if g.poison then .fault g.s (exc 7 0 top (g.s.insAddr a))
    else if g.v ≠ capAddr c14 then .fault g.s (exc 10 1 g.v (capAddr c14))
    else if !capHas c14 pExecute then .fault g.s (exc 10 2 g.v (capAddr c14))
    else .ok (g.s.updTh a.core a.thr fun x => { x with sscap := capSetAddr x.sscap (top + 8), pcap := c14 })

def execHRet (a : HI) (s : State) : Host.Outcome State Fault Refusal :=
  .next (s.hookIssue a (fun x => ⟨[x.rc 14], [], 3, false⟩) fun s => s.doRet a)

/-! ### Windows (R286 to R289) -/

/-- The physical registers of a spilled window: its incoming registers, then its locals. -/
def windowRegs (k : Nat) : List Nat :=
  ((List.range 8).map fun i => 56 + 8 * ((k + 5) % 6) + i) ++ (List.range 8).map fun i => 8 + 8 * k + i

/-- The escalation of a failed spill or fill (R289). -/
def spillExc (e : Exc) : Exc := { e with esc := 4 }

/-- The check of WSPC before the first access: 128 bytes from `lo`. -/
def wspcFault (w : CapV) (perm lo : Nat) : Option Exc :=
  let code := capCode w perm lo 128
  if code = 0 then none else some (spillExc (capFault code perm lo))

/-- Store registers of the current bank, 8 bytes each from `ea` on; stores made before a fault stay. -/
def State.spillRegs (s : State) (a : HI) (w : CapV) : Nat → List Nat → Option Exc × State
  | _, [] => (none, s)
  | ea, p :: t =>
    let v := ((s.th a.core a.thr).bank.reg p).toNat
    match s.accFault a.core a.thr ⟨w, ea, 8, [pStore], some v, false, false⟩ with
    | some e => (some (spillExc e), s)
    | none => (s.bufStore a.core a.thr w ea 8 v false).spillRegs a w (ea + 8) t

/-- Load the values of a spilled window. -/
def State.fillRegs (s : State) (a : HI) (w : CapV) : Nat → List Nat → Except Exc (List (Nat × Nat)) × State
  | _, [] => (.ok [], s)
  | ea, p :: t =>
    match s.accFault a.core a.thr ⟨w, ea, 8, [pLoad], none, false, false⟩ with
    | some e => (.error (spillExc e), s)
    | none =>
      let g := s.getMem a.core a.thr w ea 8
      if g.poison then (.error (spillExc (exc 7 0 ea (g.s.insAddr a))), g.s)
      else match g.s.fillRegs a w (ea + 8) t with
        | (.ok vs, s) => (.ok ((p, g.v) :: vs), s)
        | (.error e, s) => (.error e, s)

/-- Every register of the current bank that a window operation may touch. -/
def bankRegs (x : Thread) : List HReg := (List.range 104).map fun p => .g x.lvl p

/-- R286, R287: WOPEN. -/
def State.doWopen (s : State) (a : HI) : HOut :=
  let x := s.th a.core a.thr
  let b := x.bank
  if b.res < 5 then .ok (s.updTh a.core a.thr fun x => x.updBank fun b => { b with wp := (b.wp + 1) % 6, res := b.res + 1 })
  else
    let base := capAddr b.wspc
    match wspcFault b.wspc pStore base with
    | some e => .fault s e
    | none =>
      match s.spillRegs a b.wspc base (windowRegs ((b.wp + 2) % 6)) with
      | (some e, s) => .fault s e
      | (none, s) =>
        .ok ((s.bump F.HKC_T_WCNT_16 a.core 1 a.thr).updTh a.core a.thr fun x =>
          x.updBank fun b => { b with wp := (b.wp + 1) % 6, wspc := capSetAddr b.wspc (base + 128) })

def execHWopen (a : HI) (s : State) : Host.Outcome State Fault Refusal :=
  .next (s.hookIssue a (fun x => if x.bank.res < 5 then ⟨[], [], 1, false⟩ else ⟨bankRegs x, [], 9, false⟩) fun s => s.doWopen a)

/-- R286, R287: WCLOSE. -/
def State.doWclose (s : State) (a : HI) : HOut :=
  let x := s.th a.core a.thr
  let b := x.bank
  if 1 < b.res then .ok (s.updTh a.core a.thr fun x => x.updBank fun b => { b with wp := (b.wp + 5) % 6, res := b.res - 1 })
  else
    let lo := (capAddr b.wspc + 2 ^ 64 - 128) % 2 ^ 64
    match wspcFault b.wspc pLoad lo with
    | some e => .fault s e
    | none =>
      match s.fillRegs a b.wspc lo (windowRegs ((b.wp + 5) % 6)) with
      | (.error e, s) => .fault s e
      | (.ok vs, s) =>
        .ok ((s.bump F.HKC_T_WCNT_0 a.core 1 a.thr).updTh a.core a.thr fun x =>
          x.updBank fun b =>
            let b := vs.foldl (fun b e => b.setReg e.1 (BitVec.ofNat 64 e.2)) b
            { b with wp := (b.wp + 5) % 6, wspc := capSetAddr b.wspc lo })

def execHWclose (a : HI) (s : State) : Host.Outcome State Fault Refusal :=
  .next (s.hookIssue a (fun x => if 1 < x.bank.res then ⟨[], [], 1, false⟩ else ⟨bankRegs x, [], 10, false⟩) fun s => s.doWclose a)

/-! ### RETX (R354) -/

/-- The fields of a frame that RETX reads (R350). -/
structure Frame where
  pcap : CapV
  stat : Nat
  winfo : Nat

/-- The frame at `f`: its 48 bytes as a load sees them, and poison. -/
def State.readFrame (s : State) (a : HI) (c : CapV) (f : Nat) : Frame × Bool × State :=
  let p := s.getMem a.core a.thr c f 16
  let q := p.s.getMem a.core a.thr c (f + 16) 16
  let r := q.s.getMem a.core a.thr c (f + 32) 16
  (⟨⟨BitVec.ofNat 128 p.v, p.tag⟩, q.v % 2 ^ 64, r.v / 2 ^ 32 % 2 ^ 32⟩, p.poison || q.poison || r.poison, r.s)

/-- R354: the first check of the frame that fails, 0 for none. -/
def frameCode (x : Thread) (fr : Frame) : Nat :=
  let sys := (capPerms x.pcap).testBit pSystem
  let l := fr.stat % 16
  let b := x.bank
  if !capHas fr.pcap pExecute then 1
  else if 5 < fr.winfo % 8 ∨ fr.winfo / 16 % 8 = 0 ∨ 5 < fr.winfo / 16 % 8 then 4
  else if x.lvl < l ∨ (!sys ∧ ((0 < b.sdepth ∧ l ≠ x.lvl) ∨ (b.sdepth = 0 ∧ b.elvl < l))) then 2
  else if !sys ∧ bitsOf fr.stat 23 22 ≠ x.sbits 23 22 then 3
  else 0

/-- R354: the thread after a return to the frame's level. -/
def retxThread (x : Thread) (fr : Frame) : Thread :=
  let old := x.lvl
  let l := fr.stat % 16
  let x := x.updBank fun b =>
    let c15 := b.c.get 15 capNull
    { b with c := b.c.set 15 (capSetAddr c15 (capAddr c15 + 48)), sdepth := if l = old then b.sdepth - 1 else b.sdepth }
  let b := x.bankOf l
  let x := x.setBank l { b with wp := fr.winfo % 8, res := fr.winfo / 16 % 8 }
  { x with
    pcap := fr.pcap
    stat := BitVec.ofNat 64 (statLoad x.stat.toNat fr.stat)
    active := if l = old then x.active else l :: x.active.filter fun k => decide (k < l) }

/-- R354: RETX. Ending a level drops the entry in progress of its event windows (R76). -/
def State.doRetx (s : State) (a : HI) : HOut :=
  let x := s.th a.core a.thr
  let c15 := x.c 15
  let f := capAddr c15
  let bad := fun (s : State) (code : Nat) => HOut.fault s (exc 11 code (s.insAddr a) 0)
  if capCode c15 pLoad f 48 ≠ 0 then bad s 5
  else
    match [f, f + 16, f + 32].findSome? fun k => s.accFault a.core a.thr ⟨c15, k, 16, [pLoad], none, false, false⟩ with
    | some e => .fault s e
    | none =>
      let (fr, p, t) := s.readFrame a c15 f
      if p then .fault t (exc 7 0 f (t.insAddr a))
      else
        let code := frameCode x fr
        if code ≠ 0 then bad t code
        else
          let t := t.updTh a.core a.thr fun x => retxThread x fr
          .ok (t.dropEvIn fun e => decide (e.core = a.core ∧ e.thr = a.thr ∧ fr.stat % 16 < e.level))

def execHRetx (a : HI) (s : State) : Host.Outcome State Fault Refusal :=
  .next (s.hookIssue a (fun x => ⟨[x.rc 15], [], 6, false⟩) fun s => s.doRetx a)

end Sys2Proof.Machine
end

