-- ==== Sys2Proof/Machine/HookCap.lean ====
section
/-!
DEFINITION. Sys2Proof/Machine/HookCap.lean: the capability instructions and LEA (R310, R314, R337, R338). None of them faults.
-/
namespace Sys2Proof.Machine

/-- An instruction that reads a capability into a g register. -/
def State.capGet (s : State) (a : HI) (rd cs : Nat) (f : CapV → Nat) : Host.Outcome State Fault Refusal :=
  s.hookReg a (fun x => ⟨[x.rc cs], [x.rg rd], 1, false⟩) fun x => x.setG rd (f (x.c cs))

/-- An instruction that derives a capability from one and a g register. -/
def State.capDerive (s : State) (a : HI) (cd cs rg count : Nat) (f : CapV → Nat → CapV) : Host.Outcome State Fault Refusal :=
  s.hookReg a (fun x => ⟨[x.rc cs, x.rg rg], [x.rc cd], count, false⟩) fun x => x.setC cd (f (x.c cs) (x.g rg))

/-- An instruction that derives a capability from two. -/
def State.capPair (s : State) (a : HI) (cd cs ct : Nat) (f : CapV → CapV → CapV) : Host.Outcome State Fault Refusal :=
  s.hookReg a (fun x => ⟨[x.rc cs, x.rc ct], [x.rc cd], 1, false⟩) fun x => x.setC cd (f (x.c cs) (x.c ct))

/-- R338: CGETA. -/
def execHCgeta (a : HI) (rd cs : Nat) (s : State) : Host.Outcome State Fault Refusal := s.capGet a rd cs capAddr

/-- R338: CGETB. -/
def execHCgetb (a : HI) (rd cs : Nat) (s : State) : Host.Outcome State Fault Refusal := s.capGet a rd cs capBase

/-- R338: CGETL, top - base. -/
def execHCgetl (a : HI) (rd cs : Nat) (s : State) : Host.Outcome State Fault Refusal :=
  s.capGet a rd cs fun c => capTop c - capBase c

/-- R338: CGETP. -/
def execHCgetp (a : HI) (rd cs : Nat) (s : State) : Host.Outcome State Fault Refusal := s.capGet a rd cs capPerms

/-- R338: CGETT. -/
def execHCgett (a : HI) (rd cs : Nat) (s : State) : Host.Outcome State Fault Refusal := s.capGet a rd cs fun c => b2n c.tag

/-- R337: CSETA. -/
def execHCseta (a : HI) (cd cs rg : Nat) (s : State) : Host.Outcome State Fault Refusal := s.capDerive a cd cs rg 1 capSetAddr

/-- R337: CINC. -/
def execHCinc (a : HI) (cd cs rg : Nat) (s : State) : Host.Outcome State Fault Refusal :=
  s.capDerive a cd cs rg 1 fun c n => capSetAddr c (capAddr c + n)

/-- R338: CSETB. -/
def execHCsetb (a : HI) (cd cs rg : Nat) (s : State) : Host.Outcome State Fault Refusal := s.capDerive a cd cs rg 2 capSetB

/-- R338: CANDP. -/
def execHCandp (a : HI) (cd cs rg : Nat) (s : State) : Host.Outcome State Fault Refusal := s.capDerive a cd cs rg 1 capAndP

/-- R338: CSEAL. -/
def execHCseal (a : HI) (cd cs ct : Nat) (s : State) : Host.Outcome State Fault Refusal := s.capPair a cd cs ct capSeal

/-- R338: CUNSEAL. -/
def execHCunseal (a : HI) (cd cs ct : Nat) (s : State) : Host.Outcome State Fault Refusal := s.capPair a cd cs ct capUnseal

/-- R338: CCLRT. -/
def execHCclrt (a : HI) (cd cs : Nat) (s : State) : Host.Outcome State Fault Refusal :=
  s.hookReg a (fun x => ⟨[x.rc cs], [x.rc cd], 1, false⟩) fun x => x.setC cd ⟨(x.c cs).bits, false⟩

/-- R338: CTEST. -/
def execHCtest (a : HI) (rd ca cb : Nat) (s : State) : Host.Outcome State Fault Refusal :=
  s.hookReg a (fun x => ⟨[x.rc ca, x.rc cb], [x.rg rd], 1, false⟩) fun x => x.setG rd (b2n (capTest (x.c ca) (x.c cb)))

/-- R310: LEA sets a capability's address to EA and accesses nothing; R307 still applies. -/
def execHLea (a : HI) (cd : Nat) (m : MOp) (s : State) : Host.Outcome State Fault Refusal :=
  s.hookReg a (fun x => ⟨mUses x m, x.rc cd :: mWrites x m, 1, false⟩) fun x =>
    let v := capSetAddr (x.c m.cap) (eaOf x m 8)
    (writeback x m 8).setC cd v

end Sys2Proof.Machine
end

