-- ==== Sys2Proof/Machine/HookExc.lean ====
section
/-!
DEFINITION. Sys2Proof/Machine/HookExc.lean: entry of interrupts, faults and escalations, with the frame it pushes; thread watchdogs
and thread resets; SPLIT and MERGE complete (R290, R297 to R299, R325, R342 to R357, R385 to R387, R506, R507, R514).
-/
namespace Sys2Proof.Machine

/-! ### Taking an exception (R347 to R353) -/

/-- The address of the frame that a push through a capability makes (R351). -/
def frameAddr (c15 : CapV) : Nat := (capAddr c15 + 2 ^ 64 - 48) % 2 ^ 64 / 16 * 16

/-- R350: the low 64 bits and the high 64 bits of the frame's second and third granules. -/
def frameWords (x : Thread) (e : Exc) : Nat × Nat :=
  let cause := e.vec % 256 + e.code % 256 * 2 ^ 8 + e.esc % 256 * 2 ^ 16 + b2n e.slotB * 2 ^ 24 + b2n e.multi * 2 ^ 25
  let winfo := x.bank.wp % 8 + x.bank.res % 8 * 16
  (x.stat.toNat + e.faddr % 2 ^ 64 * 2 ^ 64, cause + winfo * 2 ^ 32 + e.detail % 2 ^ 64 * 2 ^ 64)

/-- The three store-buffer entries of a frame at `f`: the PCAP with its tag first. They stand outside the 8 entries (R298). -/
def frameEntries (x : Thread) (e : Exc) (f : Nat) : List SbEntry :=
  let g := fun (k : Nat) (v : Quad) (tag : Bool) => (⟨f + 16 * k, v, 0xFFFF, tag, false, 0, true, true⟩ : SbEntry)
  let w := frameWords x e
  [g 0 x.pcap.bits x.pcap.tag, g 1 (BitVec.ofNat 128 w.1) false, g 2 (BitVec.ofNat 128 w.2) false]

/-- Whether the 48 bytes of a frame lie where a store of the handler's level may go (R351). -/
def State.frameFits (s : State) (core thr lvl f : Nat) : Bool :=
  [f, f + 16, f + 32].all fun k =>
    !inCtrl k && s.accPlace core thr lvl ⟨capNull, k, 16, [], some 0, false, false⟩

/-- R342: the handler's PCAP for a vector. -/
def vectorCap (x : Thread) (v : Nat) : CapV := capSetAddr x.vtab ((capAddr x.vtab + 16 * v) % 2 ^ 64)

/-- How an entry goes: the escalation code of the check that fails (R348, R351, R352), 0 for none. -/
def State.entryCode (s : State) (core thr lvl hv : Nat) : Nat :=
  let x := s.th core thr
  let b := x.bankOf lvl
  let c15 := b.c.get 15 capNull
  let f := frameAddr c15
  if lvl = x.lvl ∧ b.sdepth = 255 then 6
  else if capCode c15 pStore f 48 ≠ 0 then 1
  else if !s.frameFits core thr lvl f then 2
  else if capCode (vectorCap x hv) pExecute (capAddr (vectorCap x hv)) 16 ≠ 0 then 3
  else 0

/-- The push of the frame in the handler's bank: c15 lowered and the frame in the frame buffer. -/
def pushFrame (x : Thread) (e : Exc) (lvl : Nat) : Thread :=
  let b := x.bankOf lvl
  let c15 := b.c.get 15 capNull
  let f := frameAddr c15
  { x.setBank lvl { b with c := b.c.set 15 (capSetAddr c15 f) } with sb := x.sb ++ frameEntries x e f }

/-- R290, R347 to R349: the thread in its handler at `lvl`, entered through vector `hv`. -/
def enterThread (x : Thread) (e : Exc) (lvl hv : Nat) : Thread :=
  let old := x.lvl
  let fresh := !x.active.contains lvl
  let y := pushFrame x e lvl
  let b := y.bankOf lvl
  let b := if lvl = old then { b with sdepth := b.sdepth + 1 }
    else if fresh then { b with res := 1, elvl := old, sdepth := 0 } else b
  { y.setBank lvl b with
    st := .running
    pcap := vectorCap x hv
    stat := BitVec.ofNat 64 (putBits x.stat.toNat 3 0 lvl)
    active := if fresh then lvl :: x.active else x.active
    fault := none
    esc := none }

/-- The counters of an entry (11_exceptions_capabilities.md, 12_register_vectors.md). -/
def State.countEntry (s : State) (core thr : Nat) (e : Exc) (lvl : Nat) : State :=
  let s := if lvl = 8 then s.bump F.HKC_T_EXC_16 core 1 thr else s
  let s := if e.vec = 11 then s.bump F.HKC_T_EXC_8 core 1 thr else s
  let s := if e.vec = 10 then s.bump F.HKC_T_EXC_0 core 1 thr else s
  let s := if e.vec = 12 then s.bump F.HKC_T_FPCNT_16 core 1 thr else s
  if e.gath then s.bump F.HKC_T_FPCNT_0 core 1 thr else s

/-- TAKING AN EXCEPTION: entry at `lvl` through vector `hv`, and whether it succeeded. A failed entry escalates; with a handler that
is not executable the frame stays pushed (R351, R352). The lifeline's own failure halts the thread (R356). -/
def State.enterExc (s : State) (core thr : Nat) (e : Exc) (lvl hv : Nat) : Bool × State :=
  let code := s.entryCode core thr lvl hv
  if code = 0 then (true, (s.updTh core thr fun x => enterThread x e lvl hv).countEntry core thr e lvl)
  else
    let s := if code = 3 then s.updTh core thr fun x => pushFrame x e lvl else s
    if lvl = 8 then (false, s.haltThread core thr e) else (false, s.escalate core thr code e)

/-- An exception may be taken now: the thread runs or idles, at no barrier. -/
def State.mayEnter (s : State) (core thr : Nat) : Bool :=
  let x := s.th core thr
  s.coreLive core && decide (thr < 4) && (decide (x.st = .running) || (decide (x.st = .idle) && x.barrier.isNone))

/-- The load-return fault pending at a level, as an exception. -/
def lfExc (f : LoadFault) : Exc := ⟨f.vec, 0, 0, f.faddr, f.detail, f.slotB, f.multi, false⟩

/-- A level's pending load-return fault is taken out. -/
def clearLf (x : Thread) : Thread := x.updBank fun b => { b with lf := none }

/-- R347: a synchronous fault, or a load-return fault at the current level, is entered in the same bank. -/
def State.faultEntry (s : State) (core thr : Nat) : State :=
  let x := s.th core thr
  if !s.mayEnter core thr || x.esc.isSome then s
  else match x.fault with
    | some e => (s.enterExc core thr e x.lvl e.vec).2
    | none =>
      match x.bank.lf with
      | some f =>
        if x.lvl = 8 ∨ x.loads.any fun l => l.slot then s
        else ((s.updTh core thr clearLf).enterExc core thr (lfExc f) x.lvl f.vec).2
      | none => s

def execFaultEntry (core thr : Nat) (s : State) : Host.Outcome State Fault Refusal := .next (s.faultEntry core thr)

/-- R297 to R299: the pending request that the thread takes first is entered; a fault that shares its TC0 is taken after its return
(R353). `abandoned`: an instruction with a count above 1 was running. -/
def State.interruptEntry (s : State) (core thr : Nat) (abandoned : Bool) : State :=
  let x := s.th core thr
  if !s.mayEnter core thr || x.esc.isSome || x.lfNow || x.loads.any fun l => l.slot then s
  else match s.nextIrq core thr with
    | none => s
    | some (l, v) =>
      let s := s.updTh core thr fun x => { x with fault := none }
      let s := if abandoned then s.bump F.HKC_T_EVCNT_0 core 1 thr else s
      let r := s.enterExc core thr (exc v 0 0 0) l v
      if r.1 then r.2.setFld F.HKC_IRQ_CFG_PEND 0 core v else r.2

def execInterruptEntry (core thr : Nat) (abandoned : Bool) (s : State) : Host.Outcome State Fault Refusal :=
  .next (s.interruptEntry core thr abandoned)

/-- R355: an escalation, or a load-return fault at level 8, enters the lifeline handler. -/
def State.lifelineEntry (s : State) (core thr : Nat) : State :=
  let x := s.th core thr
  if !s.mayEnter core thr then s
  else match x.esc with
    | some e => (s.enterExc core thr e 8 1).2
    | none =>
      match x.bank.lf with
      | some f => if x.lvl = 8 then ((s.updTh core thr clearLf).enterExc core thr { lfExc f with esc := 5 } 8 1).2 else s
      | none => s

def execLifelineEntry (core thr : Nat) (s : State) : Host.Outcome State Fault Refusal := .next (s.lifelineEntry core thr)

/-! ### Thread watchdogs and resets (R506, R507, R514) -/

/-- R506: a thread's watchdog counts. -/
def State.wdCounts (s : State) (core thr : Nat) : Bool :=
  let x := s.th core thr
  s.coreLive core && decide (thr < 4) && (s.fld F.TMO_TWD_EN).testBit (4 * core + thr) &&
     (decide (x.st = .running) || decide (x.st = .halted) || x.barrier.isSome)

/-- R507: the thread is reset, or the complex where its watchdog expired within the last second. -/
def State.threadWatchdog (s : State) (core thr : Nat) : State :=
  let k := 4 * core + thr
  let again := match s.hook.wdAt.find? fun e => e.1 == k with | some (_, t) => decide (s.uptime < t + 1000000000) | none => false
  let s := (s.bump F.TMO_CNT0_8).expiry
  let s := { s with hook := { s.hook with wdAt := s.hook.wdAt.set k s.uptime } }
  if again then s.hookReset .threadWatchdog else s.updTh core thr fun x => { x with st := .inReset }

def execThreadWatchdog (core thr : Nat) (s : State) : Host.Outcome State Fault Refusal :=
  .next (s.when (s.wdCounts core thr) fun s => s.threadWatchdog core thr)

/-- R514: a thread in reset drains its stores and starts at vector 0. -/
def State.threadReset (s : State) (core thr : Nat) : State :=
  let s := s.drainAll core thr
  let s := s.updTh core thr fun x => x.restart core thr s.uptime
  (s.bump F.TMO_CNT1_0).dropEvIn fun e => decide (e.core = core ∧ e.thr = thr)

def execThreadReset (core thr : Nat) (s : State) : Host.Outcome State Fault Refusal :=
  .next (s.when (s.coreLive core && decide (thr < 4) && decide ((s.th core thr).st = .inReset)) fun s => s.threadReset core thr)

/-! ### SPLIT and MERGE complete (R325, R385 to R387) -/

/-- Core 0's TCM contents in all three ranges: `k` gives an entry's address and `mv` moves it. -/
def tcmCopies {α : Type} (k : α → Nat) (mv : Nat → α → α) (l : List α) : List α :=
  let own := l.filter fun e => decide (0x2000000 ≤ k e ∧ k e < 0x2040000)
  (l.filter fun e => decide (k e < 0x2000000)) ++ own ++ own.map (mv 0x40000) ++ own.map (mv 0x80000)
    ++ l.filter fun e => decide (0x20C0000 ≤ k e)

/-- Core 0's TCM contents alone: what tags and poison keep in voted mode. -/
def tcmOwn {α : Type} (k : α → Nat) (l : List α) : List α :=
  l.filter fun e => !(decide (0x2040000 ≤ k e ∧ k e < 0x20C0000))

/-- R386: the TCM of every core holds core 0's. -/
def splitMem (m : Mem) : Mem :=
  let a := fun (d x : Nat) => x + d
  { m with
    cells := tcmCopies (·.1) (fun d e => (e.1 + d, e.2)) m.cells
    poison := tcmCopies id a m.poison
    tags := tcmCopies id a m.tags }

/-- R387: core 0's TCM is copied over the others'; tags and poison are those of core 0's range. -/
def mergeMem (m : Mem) : Mem :=
  { m with
    cells := tcmCopies (·.1) (fun d e => (e.1 + d, e.2)) m.cells
    poison := tcmOwn id m.poison
    tags := tcmOwn id m.tags }

/-- All threads of these cores stand at a barrier. -/
def State.allAt (s : State) (cores : List Nat) (b : Barrier) : Bool :=
  cores.all fun c => (List.range 4).all fun t => (s.th c t).barrier == some b

/-- R386: a thread of core `c` at its gate entry, from core 0's at the split; stopped where its gate pair is not valid. -/
def splitThread (x : Thread) (c t : Nat) : Thread :=
  let b8 := x.bankOf 8
  let y := { x.setBank 8 { b8 with c := b8.c.set 15 (lifelineCap c t) } with barrier := none, loads := [], sb := [], active := [0] }
  if gateValid x c then
    let y := { y with st := .running, pcap := gateCode x c, stat := BitVec.ofNat 64 (putBits (putBits x.stat.toNat 3 0 0) 23 23 0) }
    y.setC 13 (gateData x c)
  else { y with st := .stopped }

/-- The HKC_ registers of cores 1 and 2 start with core 0's values. -/
def State.splitRegs (s : State) : State :=
  let own := s.regs.filter fun e => decide (e.1.kind.info.block = Block.HKC) && decide (e.1.i = 0) && decide (e.1.kind ≠ .HKC_ID)
  let rest := s.regs.filter fun e => !(decide (e.1.kind.info.block = Block.HKC) && decide (0 < e.1.i))
  { s with regs := rest ++ [1, 2].flatMap fun c => own.map fun e => ({ e.1 with i := c }, e.2) }

/-- R386: the split completes. -/
def State.splitComplete (s : State) : State :=
  let s := (List.range 4).foldl (fun s t => s.drainAll 0 t) s
  let s := s.disarm
  let s := { s with mem := splitMem s.mem }
  let s := s.splitRegs.setFld F.HKC_ID_MODE 1
  let bad := [1, 2].any fun c => (List.range 4).any fun t => !gateValid (s.th 0 t) c
  let s := if bad then s.setFld F.VOT_STAT_NOGATE 1 else s
  let s := [1, 2].foldl (fun s c => (List.range 4).foldl (fun s t => s.setTh c t (splitThread (s.th 0 t) c t)) s) s
  (List.range 4).foldl (fun s t => s.updTh 0 t fun x => { x with st := .running, barrier := none }) s

def execSplitComplete (s : State) : Host.Outcome State Fault Refusal :=
  .next (s.when (s.voted && s.allAt [0] .split) State.splitComplete)

/-- R387: the merge completes with core 0's state; what cores 1 and 2 held is discarded. -/
def State.mergeComplete (s : State) : State :=
  let s := (List.range 4).foldl (fun s t => s.drainAll 0 t) s
  let s := { s with mem := mergeMem s.mem, hook := { s.hook with th := s.hook.th.filter fun e => decide (e.1 < 4) } }
  let s := { s with regs := s.regs.filter fun e => !(decide (e.1.kind.info.block = Block.HKC) && decide (0 < e.1.i)) }
  let s := s.setFld F.HKC_ID_MODE 0
  (List.range 4).foldl (fun s t => s.updTh 0 t fun x => { x with st := .running, barrier := none }) s

def execMergeComplete (s : State) : Host.Outcome State Fault Refusal :=
  .next (s.when (!s.voted && s.allAt [0, 1, 2] .merge) State.mergeComplete)

end Sys2Proof.Machine
end

