-- ==== Sys2Proof/Machine/HookInt.lean ====
section
/-!
DEFINITION. Sys2Proof/Machine/HookInt.lean: the integer instructions of the hook cores, packed decimal, MOVI, MOV, CSEL, SEXT and
ZEXT (R314, R245 to R257).
-/
namespace Sys2Proof.Machine

/-- Registers read and written by an integer instruction. -/
def intReq (srcs : List Nat) (rd count : Nat) (x : Thread) : HReq := ⟨srcs.map x.rg, [x.rg rd], count, false⟩

/-- An integer instruction on g registers: result, N, Z, C and V (R304, R252). -/
def State.hookInt (s : State) (a : HI) (z : Sz) (srcs : List Nat) (rd count : Nat) (f : Thread → IRes) :
    Host.Outcome State Fault Refusal :=
  s.hookReg a (intReq srcs rd count) fun x => putI x z.bits rd (f x)

/-- MIN, MAX and MULH: R252 gives no C, so C is an open value (DESIGN CHOICE, notes/assumptions/60.md, 61.md); they raise no V (R246, R251). -/
def State.hookOpenC (s : State) (a : HI) (z : Sz) (rd ra rb count : Nat) (f : Nat → Nat → Nat) : Host.Outcome State Fault Refusal :=
  .next (s.hookIssue a (intReq [ra, rb] rd count) fun s =>
    let (n, s) := s.fresh
    .ok (s.updTh a.core a.thr fun x => putI x z.bits rd ⟨f (x.g ra) (x.g rb), decide (n % 2 = 1), false, 0⟩))

/-- DIV and REM: a zero divisor sets DZ, and with DZT = 1 faults with nothing else written (R249). -/
def State.hookDiv (s : State) (a : HI) (z : Sz) (rd ra rb : Nat) (f : Nat → Nat → IRes) : Host.Outcome State Fault Refusal :=
  .next (s.hookIssue a (intReq [ra, rb] rd z.divCount) fun s =>
    let x := s.th a.core a.thr
    if x.g rb % 2 ^ z.bits = 0 ∧ x.sbit 19 then
      .fault (s.updTh a.core a.thr fun x => x.sticky fDZ) (exc 8 0 (s.insAddr a) 0)
    else .ok (s.updTh a.core a.thr fun x => putI x z.bits rd (f (x.g ra) (x.g rb))))

/-- PDADD and PDSUB (R254 to R257). -/
def State.hookPd (s : State) (a : HI) (rd ra rb : Nat) (f : Int → Int → Int) : Host.Outcome State Fault Refusal :=
  .next (s.hookIssue a (intReq [ra, rb] rd 2) fun s =>
    let x := s.th a.core a.thr
    if pdValid (x.g ra) && pdValid (x.g rb) then
      let r := pdResult (f (pdVal (x.g ra)) (pdVal (x.g rb)))
      .ok (s.updTh a.core a.thr fun x => (x.setG rd r.1).setNZCV r.2.1 r.2.2.1 false r.2.2.2)
    else
      let s := s.updTh a.core a.thr fun x => x.setSbits 13 13 1
      if x.sbit 20 then .fault s (exc 9 0 (s.insAddr a) 0) else .ok s)

/-- R314: NOP. -/
def execHNop (a : HI) (s : State) : Host.Outcome State Fault Refusal := s.hookReg a (fun _ => ⟨[], [], 1, false⟩) id

/-- R301, R314: an undefined byte string raises vector 3. -/
def execUndefinedInstruction (a : HI) (s : State) : Host.Outcome State Fault Refusal :=
  .next (s.hookIssue a (fun _ => ⟨[], [], 1, false⟩) fun s => .fault s (exc 3 0 (s.insAddr a) 0))

/-- R314: ADD. -/
def execHAdd (a : HI) (z : Sz) (rd ra rb : Nat) (s : State) : Host.Outcome State Fault Refusal :=
  s.hookInt a z [ra, rb] rd 1 fun x => iAdd false true z.bits (x.g ra) (x.g rb)

/-- R314: SUB. -/
def execHSub (a : HI) (z : Sz) (rd ra rb : Nat) (s : State) : Host.Outcome State Fault Refusal :=
  s.hookInt a z [ra, rb] rd 1 fun x => iSub false true z.bits (x.g ra) (x.g rb)

/-- R314: CMP writes the flags of A - B. -/
def execHCmp (a : HI) (z : Sz) (ra rb : Nat) (s : State) : Host.Outcome State Fault Refusal :=
  s.hookReg a (fun x => ⟨[x.rg ra, x.rg rb], [], 1, false⟩) fun x => putCmp x z.bits (x.g ra) (x.g rb)

/-- R247: NEG. -/
def execHNeg (a : HI) (z : Sz) (rd ra : Nat) (s : State) : Host.Outcome State Fault Refusal :=
  s.hookInt a z [ra] rd 1 fun x => iNeg false true z.bits (x.g ra)

/-- R247: ABS. -/
def execHAbs (a : HI) (z : Sz) (rd ra : Nat) (s : State) : Host.Outcome State Fault Refusal :=
  s.hookInt a z [ra] rd 1 fun x => iAbs false z.bits (x.g ra)

/-- R315: MUL keeps the low half. -/
def execHMul (a : HI) (z : Sz) (rd ra rb : Nat) (s : State) : Host.Outcome State Fault Refusal :=
  s.hookInt a z [ra, rb] rd z.mulCount fun x => iMul false true z.bits (x.g ra) (x.g rb)

/-- R246: MULH. -/
def execHMulh (a : HI) (z : Sz) (rd ra rb : Nat) (s : State) : Host.Outcome State Fault Refusal :=
  s.hookOpenC a z rd ra rb z.mulCount (mulhI true z.bits)

/-- R246: MULHU. -/
def execHMulhu (a : HI) (z : Sz) (rd ra rb : Nat) (s : State) : Host.Outcome State Fault Refusal :=
  s.hookOpenC a z rd ra rb z.mulCount (mulhI false z.bits)

/-- R248, R249: DIV. -/
def execHDiv (a : HI) (z : Sz) (rd ra rb : Nat) (s : State) : Host.Outcome State Fault Refusal :=
  s.hookDiv a z rd ra rb (iDiv false true z.bits)

/-- R248, R249: DIVU. -/
def execHDivu (a : HI) (z : Sz) (rd ra rb : Nat) (s : State) : Host.Outcome State Fault Refusal :=
  s.hookDiv a z rd ra rb (iDiv false false z.bits)

/-- R248, R249: REM. -/
def execHRem (a : HI) (z : Sz) (rd ra rb : Nat) (s : State) : Host.Outcome State Fault Refusal :=
  s.hookDiv a z rd ra rb (iRem true z.bits)

/-- R248, R249: REMU. -/
def execHRemu (a : HI) (z : Sz) (rd ra rb : Nat) (s : State) : Host.Outcome State Fault Refusal :=
  s.hookDiv a z rd ra rb (iRem false z.bits)

/-- R314: MIN. -/
def execHMin (a : HI) (z : Sz) (rd ra rb : Nat) (s : State) : Host.Outcome State Fault Refusal :=
  s.hookOpenC a z rd ra rb 1 (minOfI true z.bits)

/-- R314: MAX. -/
def execHMax (a : HI) (z : Sz) (rd ra rb : Nat) (s : State) : Host.Outcome State Fault Refusal :=
  s.hookOpenC a z rd ra rb 1 (maxOfI true z.bits)

/-- R314: MINU. -/
def execHMinu (a : HI) (z : Sz) (rd ra rb : Nat) (s : State) : Host.Outcome State Fault Refusal :=
  s.hookOpenC a z rd ra rb 1 (minOfI false z.bits)

/-- R314: MAXU. -/
def execHMaxu (a : HI) (z : Sz) (rd ra rb : Nat) (s : State) : Host.Outcome State Fault Refusal :=
  s.hookOpenC a z rd ra rb 1 (maxOfI false z.bits)

/-- R314: AND. -/
def execHAnd (a : HI) (z : Sz) (rd ra rb : Nat) (s : State) : Host.Outcome State Fault Refusal :=
  s.hookInt a z [ra, rb] rd 1 fun x => iresPlain ((x.g ra) &&& (x.g rb))

/-- R314: OR. -/
def execHOr (a : HI) (z : Sz) (rd ra rb : Nat) (s : State) : Host.Outcome State Fault Refusal :=
  s.hookInt a z [ra, rb] rd 1 fun x => iresPlain ((x.g ra) ||| (x.g rb))

/-- R314: XOR. -/
def execHXor (a : HI) (z : Sz) (rd ra rb : Nat) (s : State) : Host.Outcome State Fault Refusal :=
  s.hookInt a z [ra, rb] rd 1 fun x => iresPlain ((x.g ra) ^^^ (x.g rb))

/-- R314: ANDN. -/
def execHAndn (a : HI) (z : Sz) (rd ra rb : Nat) (s : State) : Host.Outcome State Fault Refusal :=
  s.hookInt a z [ra, rb] rd 1 fun x => iresPlain ((x.g ra) &&& notI z.bits (x.g rb))

/-- R314: NOT leaves the flags unchanged. -/
def execHNot (a : HI) (z : Sz) (rd ra : Nat) (s : State) : Host.Outcome State Fault Refusal :=
  s.hookReg a (intReq [ra] rd 1) fun x => x.setG rd (notI z.bits (x.g ra))

/-- R250: SHL by a 64-bit register count. -/
def execHShl (a : HI) (z : Sz) (rd ra rb : Nat) (s : State) : Host.Outcome State Fault Refusal :=
  s.hookInt a z [ra, rb] rd 1 fun x => iShl z.bits (x.g ra) (x.g rb)

/-- R250: SHR by a 64-bit register count. -/
def execHShr (a : HI) (z : Sz) (rd ra rb : Nat) (s : State) : Host.Outcome State Fault Refusal :=
  s.hookInt a z [ra, rb] rd 1 fun x => iShr z.bits (x.g ra) (x.g rb)

/-- R250: SAR by a 64-bit register count. -/
def execHSar (a : HI) (z : Sz) (rd ra rb : Nat) (s : State) : Host.Outcome State Fault Refusal :=
  s.hookInt a z [ra, rb] rd 1 fun x => iSar z.bits (x.g ra) (x.g rb)

/-- R250: ROL by a register count. -/
def execHRol (a : HI) (z : Sz) (rd ra rb : Nat) (s : State) : Host.Outcome State Fault Refusal :=
  s.hookInt a z [ra, rb] rd 1 fun x => iresPlain (rolI z.bits (x.g ra) (x.g rb))

/-- R250: ROR by a register count. -/
def execHRor (a : HI) (z : Sz) (rd ra rb : Nat) (s : State) : Host.Outcome State Fault Refusal :=
  s.hookInt a z [ra, rb] rd 1 fun x => iresPlain (rorI z.bits (x.g ra) (x.g rb))

/-- R314: POPC. -/
def execHPopc (a : HI) (z : Sz) (rd ra : Nat) (s : State) : Host.Outcome State Fault Refusal :=
  s.hookInt a z [ra] rd 1 fun x => iresPlain (popcI z.bits (x.g ra))

/-- R251: CLZ. -/
def execHClz (a : HI) (z : Sz) (rd ra : Nat) (s : State) : Host.Outcome State Fault Refusal :=
  s.hookInt a z [ra] rd 1 fun x => iresPlain (clzI z.bits (x.g ra))

/-- R245: QADD saturates. -/
def execHQadd (a : HI) (z : Sz) (rd ra rb : Nat) (s : State) : Host.Outcome State Fault Refusal :=
  s.hookInt a z [ra, rb] rd 1 fun x => iAdd true true z.bits (x.g ra) (x.g rb)

/-- R245: QADDU saturates. -/
def execHQaddu (a : HI) (z : Sz) (rd ra rb : Nat) (s : State) : Host.Outcome State Fault Refusal :=
  s.hookInt a z [ra, rb] rd 1 fun x => iAdd true false z.bits (x.g ra) (x.g rb)

/-- R245: QSUB saturates. -/
def execHQsub (a : HI) (z : Sz) (rd ra rb : Nat) (s : State) : Host.Outcome State Fault Refusal :=
  s.hookInt a z [ra, rb] rd 1 fun x => iSub true true z.bits (x.g ra) (x.g rb)

/-- R245: QSUBU saturates. -/
def execHQsubu (a : HI) (z : Sz) (rd ra rb : Nat) (s : State) : Host.Outcome State Fault Refusal :=
  s.hookInt a z [ra, rb] rd 1 fun x => iSub true false z.bits (x.g ra) (x.g rb)

/-- R314: ADDI. -/
def execHAddi (a : HI) (z : Sz) (rd ra : Nat) (imm : DWord) (s : State) : Host.Outcome State Fault Refusal :=
  s.hookInt a z [ra] rd 1 fun x => iAdd false true z.bits (x.g ra) imm.toNat

/-- R314: CMPI writes the flags of A - imm. -/
def execHCmpi (a : HI) (z : Sz) (ra : Nat) (imm : DWord) (s : State) : Host.Outcome State Fault Refusal :=
  s.hookReg a (fun x => ⟨[x.rg ra], [], 1, false⟩) fun x => putCmp x z.bits (x.g ra) imm.toNat

/-- R314: ANDI. -/
def execHAndi (a : HI) (z : Sz) (rd ra : Nat) (imm : DWord) (s : State) : Host.Outcome State Fault Refusal :=
  s.hookInt a z [ra] rd 1 fun x => iresPlain ((x.g ra) &&& imm.toNat)

/-- R314: ORI. -/
def execHOri (a : HI) (z : Sz) (rd ra : Nat) (imm : DWord) (s : State) : Host.Outcome State Fault Refusal :=
  s.hookInt a z [ra] rd 1 fun x => iresPlain ((x.g ra) ||| imm.toNat)

/-- R314: XORI. -/
def execHXori (a : HI) (z : Sz) (rd ra : Nat) (imm : DWord) (s : State) : Host.Outcome State Fault Refusal :=
  s.hookInt a z [ra] rd 1 fun x => iresPlain ((x.g ra) ^^^ imm.toNat)

/-- R250: SHLI. -/
def execHShli (a : HI) (z : Sz) (rd ra : Nat) (n : Nat) (s : State) : Host.Outcome State Fault Refusal :=
  s.hookInt a z [ra] rd 1 fun x => iShl z.bits (x.g ra) n

/-- R250: SHRI. -/
def execHShri (a : HI) (z : Sz) (rd ra : Nat) (n : Nat) (s : State) : Host.Outcome State Fault Refusal :=
  s.hookInt a z [ra] rd 1 fun x => iShr z.bits (x.g ra) n

/-- R250: SARI. -/
def execHSari (a : HI) (z : Sz) (rd ra : Nat) (n : Nat) (s : State) : Host.Outcome State Fault Refusal :=
  s.hookInt a z [ra] rd 1 fun x => iSar z.bits (x.g ra) n

/-- R250: ROLI. -/
def execHRoli (a : HI) (z : Sz) (rd ra : Nat) (n : Nat) (s : State) : Host.Outcome State Fault Refusal :=
  s.hookInt a z [ra] rd 1 fun x => iresPlain (rolI z.bits (x.g ra) n)

/-- R250: RORI. -/
def execHRori (a : HI) (z : Sz) (rd ra : Nat) (n : Nat) (s : State) : Host.Outcome State Fault Refusal :=
  s.hookInt a z [ra] rd 1 fun x => iresPlain (rorI z.bits (x.g ra) n)

/-- R315: MULI. -/
def execHMuli (a : HI) (z : Sz) (rd ra : Nat) (imm : DWord) (s : State) : Host.Outcome State Fault Refusal :=
  s.hookInt a z [ra] rd z.mulCount fun x => iMul false true z.bits (x.g ra) imm.toNat

/-- R314: MOVI loads the immediate at size s, zero-extended (R304). -/
def execHMovi (a : HI) (z : Sz) (rd : Nat) (imm : DWord) (s : State) : Host.Outcome State Fault Refusal :=
  s.hookReg a (intReq [] rd 1) fun x => x.setG rd (imm.toNat % 2 ^ z.bits)

/-- R314: MOV between the register pairs it accepts; the tag goes with a capability. -/
def execHMov (a : HI) (k : MovKind) (d n : Nat) (s : State) : Host.Outcome State Fault Refusal :=
  let c := a.core
  let t := a.thr
  match k with
  | .gg => s.hookReg a (fun x => ⟨[x.rg n], [x.rg d], 1, false⟩) fun x => x.setG d (x.g n)
  | .gw => s.hookReg a (fun x => ⟨[x.rw n], [x.rg d], 1, false⟩) fun x => x.setG d (x.w n)
  | .wg => s.hookReg a (fun x => ⟨[x.rg n], [x.rw d], 1, false⟩) fun x => x.setW d (x.g n)
  | .gf => s.hookReg a (fun x => ⟨[.f n], [x.rg d], 1, false⟩) fun x => x.setG d (x.f n)
  | .fg => .next (s.hookIssue a (fun x => ⟨[x.rg n], [.f d], 1, false⟩) fun s => .ok (s.setF c t d ((s.th c t).g n)))
  | .ff => .next (s.hookIssue a (fun _ => ⟨[.f n], [.f d], 1, false⟩) fun s => .ok (s.setF c t d ((s.th c t).f n)))
  | .cc => s.hookReg a (fun x => ⟨[x.rc n], [x.rc d], 1, false⟩) fun x => x.setC d (x.c n)

/-- R320: CSEL selects ra where the condition holds, else rb. -/
def execHCsel (a : HI) (z : Sz) (rd ra rb cc : Nat) (s : State) : Host.Outcome State Fault Refusal :=
  s.hookReg a (intReq [ra, rb] rd 1) fun x => x.setG rd ((if condHolds x cc then x.g ra else x.g rb) % 2 ^ z.bits)

/-- R314: SEXT extends from size s to 64 bits. -/
def execHSext (a : HI) (z : Sz) (rd ra : Nat) (s : State) : Host.Outcome State Fault Refusal :=
  s.hookReg a (intReq [ra] rd 1) fun x => x.setG rd (wrapI 64 (signedOf z.bits (x.g ra)))

/-- R314: ZEXT extends from size s to 64 bits. -/
def execHZext (a : HI) (z : Sz) (rd ra : Nat) (s : State) : Host.Outcome State Fault Refusal :=
  s.hookReg a (intReq [ra] rd 1) fun x => x.setG rd (x.g ra % 2 ^ z.bits)

/-- R245: QMUL saturates. -/
def execHQmul (a : HI) (z : Sz) (rd ra rb : Nat) (s : State) : Host.Outcome State Fault Refusal :=
  s.hookInt a z [ra, rb] rd z.mulCount fun x => iMul true true z.bits (x.g ra) (x.g rb)

/-- R245: QMULU saturates. -/
def execHQmulu (a : HI) (z : Sz) (rd ra rb : Nat) (s : State) : Host.Outcome State Fault Refusal :=
  s.hookInt a z [ra, rb] rd z.mulCount fun x => iMul true false z.bits (x.g ra) (x.g rb)

/-- R247: QNEG saturates. -/
def execHQneg (a : HI) (z : Sz) (rd ra : Nat) (s : State) : Host.Outcome State Fault Refusal :=
  s.hookInt a z [ra] rd 1 fun x => iNeg true true z.bits (x.g ra)

/-- R247: QNEGU saturates. -/
def execHQnegu (a : HI) (z : Sz) (rd ra : Nat) (s : State) : Host.Outcome State Fault Refusal :=
  s.hookInt a z [ra] rd 1 fun x => iNeg true false z.bits (x.g ra)

/-- R247: QABS saturates. -/
def execHQabs (a : HI) (z : Sz) (rd ra : Nat) (s : State) : Host.Outcome State Fault Refusal :=
  s.hookInt a z [ra] rd 1 fun x => iAbs true z.bits (x.g ra)

/-- R248, R249: QDIV saturates. -/
def execHQdiv (a : HI) (z : Sz) (rd ra rb : Nat) (s : State) : Host.Outcome State Fault Refusal :=
  s.hookDiv a z rd ra rb (iDiv true true z.bits)

/-- R254: PDADD. -/
def execHPdadd (a : HI) (rd ra rb : Nat) (s : State) : Host.Outcome State Fault Refusal := s.hookPd a rd ra rb (· + ·)

/-- R254: PDSUB. -/
def execHPdsub (a : HI) (rd ra rb : Nat) (s : State) : Host.Outcome State Fault Refusal := s.hookPd a rd ra rb (· - ·)

end Sys2Proof.Machine
end

