-- ==== Sys2Proof/Machine/HookRep.lean ====
section
/-!
DEFINITION. Sys2Proof/Machine/HookRep.lean: the block-repeat family (R326 to R329).
-/
namespace Sys2Proof.Machine

/-- A block-repeat operation. -/
inductive RepOp where
  | mov | movd | fill | cmp | scan
  deriving DecidableEq, Repr

/-- One iteration: complete, or with the fault of an element whose iteration has not begun. -/
inductive RepRes where
  | ok (s : State)
  | fault (s : State) (e : Exc)

/-- An element's address. -/
def repAddr (x : Thread) (cap off : Nat) : Nat := (capAddr (x.c cap) + off) % 2 ^ 64

/-- An element load, with the checks of R308; poison ends the instruction at this element. -/
def State.repLoad (s : State) (a : HI) (cap ea n : Nat) : Except (State × Exc) (Nat × State) :=
  let c := (s.th a.core a.thr).c cap
  match s.accFault a.core a.thr ⟨c, ea, n, [pLoad], none, false, false⟩ with
  | some e => .error (s, e)
  | none =>
    let g := s.getMem a.core a.thr c ea n
    if g.poison then .error (g.s, exc 7 0 ea (g.s.insAddr a)) else .ok (g.v, g.s)

/-- An element store. -/
def State.repStore (s : State) (a : HI) (cap ea n v : Nat) : Except (State × Exc) State :=
  let c := (s.th a.core a.thr).c cap
  match s.accFault a.core a.thr ⟨c, ea, n, [pStore], some v, false, false⟩ with
  | some e => .error (s, e)
  | none => .ok (s.bufStore a.core a.thr c ea n v false)

/-- The offsets g2 and g3 after an iteration. -/
def State.repAdvance (s : State) (a : HI) (g2 g3 : Option Nat) : State :=
  s.updTh a.core a.thr fun x =>
    let x := match g2 with | some v => x.setG 2 (v % 2 ^ 64) | none => x
    match g3 with | some v => x.setG 3 (v % 2 ^ 64) | none => x

/-- An element copied from c[src] + p to c[dst] + q. -/
def State.repCopy (s : State) (a : HI) (src dst p q n g2 g3 : Nat) : RepRes :=
  let x := s.th a.core a.thr
  match s.repLoad a src (repAddr x src p) n with
  | .error (s, e) => .fault s e
  | .ok (v, s) =>
    match s.repStore a dst (repAddr x dst q) n v with
    | .error (s, e) => .fault s e
    | .ok s => .ok (s.repAdvance a (some g2) (some g3))

/-- R326: one iteration. `src` and `dst` are the capability registers in the roles of c1 and c2. -/
def State.repIter (s : State) (a : HI) (op : RepOp) (z : Sz) (src dst : Nat) : RepRes :=
  let x := s.th a.core a.thr
  let n := z.bytes
  let g2 := x.g 2
  let g3 := x.g 3
  let back := fun (v : Nat) => (v + 2 ^ 64 - n) % 2 ^ 64
  match op with
  | .mov => s.repCopy a src dst g2 g3 n (g2 + n) (g3 + n)
  | .movd => s.repCopy a src dst (back g2) (back g3) n (back g2) (back g3)
  | .fill =>
    match s.repStore a dst (repAddr x dst g3) n (x.g 4 % 2 ^ z.bits) with
    | .error (s, e) => .fault s e
    | .ok s => .ok (s.repAdvance a none (some (g3 + n)))
  | .cmp =>
    match s.repLoad a src (repAddr x src g2) n with
    | .error (s, e) => .fault s e
    | .ok (p, s) =>
      match s.repLoad a dst (repAddr x dst g3) n with
      | .error (s, e) => .fault s e
      | .ok (q, s) => .ok ((s.updTh a.core a.thr fun x => putCmp x z.bits p q).repAdvance a (some (g2 + n)) (some (g3 + n)))
  | .scan =>
    match s.repLoad a src (repAddr x src g2) n with
    | .error (s, e) => .fault s e
    | .ok (p, s) => .ok ((s.updTh a.core a.thr fun x => putCmp x z.bits p (x.g 4 % 2 ^ z.bits)).repAdvance a (some (g2 + n)) none)

/-- Whether a repeat goes on after an iteration. -/
def repGoes (rep : Rpt) (z : Bool) : Bool :=
  match rep with
  | .none => false
  | .rpt => true
  | .eq => z
  | .ne => !z

/-- R326, R328: the iterations of a repeated instruction, at most `steps` of them before an exception entry interrupts it. -/
def State.repLoop (s : State) (a : HI) (op : RepOp) (z : Sz) (src dst : Nat) (rep : Rpt) : Nat → HOut
  | 0 => if (s.th a.core a.thr).g 1 = 0 then .ok s else .again s
  | k + 1 =>
    let n := (s.th a.core a.thr).g 1
    if n = 0 then .ok s
    else match s.repIter a op z src dst with
      | .fault s e => .fault s e
      | .ok s =>
        let s := s.updTh a.core a.thr fun x => x.setG 1 (n - 1)
        if repGoes rep ((s.th a.core a.thr).sbit 5) then s.repLoop a op z src dst rep k else .ok s

/-- The registers that the family uses (R326). -/
def repRegs (x : Thread) (src dst : Nat) : List HReg := [1, 2, 3, 4].map x.rg ++ [x.rc src, x.rc dst]

/-- Issue a block-repeat instruction. -/
def State.repIns (s : State) (a : HI) (op : RepOp) (z : Sz) (rep : Rpt) (src dst steps : Nat) : Host.Outcome State Fault Refusal :=
  .next (s.hookIssue a (fun x => ⟨repRegs x src dst, [1, 2, 3].map x.rg, 2, false⟩) fun s =>
    match rep with
    | .none =>
      if steps = 0 then .again s
      else match s.repIter a op z src dst with
        | .ok s => .ok s
        | .fault s e => .fault s e
    | _ => s.repLoop a op z src dst rep steps)

/-- R326: BMOV; `cap` is c1 or its override. -/
def execHBmov (a : HI) (z : Sz) (rep : Rpt) (cap steps : Nat) (s : State) : Host.Outcome State Fault Refusal :=
  s.repIns a .mov z rep cap 2 steps

/-- R326: BFILL; `cap` is c2 or its override. -/
def execHBfill (a : HI) (z : Sz) (rep : Rpt) (cap steps : Nat) (s : State) : Host.Outcome State Fault Refusal :=
  s.repIns a .fill z rep 1 cap steps

/-- R326: BCMP. -/
def execHBcmp (a : HI) (z : Sz) (rep : Rpt) (cap steps : Nat) (s : State) : Host.Outcome State Fault Refusal :=
  s.repIns a .cmp z rep cap 2 steps

/-- R326: BSCAN. -/
def execHBscan (a : HI) (z : Sz) (rep : Rpt) (cap steps : Nat) (s : State) : Host.Outcome State Fault Refusal :=
  s.repIns a .scan z rep cap 2 steps

/-- R326: BMOVD. -/
def execHBmovd (a : HI) (z : Sz) (rep : Rpt) (cap steps : Nat) (s : State) : Host.Outcome State Fault Refusal :=
  s.repIns a .movd z rep cap 2 steps

end Sys2Proof.Machine
end

