-- ==== Sys2Proof/Machine/HostIf.lean ====
section
/-!
DEFINITION. Sys2Proof/Machine/HostIf.lean: the host's accesses to the BARs, DMA channels, result rings, function-level resets, the
link and PCIE_PERST_L, configuration requests, and JTAG debug accesses (17_host_interface.md, R14, R503, R536).
-/
namespace Sys2Proof.Machine

/-! ### Functions (R469, R536) -/

/-- The functions that the link presents (R469). -/
def State.fnExists (s : State) (fn : Nat) : Bool :=
  let mode := s.fld F.PCI_STAT_BIF
  if fn = 0 then true
  else if fn ≤ 8 then decide (fn ≤ s.fld F.PCI_CTRL_NUMVFMAX)
  else (decide (mode = 1) && decide (fn = 9)) || (decide (mode = 2) && decide (fn ≤ 11))

/-- A function's link carries requests. PCI_STAT shows link 0; no register shows the link of a further function. -/
def State.fnLinked (s : State) (fn : Nat) : Bool :=
  s.fnExists fn && !s.host.perst && (decide (8 < fn) || s.flag F.PCI_STAT_UP)

/-- A function answers requests to its BARs. -/
def State.fnLive (s : State) (fn : Nat) : Bool := s.fnLinked fn && s.flag F.PCI_CTRL_EN

/-- The number of the `j`-th resource of a function. -/
def nthOf (count : Nat) (fnOf : Nat → Nat) (fn j : Nat) : Option Nat := ((List.range count).filter fun x => fnOf x == fn)[j]?

/-! ### BAR0 (R470 to R472) -/

/-- What an offset of a function's BAR0 reaches. -/
inductive Bar0 where
  | addr (a : Nat)
  | table (w : Nat)
  | pba (w : Nat)
  | empty
  deriving DecidableEq, Repr

/-- A virtual function's BAR0 (R472). -/
def State.vfBar0 (s : State) (fn off : Nat) : Bar0 :=
  if off < 0x4000 then
    match nthOf 64 s.queueFn fn (off / 0x400) with
    | some q =>
      let a := 0x10800000 + 0x400 * q + off % 0x400
      (match Reg.ofAddr a with
        | some r => if r.kind = .PLQ_SUB ∨ r.kind = .PLQ_CMD ∨ r.kind = .PLQ_STAT ∨ r.kind = .PLQ_CPL then .addr a else .empty
        | none => .empty)
    | none => .empty
  else if off < 0x6000 then
    match nthOf 8 (fun c => s.fld F.PCI_DMA_CTRL_FN c) fn ((off - 0x4000) / 0x40) with
    | some c => .addr (0x10101000 + 0x40 * c + off % 0x40)
    | none => .empty
  else if off < 0x8000 then
    match nthOf 16 (fun r => s.fld F.PCI_RR_CTRL_FN r) fn ((off - 0x6000) / 0x40) with
    | some r => .addr (0x10102000 + 0x40 * r + off % 0x40)
    | none => .empty
  else if off < 0x8400 then .table ((off - 0x8000) / 4)
  else if 0x9000 ≤ off ∧ off < 0x9008 then .pba ((off - 0x9000) / 4)
  else .empty

/-- Where a BAR0 offset of a function leads. -/
def State.bar0 (s : State) (fn off : Nat) : Bar0 :=
  if 1 ≤ fn ∧ fn ≤ 8 then s.vfBar0 fn off else .addr (0x10000000 + off)

/-- Word `w` of a function's pending-bit array. -/
def State.pbaWord (s : State) (fn w : Nat) : Nat :=
  (List.range 32).foldl (fun m k => if s.host.pba.contains (fn * 2048 + 32 * w + k) then m + 2 ^ k else m) 0

/-- A read completes with all ones (R470). -/
def State.allOnes (s : State) (n : Nat) : State := { s with rd := List.replicate n 0xFF }

/-- R471: HOST_BAR0_WRITE. `full`: one aligned DWORD with all byte enables set. -/
def State.bar0Write (s : State) (fn off : Nat) (v : Word) (full : Bool) : State :=
  if !full || decide (off % 4 ≠ 0) then s.bump F.PCI_ERR_BADSZ
  else match s.bar0 fn off with
    | .addr a => s.writeBy (.host fn) a v
    | .table w => s.writeMsix fn w v
    | .pba _ => s.bump F.PCI_ERR_WPERM
    | .empty => s

def execHostBar0Write (fn off : Nat) (v : Word) (full : Bool) (s : State) : Host.Outcome State Fault Refusal :=
  .next (s.when (s.fnLive fn) fun s => s.bar0Write fn off v full)

/-- R471: HOST_BAR0_READ. -/
def State.bar0Read (s : State) (fn off : Nat) (full : Bool) : State :=
  if !full || decide (off % 4 ≠ 0) then (s.bump F.PCI_ERR_BADSZ).allOnes 4
  else match s.bar0 fn off with
    | .addr a => s.readBy (.host fn) a
    | .table w => { s with rd := leBytes 4 (s.msixWord fn w).toNat }
    | .pba w => { s with rd := leBytes 4 (s.pbaWord fn w) }
    | .empty => { s with rd := leBytes 4 0 }

def execHostBar0Read (fn off : Nat) (full : Bool) (s : State) : Host.Outcome State Fault Refusal :=
  .next (s.when (s.fnLive fn) fun s => s.bar0Read fn off full)

/-! ### BAR2 and BAR4 (R470) -/

/-- Whether a window's capability lets `fn` reach [a, a + n): its permission, its bounds, and bounds within the target. -/
def windowOk (c : CapV) (perm lo hi a n : Nat) : Bool :=
  capHas c perm && capCovers c a n && decide (lo ≤ capBase c ∧ capTop c ≤ hi)

/-- One access through a window: of `n` bytes at `a`, whose handle's bounds must lie in [lo, hi). -/
def State.window (s : State) (fn h lo hi a n : Nat) (wr : Bool) (data : List Byte) : State :=
  let (r, s) := s.resolveHandle h fn
  let ok := match r with
    | .ok c => windowOk c (if wr then pStore else pLoad) lo hi a n
    | _ => false
  if !ok then (let s := s.bump F.PCI_ERR_WINDOW; if wr then s else s.allOnes n)
  else if wr then s.store a data
  else let (bs, _, s) := s.load a n; { s with rd := bs }

/-- HOST_BAR2_ACCESS: PF0's stash window; a write brings its bytes, a read asks for `n`. -/
def execHostBar2Access (off n : Nat) (wr : Bool) (data : List Byte) (s : State) : Host.Outcome State Fault Refusal :=
  .next (s.when (s.fnLive 0) fun s =>
    s.window 0 (s.fld F.PCI_BAR2_H) stashBase (stashBase + stashSize) (stashBase + off) (if wr then data.length else n) wr data)

/-- The DDR window of a function: its handle and its offset (R469). -/
def State.bar4Of (s : State) (fn : Nat) : Nat × Nat :=
  if fn = 0 then (s.fld F.PCI_BAR4_H, s.pair F.PCI_BAR4_OFF_LO F.PCI_BAR4_OFF_HI)
  else (s.fld F.PCI_LNK_BAR4_H (fn - 8), s.pair F.PCI_LNK_BAR4_OFF_LO F.PCI_LNK_BAR4_OFF_HI (fn - 8))

/-- HOST_BAR4_ACCESS: PF0 and the functions of further links have a DDR window (R469, R472). -/
def execHostBar4Access (fn off n : Nat) (wr : Bool) (data : List Byte) (s : State) : Host.Outcome State Fault Refusal :=
  .next (s.when (s.fnLive fn && (decide (fn = 0) || decide (8 < fn))) fun s =>
    let w := s.bar4Of fn
    s.window fn w.1 ddrBase s.ddrTop (w.2 + off) (if wr then data.length else n) wr data)

/-! ### DMA (R475, R476) -/

/-- A write to host memory. -/
def State.toHost (s : State) (a : Nat) (bs : List Byte) (poisoned : Bool := false) : State :=
  s.send (.hostWrite (BitVec.ofNat 64 a) bs poisoned)

/-- A handle of a descriptor in progress: one that a fence found in progress may have been resolved before it (R475). -/
def State.dmaHandle (s : State) (c h fn : Nat) : HRes × State :=
  if s.host.busy.contains c then
    let (x, s) := s.fresh
    match s.host.old.find? fun e => e.1 == h && x % 2 == 1 with
    | some (_, cap, m) => ((if cap.tag && m.toNat.testBit fn then .ok (capWithOtype cap 0 true) else .invalid), s)
    | none => s.resolveHandle h fn
  else s.resolveHandle h fn

/-- Whether a DMA channel or a result ring reaches an address: stash and DDR (R466). -/
def State.dmaReach (s : State) (a n : Nat) : Bool :=
  let r := s.regionOfRange a n
  decide (r = .stash) || decide (r = .ddr)

/-- Status of a descriptor, and the state after its transfer: 32 bytes `d`; `data` are the bytes that the host returned, `ok` that it
returned no error. -/
def State.dmaMove (s : State) (c fn : Nat) (d data : List Byte) (ok : Bool) : Nat × State :=
  let h := leAt d 0 2
  let dir := leAt d 2 1 % 2
  let n := leAt d 4 4
  let ha := leAt d 16 8
  let (r, s) := s.dmaHandle c h fn
  match r with
  | .invalid => (1, s)
  | .poison _ => (3, s)
  | .ok cap =>
    let a := capBase cap + leAt d 8 8
    if n = 0 ∨ 2 ^ 24 < n ∨ !capHas cap (if dir = 1 then pStore else pLoad) ∨ !capCovers cap a n ∨ !s.dmaReach a n then (2, s)
    else if dir = 1 then
      let s := s.store a (data.take n)
      (if ok then 0 else 4, s)
    else
      let (bs, p, s) := s.load a n
      let s := s.toHost ha bs p
      (if p then 3 else if ok then 0 else 4, s)

/-- The descriptor ends: its status and HEAD go to host memory, the vector is raised where it asks, and any status but 0 halts the
channel. -/
def State.dmaEnd (s : State) (c fn : Nat) (d : List Byte) (st : Nat) : State :=
  let head := s.fld F.PCI_DMA_HEAD c
  let ring := s.pair F.PCI_DMA_RING_LO F.PCI_DMA_RING_HI c
  let s := s.toHost (ring + 32 * head + 3) [BitVec.ofNat 8 st]
  let next := (head + 1) % s.fld F.PCI_DMA_SIZE c
  let s := s.setFld F.PCI_DMA_HEAD next c
  let s := s.toHost (s.pair F.PCI_DMA_WB_LO F.PCI_DMA_WB_HI c) (leBytes 4 next)
  let s := if st = 0 then s else s.setFld F.PCI_DMA_STAT_1 1 c
  let s := if (leAt d 2 1).testBit 1 then s.msix fn (18 + placeOf (fun c => s.fld F.PCI_DMA_CTRL_FN c) c) else s
  { s with host := { s.host with busy := setDel s.host.busy c } }

/-- One descriptor of a channel, from its fetch to its end. -/
def State.dmaDone (s : State) (c : Nat) (d data : List Byte) (ok : Bool) : State :=
  let fn := s.fld F.PCI_DMA_CTRL_FN c
  if s.dmaActive c && s.fnLinked fn && decide (d.length = 32) && (!ok || decide (leAt d 2 1 % 2 = 0) || decide (data.length = leAt d 4 4)) then
    let r := s.dmaMove c fn d data ok
    r.2.dmaEnd c fn d r.1
  else s

/-- R476: DMA_DESCRIPTOR_DONE. -/
def execDmaDescriptorDone (c : Nat) (d data : List Byte) (ok : Bool) (s : State) : Host.Outcome State Fault Refusal :=
  .next (s.when (decide (c < 8)) fun s => s.dmaDone c d data ok)

/-- R503: a completion timeout of a channel's read from the host: status 4 and HALT, counted, and reported through AER (R473). -/
def execPcieCompletionTimeout (c : Nat) (d data : List Byte) (s : State) : Host.Outcome State Fault Refusal :=
  .next (s.when (decide (c < 8) && s.dmaActive c) fun s =>
    let fn := s.fld F.PCI_DMA_CTRL_FN c
    let s := (s.bump F.TMO_CNT1_16).expiry
    let s := if d.length = 32 then s.dmaDone c d (data.take (leAt d 4 4)) false else s.dmaEnd c fn [] 4
    s.msix fn 1)

/-- R475: HANDLE_FENCE_DONE. -/
def execHandleFenceDone (s : State) : Host.Outcome State Fault Refusal :=
  .next (s.when (s.host.busy.all fun c => !s.dmaActive c) fun s =>
    { s.setFld F.PCI_HFENCE_0 1 with host := { s.host with busy := [], old := [] } })

/-! ### Result rings (R477, R478) -/

/-- The row at the head of a ring is handled. -/
def State.rowDone (s : State) (r : Nat) : State :=
  { s with host := { s.host with rows := s.host.rows.upd r [] (·.drop 1) } }

/-- The device entry of a row: its bytes and poison where the ring's handle gives them. -/
def State.rrEntry (s : State) (r row : Nat) : Option (List Byte × Bool) × State :=
  let size := 2 ^ s.fld F.PCI_RR_CTRL_ELOG r
  let (h, s) := s.resolveHandle (s.fld F.PCI_RR_H r) (s.fld F.PCI_RR_CTRL_FN r)
  match h with
  | .ok cap =>
    let a := capBase cap + row % 2 ^ s.fld F.PCI_RR_CTRL_DLOG r * size
    if capHas cap pLoad && capCovers cap a size && s.dmaReach a size && !s.poisoned a 8 then
      let (bs, p, s) := s.load a size
      (some (bs, p), s)
    else (none, s)
  | _ => (none, s)

/-- Copy an entry to the host ring at PROD. -/
def State.rrCopy (s : State) (r : Nat) (bs : List Byte) (p : Bool) : State :=
  let prod := s.fld F.PCI_RR_PROD r
  let at_ := s.pair F.PCI_RR_HOST_LO F.PCI_RR_HOST_HI r + prod % s.fld F.PCI_RR_HSIZE r * 2 ^ s.fld F.PCI_RR_CTRL_ELOG r
  let s := (s.toHost at_ bs p).setFld F.PCI_RR_PROD ((prod + 1) % 2 ^ 32) r
  let s := s.toHost (s.pair F.PCI_RR_WB_LO F.PCI_RR_WB_HI r) (leBytes 4 (s.fld F.PCI_RR_PROD r))
  s.msix (s.fld F.PCI_RR_CTRL_FN r) (26 + placeOf (fun r => s.fld F.PCI_RR_CTRL_FN r) r)

/-- The host ring takes no record: it is full (R478), or the host function is lost (R14). -/
def State.rrFull (s : State) (r : Nat) : Bool :=
  decide ((s.fld F.PCI_RR_PROD r + 2 ^ 32 - s.fld F.PCI_RR_CONS r) % 2 ^ 32 = s.fld F.PCI_RR_HSIZE r) ||
    !s.fnLinked (s.fld F.PCI_RR_CTRL_FN r)

/-- R477, R478: the oldest row of a ring is handled. -/
def State.rrHandle (s : State) (r : Nat) : State :=
  match s.host.rows.get r [] with
  | [] => s
  | row :: _ =>
    let hold := s.flag F.PCI_RR_CTRL_POL r
    let (e, s) := s.rrEntry r row
    let first := match e with | some (bs, _) => ofLeBytes (bs.take 8) | none => 0
    if e.isSome ∧ first = row then
      if s.rrFull r then (if hold then s else (s.rowDone r).bump F.PCI_RR_CNT_16 r)
      else match e with
        | some (bs, p) => (s.rowDone r).rrCopy r bs p
        | none => s
    else if hold && e.isSome && decide (row < first) then (s.rowDone r).bump F.PCI_RR_CNT_16 r
    else (s.rowDone r).bump F.PCI_RR_CNT_0 r

/-- R477: RESULT_RECORD_COPY. -/
def execResultRecordCopy (r : Nat) (s : State) : Host.Outcome State Fault Refusal :=
  .next (s.when (decide (r < 16) && s.flag F.PCI_RR_CTRL_EN r) fun s => s.rrHandle r)

/-! ### Resets of functions, the link, PCIE_PERST_L (R14, R480, R536) -/

/-- A register returns to its reset value. -/
def State.resetReg (s : State) (k : RegKind) (i : Nat) : State := s.setReg ⟨k, i, 0⟩ k.resetWord

/-- R480: a host-owned queue is cut at once, and its completion records are discarded. -/
def State.flrQueue (s : State) (q : Nat) : State :=
  let s := ((s.startQBindoff q).xfrog ((s.setOf q).getD 0) q true false)
  let s := (((s.cutInst q false).cutInst q false).cutInst q true).endQBindoff q
  s.setPlq q { s.plq q with cpl := [], stopped := false }

/-- R480: a DMA channel's registers return to reset values. -/
def State.flrDma (s : State) (c : Nat) : State :=
  [RegKind.PCI_DMA_CTRL, .PCI_DMA_RING_LO, .PCI_DMA_RING_HI, .PCI_DMA_SIZE, .PCI_DMA_TAIL, .PCI_DMA_HEAD, .PCI_DMA_WB_LO,
    .PCI_DMA_WB_HI, .PCI_DMA_STAT].foldl (fun s k => s.resetReg k c) s

/-- R480: a result ring's pending rows count in LOST, and its registers return to reset values. -/
def State.flrRing (s : State) (r : Nat) : State :=
  let lost := (s.host.rows.get r []).length
  let s := [RegKind.PCI_RR_CTRL, .PCI_RR_H, .PCI_RR_HOST_LO, .PCI_RR_HOST_HI, .PCI_RR_HSIZE, .PCI_RR_CONS, .PCI_RR_PROD, .PCI_RR_WB_LO,
    .PCI_RR_WB_HI].foldl (fun s k => s.resetReg k r) s
  { s.bump F.PCI_RR_CNT_16 r lost with host := { s.host with rows := s.host.rows.del r } }

/-- R480, R469: the window registers of a function read 0. -/
def State.flrWindows (s : State) (fn : Nat) : State :=
  if fn = 0 then
    [RegKind.PCI_BAR2_H, .PCI_BAR4_H, .PCI_BAR4_OFF_LO, .PCI_BAR4_OFF_HI].foldl (fun s k => s.resetReg k 0) s
  else if 8 < fn then
    [RegKind.PCI_LNK_BAR4_H, .PCI_LNK_BAR4_OFF_LO, .PCI_LNK_BAR4_OFF_HI].foldl (fun s k => s.resetReg k (fn - 8)) s
  else s

/-- R480: an outstanding mailbox request is abandoned. -/
def State.flrMailbox (s : State) : State :=
  let s := { s with ect := { s.ect with segs := s.ect.segs.del 1 } }
  if s.flag F.PCI_DMB_STAT_BUSY then
    ((s.setFld F.PCI_DMB_STAT_BUSY 0).setFld F.PCI_DMB_STAT_DONE 1).setFld F.PCI_DMB_ABORT 0x08000000
  else s

/-- A function's MSI-X table and pending bits are cleared (R480). -/
def State.flrMsix (s : State) (fn : Nat) : State :=
  { s with host := { s.host with
      msix := s.host.msix.filter fun e => e.1 / 8192 != fn
      pba := s.host.pba.filter fun k => k / 2048 != fn } }

/-- R480: a function-level reset of one function. -/
def State.flr (s : State) (fn : Nat) : State :=
  let qs := (List.range 64).filter fun q => s.flag F.PLQ_CTRL_OWNER q && decide (s.queueFn q = fn)
  let cs := (List.range 8).filter fun c => decide (s.fld F.PCI_DMA_CTRL_FN c = fn)
  let rs := (List.range 16).filter fun r => decide (s.fld F.PCI_RR_CTRL_FN r = fn)
  let s := qs.foldl State.flrQueue (s.flrMsix fn)
  let s := rs.foldl State.flrRing (cs.foldl State.flrDma s)
  let s := (s.flrWindows fn).flrMsix fn
  let s := { s with host := { s.host with cfg := s.host.cfg.filter fun e => e.1 / 1024 != fn } }
  if fn = 0 then s.flrMailbox else s

/-- FUNCTION_LEVEL_RESET; vector 186 goes to firmware for PF0. -/
def execFunctionLevelReset (fn : Nat) (s : State) : Host.Outcome State Fault Refusal :=
  .next (s.when (s.fnLinked fn) fun s =>
    let s := (s.flr fn).setFld F.PCI_STAT_FLR 1
    if fn = 0 then s.raise 186 else s)

/-- The link leaves L0. -/
def State.pcieDown (s : State) : State :=
  if s.flag F.PCI_STAT_UP then ((s.setFld F.PCI_STAT_UP 0).setFld F.PCI_STAT_LINKDOWN 1).raise 186 else s

/-- R14: PCIE_LINK_DOWN. -/
def execPcieLinkDown (s : State) : Host.Outcome State Fault Refusal := .next s.pcieDown

/-- R468: PCIE_LINK_UP: rate 1 to 5 and the negotiated width. With the reserved strap value the link stays in Detect (R536). -/
def execPcieLinkUp (rate width : Nat) (s : State) : Host.Outcome State Fault Refusal :=
  .next (s.when (!s.host.perst && decide (s.fld F.PCI_STAT_BIF ≠ 3) && decide (1 ≤ rate ∧ rate ≤ 5)
      && [1, 2, 4, 8, 16].contains width) fun s =>
    ((((s.setFld F.PCI_STAT_UP 1).setFld F.PCI_STAT_RATE rate).setFld F.PCI_STAT_WIDTH width).raise 186).msix 0 1)

/-- R536: PCIE_PERST: every function is held as after a function-level reset. -/
def execPciePerst (s : State) : Host.Outcome State Fault Refusal :=
  .next (s.when (!s.host.perst) fun s =>
    let s := (List.range 12).foldl State.flr s.pcieDown
    { s with host := { s.host with perst := true } })

/-- R536: PCIE_PERST_RELEASE. -/
def execPciePerstRelease (s : State) : Host.Outcome State Fault Refusal :=
  .next (s.when s.host.perst fun s => { s.setFld F.PCI_CTRL_EN 0 with host := { s.host with perst := false } })

/-- R536: CONFIGURATION_REQUEST: word `w` of a function's configuration space. -/
def execConfigurationRequest (fn w : Nat) (wr : Bool) (v : Word) (s : State) : Host.Outcome State Fault Refusal :=
  .next (s.when (s.fnLinked fn && decide (w < 1024)) fun s =>
    if !s.flag F.PCI_CTRL_EN then s.send (.pcieRetry fn)
    else if wr then { s with host := { s.host with cfg := s.host.cfg.set (fn * 1024 + w) v } }
    else { s with rd := leBytes 4 (Config.cfgRead fn w (s.host.cfg.get (fn * 1024 + w) 0)).toNat })

/-! ### JTAG (R442, R466) -/

/-- R466: a debug access of JTAG to memory. -/
def State.jtagMem (s : State) (r : Region) (a n : Nat) (wr : Bool) (data : List Byte) : State :=
  if !(s.jtagOpen (if r = .stash ∨ r = .ddr then 1 else 0)) || decide (r = .reserved) then s.refusedPath
  else if !wr then let (bs, _, s) := s.load a n; { s with rd := bs }
  else if r = .rom ∨ s.inFwWindow a n then s
  else s.store a data

/-- JTAG_DEBUG_ACCESS: a write brings its bytes, a read asks for `n`; a register access is of one word. -/
def execJtagDebugAccess (a n : Nat) (wr : Bool) (data : List Byte) (s : State) : Host.Outcome State Fault Refusal :=
  let len := if wr then data.length else n
  let r := s.regionOfRange a len
  .next (s.when (decide (0 < len)) fun s =>
    if r = .ctrl then
      (if a % 4 = 0 ∧ len = 4 then (if wr then s.writeBy .jtag a (BitVec.ofNat 32 (ofLeBytes data)) else s.readBy .jtag a) else s.refusedPath)
    else s.jtagMem r a len wr data)

end Sys2Proof.Machine
end

