-- ==== Sys2Proof/Machine/Stream.lean ====
section
/-!
DEFINITION. Sys2Proof/Machine/Stream.lean: the stream instructions, opcode by opcode (06_stream_instructions.md,
07_plies_speculation.md). A step names the instruction's slot, a position and the most elements it issues.
-/
namespace Sys2Proof.Machine

/-- R177: stream MOV, opcode 0x01. -/
def execStreamMov (a : SI) (s : State) : Host.Outcome State Fault Refusal := .next (s.dataStep 0x01 a)

/-- R182: stream CVT, opcode 0x02. -/
def execCvt (a : SI) (s : State) : Host.Outcome State Fault Refusal := .next (s.dataStep 0x02 a)

/-- R184: stream GATH, opcode 0x03. -/
def execGath (a : SI) (s : State) : Host.Outcome State Fault Refusal := .next (s.dataStep 0x03 a)

/-- R185: stream SCAT, opcode 0x04. -/
def execScat (a : SI) (s : State) : Host.Outcome State Fault Refusal := .next (s.dataStep 0x04 a)

/-- R187: stream LUT, opcode 0x05. -/
def execLut (a : SI) (s : State) : Host.Outcome State Fault Refusal := .next (s.dataStep 0x05 a)

/-- R177: stream ADD, opcode 0x10. -/
def execStreamAdd (a : SI) (s : State) : Host.Outcome State Fault Refusal := .next (s.dataStep 0x10 a)

/-- R177: stream SUB, opcode 0x11. -/
def execStreamSub (a : SI) (s : State) : Host.Outcome State Fault Refusal := .next (s.dataStep 0x11 a)

/-- R177: stream MUL, opcode 0x12. -/
def execStreamMul (a : SI) (s : State) : Host.Outcome State Fault Refusal := .next (s.dataStep 0x12 a)

/-- R180: stream MULH, opcode 0x13. -/
def execStreamMulh (a : SI) (s : State) : Host.Outcome State Fault Refusal := .next (s.dataStep 0x13 a)

/-- R177: stream FMA, opcode 0x14. -/
def execStreamFma (a : SI) (s : State) : Host.Outcome State Fault Refusal := .next (s.dataStep 0x14 a)

/-- R177: stream FMS, opcode 0x15. -/
def execStreamFms (a : SI) (s : State) : Host.Outcome State Fault Refusal := .next (s.dataStep 0x15 a)

/-- R177: stream FNMA, opcode 0x16. -/
def execStreamFnma (a : SI) (s : State) : Host.Outcome State Fault Refusal := .next (s.dataStep 0x16 a)

/-- R179: stream MIN, opcode 0x17. -/
def execStreamMin (a : SI) (s : State) : Host.Outcome State Fault Refusal := .next (s.dataStep 0x17 a)

/-- R179: stream MAX, opcode 0x18. -/
def execStreamMax (a : SI) (s : State) : Host.Outcome State Fault Refusal := .next (s.dataStep 0x18 a)

/-- R177: stream ABS, opcode 0x19. -/
def execStreamAbs (a : SI) (s : State) : Host.Outcome State Fault Refusal := .next (s.dataStep 0x19 a)

/-- R177: stream NEG, opcode 0x1A. -/
def execStreamNeg (a : SI) (s : State) : Host.Outcome State Fault Refusal := .next (s.dataStep 0x1A a)

/-- R180: stream ABSD, opcode 0x1B. -/
def execAbsd (a : SI) (s : State) : Host.Outcome State Fault Refusal := .next (s.dataStep 0x1B a)

/-- R180: stream DOT4, opcode 0x1C. -/
def execDot4 (a : SI) (s : State) : Host.Outcome State Fault Refusal := .next (s.dataStep 0x1C a)

/-- R177: stream CLAMP, opcode 0x1D. -/
def execClamp (a : SI) (s : State) : Host.Outcome State Fault Refusal := .next (s.dataStep 0x1D a)

/-- R183: stream DIV, opcode 0x30. -/
def execStreamDiv (a : SI) (s : State) : Host.Outcome State Fault Refusal := .next (s.dataStep 0x30 a)

/-- R183: stream REM, opcode 0x31. -/
def execStreamRem (a : SI) (s : State) : Host.Outcome State Fault Refusal := .next (s.dataStep 0x31 a)

/-- R177: stream SQRT, opcode 0x32. -/
def execSqrt (a : SI) (s : State) : Host.Outcome State Fault Refusal := .next (s.dataStep 0x32 a)

/-- R177: stream AND, opcode 0x40. -/
def execStreamAnd (a : SI) (s : State) : Host.Outcome State Fault Refusal := .next (s.dataStep 0x40 a)

/-- R177: stream OR, opcode 0x41. -/
def execStreamOr (a : SI) (s : State) : Host.Outcome State Fault Refusal := .next (s.dataStep 0x41 a)

/-- R177: stream XOR, opcode 0x42. -/
def execStreamXor (a : SI) (s : State) : Host.Outcome State Fault Refusal := .next (s.dataStep 0x42 a)

/-- R177: stream ANDN, opcode 0x43. -/
def execStreamAndn (a : SI) (s : State) : Host.Outcome State Fault Refusal := .next (s.dataStep 0x43 a)

/-- R177: stream NOT, opcode 0x44. -/
def execStreamNot (a : SI) (s : State) : Host.Outcome State Fault Refusal := .next (s.dataStep 0x44 a)

/-- R250: stream SHL, opcode 0x45. -/
def execStreamShl (a : SI) (s : State) : Host.Outcome State Fault Refusal := .next (s.dataStep 0x45 a)

/-- R250: stream SHR, opcode 0x46. -/
def execStreamShr (a : SI) (s : State) : Host.Outcome State Fault Refusal := .next (s.dataStep 0x46 a)

/-- R250: stream SAR, opcode 0x47. -/
def execStreamSar (a : SI) (s : State) : Host.Outcome State Fault Refusal := .next (s.dataStep 0x47 a)

/-- R250: stream ROL, opcode 0x48. -/
def execStreamRol (a : SI) (s : State) : Host.Outcome State Fault Refusal := .next (s.dataStep 0x48 a)

/-- R250: stream ROR, opcode 0x49. -/
def execStreamRor (a : SI) (s : State) : Host.Outcome State Fault Refusal := .next (s.dataStep 0x49 a)

/-- R177: stream POPC, opcode 0x4A. -/
def execStreamPopc (a : SI) (s : State) : Host.Outcome State Fault Refusal := .next (s.dataStep 0x4A a)

/-- R177: stream CLZ, opcode 0x4B. -/
def execStreamClz (a : SI) (s : State) : Host.Outcome State Fault Refusal := .next (s.dataStep 0x4B a)

/-- R181: stream CMP, opcode 0x50. -/
def execStreamCmp (a : SI) (s : State) : Host.Outcome State Fault Refusal := .next (s.dataStep 0x50 a)

/-- R181: stream CMPR, opcode 0x51. -/
def execCmpr (a : SI) (s : State) : Host.Outcome State Fault Refusal := .next (s.dataStep 0x51 a)

/-- R177: stream SEL, opcode 0x52. -/
def execSel (a : SI) (s : State) : Host.Outcome State Fault Refusal := .next (s.dataStep 0x52 a)

/-- R190: stream RSUM, opcode 0x60. -/
def execRsum (a : SI) (s : State) : Host.Outcome State Fault Refusal := .next (s.dataStep 0x60 a)

/-- R189: stream RMIN, opcode 0x61. -/
def execRmin (a : SI) (s : State) : Host.Outcome State Fault Refusal := .next (s.dataStep 0x61 a)

/-- R189: stream RMAX, opcode 0x62. -/
def execRmax (a : SI) (s : State) : Host.Outcome State Fault Refusal := .next (s.dataStep 0x62 a)

/-- R189: stream RMINX, opcode 0x63. -/
def execRminx (a : SI) (s : State) : Host.Outcome State Fault Refusal := .next (s.dataStep 0x63 a)

/-- R189: stream RMAXX, opcode 0x64. -/
def execRmaxx (a : SI) (s : State) : Host.Outcome State Fault Refusal := .next (s.dataStep 0x64 a)

/-- R189: stream RANY, opcode 0x65. -/
def execRany (a : SI) (s : State) : Host.Outcome State Fault Refusal := .next (s.dataStep 0x65 a)

/-- R189: stream RALL, opcode 0x66. -/
def execRall (a : SI) (s : State) : Host.Outcome State Fault Refusal := .next (s.dataStep 0x66 a)

/-- R189: stream RCNT, opcode 0x67. -/
def execRcnt (a : SI) (s : State) : Host.Outcome State Fault Refusal := .next (s.dataStep 0x67 a)

/-- R192: stream SCAN, opcode 0x68. -/
def execScan (a : SI) (s : State) : Host.Outcome State Fault Refusal := .next (s.dataStep 0x68 a)

/-- R193: stream CMPS, opcode 0x6A. -/
def execCmps (a : SI) (s : State) : Host.Outcome State Fault Refusal := .next (s.dataStep 0x6A a)

/-- R193: stream EXPD, opcode 0x6B. -/
def execExpd (a : SI) (s : State) : Host.Outcome State Fault Refusal := .next (s.dataStep 0x6B a)

/-- R194: stream HIST, opcode 0x6C. -/
def execHist (a : SI) (s : State) : Host.Outcome State Fault Refusal := .next (s.dataStep 0x6C a)

/-- R195: stream RLE, opcode 0x6D. -/
def execRle (a : SI) (s : State) : Host.Outcome State Fault Refusal := .next (s.dataStep 0x6D a)

/-- R196: stream CONVW, opcode 0x70. -/
def execConvw (a : SI) (s : State) : Host.Outcome State Fault Refusal := .next (s.dataStep 0x70 a)

/-- R197: stream CONVC, opcode 0x71. -/
def execConvc (a : SI) (s : State) : Host.Outcome State Fault Refusal := .next (s.dataStep 0x71 a)

/-- R199: stream MARK, opcode 0x78. -/
def execMark (a : SI) (s : State) : Host.Outcome State Fault Refusal := .next (s.dataStep 0x78 a)

/-- R203, R217, R219: LIFE opens an explicit lifeline once every earlier instruction has finished; it waits while 4 are open. -/
def execLife (a : SI) (s : State) : Host.Outcome State Fault Refusal :=
  .next (s.ctlStep 0x80 a fun s n _ =>
    if s.openLives n < 4 then (s.openLife n a.q a.young .life a.slot false).updInst a.q a.young (ctlDone a.slot) else s)

/-- R203, R224: COMMIT. -/
def execCommit (a : SI) (s : State) : Host.Outcome State Fault Refusal :=
  .next (s.ctlStep 0x81 a fun s _ p =>
    match explicitAt p with
    | some i => if branchWithin p i then s else s.resolveLife a.q a.young a.slot i true p
    | none => s)

/-- R203, R225: FROG. -/
def execFrog (a : SI) (s : State) : Host.Outcome State Fault Refusal :=
  .next (s.ctlStep 0x82 a fun s _ p =>
    match explicitAt p with
    | some i => if branchWithin p i then s else s.resolveLife a.q a.young a.slot i false p
    | none => s)

/-- R203: RESOLV commits where A is not 0 and frogs elsewhere; its read is not covered by the lifeline it resolves. -/
def execResolv (a : SI) (s : State) : Host.Outcome State Fault Refusal :=
  .next (s.ctlStep 0x83 a fun s _ p =>
    match explicitAt p with
    | some i =>
      if branchWithin p i then s
      else
        match s.ctlRead { p with lives := p.lives.eraseIdx i } a.slot with
        | .ok v _ _ => s.resolveLife a.q a.young a.slot i (decide (v ≠ 0)) p
        | .wait => s
        | r => s.evFault a.q a.young a.slot 0 r
    | none => s)

/-- R204: BRC. -/
def execBrc (a : SI) (s : State) : Host.Outcome State Fault Refusal := .next (s.ctlStep 0x84 a fun s n p => s.brcStep a n p)

/-- R231: the branch lifeline commits or frogs when A is written. -/
def execBranchLifelineResolve (q : Nat) (young : Bool) (s : State) : Host.Outcome State Fault Refusal :=
  .next (s.when (decide (q < 64)) fun s => s.branchResolve q young)

/-- R205: SYNC: barrier, release or acquire. -/
def execSync (a : SI) (s : State) : Host.Outcome State Fault Refusal :=
  .next (s.ctlStep 0x85 a fun s n p =>
    match (slotIns p a.slot).md with
    | 0 => s.updInst a.q a.young (ctlDone a.slot)
    | 1 => s.ctlWrite n a p (slotIns p a.slot).imm
    | _ => s.acquire a p)

/-- R205: the element that an issued acquire polls has reached IMM. -/
def execSyncAcquireMet (a : SI) (s : State) : Host.Outcome State Fault Refusal :=
  .next (s.ctlStep 0x85 a fun s _ p => if (slotIns p a.slot).md = 2 then s.acquire a p else s)

/-- R206: WROW. -/
def execWrow (a : SI) (s : State) : Host.Outcome State Fault Refusal := .next (s.ctlStep 0x86 a fun s n p => s.wrow a n p)

/-- R206: the row that an issued WROW awaits is released or dropped. -/
def execWrowRowReady (a : SI) (s : State) : Host.Outcome State Fault Refusal := .next (s.ctlStep 0x86 a fun s n p => s.wrow a n p)

end Sys2Proof.Machine
end

