-- ==== Sys2Proof/Machine/Dispatch.lean ====
section
/-!
DEFINITION. Sys2Proof/Machine/Dispatch.lean: the effect of each command, one arm per constructor.
-/
namespace Sys2Proof.Machine

def exec (i : Instr) (s : State) : Host.Outcome State Fault Refusal :=
  match i with
  | .registerWrite who addr v => Sys2Proof.Machine.execRegisterWrite who addr v s
  | .pairHiWrite who addr v => Sys2Proof.Machine.execPairHiWrite who addr v s
  | .pairLoRead who addr => Sys2Proof.Machine.execPairLoRead who addr s
  | .rscRead who addr => Sys2Proof.Machine.execRscRead who addr s
  | .dcComparison dt sys => Sys2Proof.Machine.execDcComparison dt sys s
  | .ppsEdge dt rising => Sys2Proof.Machine.execPpsEdge dt rising s
  | .tbSourceLost dt => Sys2Proof.Machine.execTbSourceLost dt s
  | .tbsSetWrite who v => Sys2Proof.Machine.execTbsSetWrite who v s
  | .encoderTransition dt e a b => Sys2Proof.Machine.execEncoderTransition dt e a b s
  | .encoderStall dt e => Sys2Proof.Machine.execEncoderStall dt e s
  | .encoderEnable who e v => Sys2Proof.Machine.execEncoderEnable who e v s
  | .courseBoundary dt n => Sys2Proof.Machine.execCourseBoundary dt n s
  | .channelEnterRun dt n => Sys2Proof.Machine.execChannelEnterRun dt n s
  | .schedulerScan dt o => Sys2Proof.Machine.execSchedulerScan dt o s
  | .outputEventDue dt o => Sys2Proof.Machine.execOutputEventDue dt o s
  | .timeEventDue dt o => Sys2Proof.Machine.execTimeEventDue dt o s
  | .pulseEnd dt o => Sys2Proof.Machine.execPulseEnd dt o s
  | .windowEnd dt o => Sys2Proof.Machine.execWindowEnd dt o s
  | .pinHoldEnd dt o => Sys2Proof.Machine.execPinHoldEnd dt o s
  | .commitHorizon dt o => Sys2Proof.Machine.execCommitHorizon dt o s
  | .armReq who => Sys2Proof.Machine.execArmReq who s
  | .disarm who => Sys2Proof.Machine.execDisarm who s
  | .outputBindoff who o => Sys2Proof.Machine.execOutputBindoff who o s
  | .outputBindoffComplete o => Sys2Proof.Machine.execOutputBindoffComplete o s
  | .outputBindoffTimeout o => Sys2Proof.Machine.execOutputBindoffTimeout o s
  | .captureEdge dt n rising => Sys2Proof.Machine.execCaptureEdge dt n rising s
  | .capturePop who n => Sys2Proof.Machine.execCapturePop who n s
  | .evinWrite who o v => Sys2Proof.Machine.execEvinWrite who o v s
  | .discoveryAttempt dt l => Sys2Proof.Machine.execDiscoveryAttempt dt l s
  | .linkUp l => Sys2Proof.Machine.execLinkUp l s
  | .linkLockLoss l => Sys2Proof.Machine.execLinkLockLoss l s
  | .codeErrorThreshold l errs => Sys2Proof.Machine.execCodeErrorThreshold l errs s
  | .lineHeader dt l tag fmt width height => Sys2Proof.Machine.execLineHeader dt l tag fmt width height s
  | .streamPacket l first px crc last overflow => Sys2Proof.Machine.execStreamPacket l first px crc last overflow s
  | .crcResolution n row ok => Sys2Proof.Machine.execCrcResolution n row ok s
  | .courseRelease n => Sys2Proof.Machine.execCourseRelease n s
  | .courseWatchdog dt n => Sys2Proof.Machine.execCourseWatchdog dt n s
  | .heartbeatPacket l => Sys2Proof.Machine.execHeartbeatPacket l s
  | .heartbeatTimeout l => Sys2Proof.Machine.execHeartbeatTimeout l s
  | .eventPacket dt l data => Sys2Proof.Machine.execEventPacket dt l data s
  | .eventFifoPop who => Sys2Proof.Machine.execEventFifoPop who s
  | .mailboxGo who k v => Sys2Proof.Machine.execMailboxGo who k v s
  | .mailboxAnswer k ok ack data => Sys2Proof.Machine.execMailboxAnswer k ok ack data s
  | .mailboxWaitAck k => Sys2Proof.Machine.execMailboxWaitAck k s
  | .mailboxTimeout k => Sys2Proof.Machine.execMailboxTimeout k s
  | .releaseRowWrite who n k v => Sys2Proof.Machine.execReleaseRowWrite who n k v s
  | .dropLogPop who n => Sys2Proof.Machine.execDropLogPop who n s
  | .ingestBindoff who n v => Sys2Proof.Machine.execIngestBindoff who n v s
  | .ingestBindoffEnd n => Sys2Proof.Machine.execIngestBindoffEnd n s
  | .stashRequest port id off line wr data be epoch plq => Sys2Proof.Machine.execStashRequest port id off line wr data be epoch plq s
  | .bankGrant bank dc eccLo eccHi => Sys2Proof.Machine.execBankGrant bank dc eccLo eccHi s
  | .arbitrationTimeout bank dc => Sys2Proof.Machine.execArbitrationTimeout bank dc s
  | .demandWriteback off => Sys2Proof.Machine.execDemandWriteback off s
  | .bankTestSlot => Sys2Proof.Machine.execBankTestSlot s
  | .bankTestCopyEnd => Sys2Proof.Machine.execBankTestCopyEnd s
  | .bankTestCopyAbandon => Sys2Proof.Machine.execBankTestCopyAbandon s
  | .bankTestResult pass => Sys2Proof.Machine.execBankTestResult pass s
  | .bankTestCopyBackEnd => Sys2Proof.Machine.execBankTestCopyBackEnd s
  | .ddrRequest port id addr wr data be drained => Sys2Proof.Machine.execDdrRequest port id addr wr data be drained s
  | .ddrReadReturn c sub id ecc dimm rank dev => Sys2Proof.Machine.execDdrReadReturn c sub id ecc dimm rank dev s
  | .ddrRequestTimeout c => Sys2Proof.Machine.execDdrRequestTimeout c s
  | .ddrFastPathEnd c ok => Sys2Proof.Machine.execDdrFastPathEnd c ok s
  | .ddrFullPath c => Sys2Proof.Machine.execDdrFullPath c s
  | .ddrFillEnd c => Sys2Proof.Machine.execDdrFillEnd c s
  | .patrolScrub c ecc dimm rank dev => Sys2Proof.Machine.execPatrolScrub c ecc dimm rank dev s
  | .spdThermalRead c temp => Sys2Proof.Machine.execSpdThermalRead c temp s
  | .pmicError c => Sys2Proof.Machine.execPmicError c s
  | .ddrRecoverCommand who c => Sys2Proof.Machine.execDdrRecoverCommand who c s
  | .plySubmit who q v => Sys2Proof.Machine.execPlySubmit who q v s
  | .plyStart n => Sys2Proof.Machine.execPlyStart n s
  | .pinEnable who q => Sys2Proof.Machine.execPinEnable who q s
  | .suspendComplete n => Sys2Proof.Machine.execSuspendComplete n s
  | .plyFaulted q young => Sys2Proof.Machine.execPlyFaulted q young s
  | .resume who q => Sys2Proof.Machine.execResume who q s
  | .abort who q => Sys2Proof.Machine.execAbort who q s
  | .plyRetire q => Sys2Proof.Machine.execPlyRetire q s
  | .completionPop who q => Sys2Proof.Machine.execCompletionPop who q s
  | .instructionWatchdog q young k => Sys2Proof.Machine.execInstructionWatchdog q young k s
  | .epochRaise who q => Sys2Proof.Machine.execEpochRaise who q s
  | .bedRequestReturn b epoch => Sys2Proof.Machine.execBedRequestReturn b epoch s
  | .hazardWaitEnd a => Sys2Proof.Machine.execHazardWaitEnd a s
  | .specBufferFree b => Sys2Proof.Machine.execSpecBufferFree b s
  | .migrationGo who q lpos nb => Sys2Proof.Machine.execMigrationGo who q lpos nb s
  | .migrationDrainEnd n => Sys2Proof.Machine.execMigrationDrainEnd n s
  | .migrationDrainTimeout n => Sys2Proof.Machine.execMigrationDrainTimeout n s
  | .gaugeSwap n lpos => Sys2Proof.Machine.execGaugeSwap n lpos s
  | .queueBindoff who q => Sys2Proof.Machine.execQueueBindoff who q s
  | .queueBindoffEnd q => Sys2Proof.Machine.execQueueBindoffEnd q s
  | .bindoffCut q => Sys2Proof.Machine.execBindoffCut q s
  | .channelBindoff n => Sys2Proof.Machine.execChannelBindoff n s
  | .streamMov a => Sys2Proof.Machine.execStreamMov a s
  | .cvt a => Sys2Proof.Machine.execCvt a s
  | .gath a => Sys2Proof.Machine.execGath a s
  | .scat a => Sys2Proof.Machine.execScat a s
  | .lut a => Sys2Proof.Machine.execLut a s
  | .streamAdd a => Sys2Proof.Machine.execStreamAdd a s
  | .streamSub a => Sys2Proof.Machine.execStreamSub a s
  | .streamMul a => Sys2Proof.Machine.execStreamMul a s
  | .streamMulh a => Sys2Proof.Machine.execStreamMulh a s
  | .streamFma a => Sys2Proof.Machine.execStreamFma a s
  | .streamFms a => Sys2Proof.Machine.execStreamFms a s
  | .streamFnma a => Sys2Proof.Machine.execStreamFnma a s
  | .streamMin a => Sys2Proof.Machine.execStreamMin a s
  | .streamMax a => Sys2Proof.Machine.execStreamMax a s
  | .streamAbs a => Sys2Proof.Machine.execStreamAbs a s
  | .streamNeg a => Sys2Proof.Machine.execStreamNeg a s
  | .absd a => Sys2Proof.Machine.execAbsd a s
  | .dot4 a => Sys2Proof.Machine.execDot4 a s
  | .clamp a => Sys2Proof.Machine.execClamp a s
  | .streamDiv a => Sys2Proof.Machine.execStreamDiv a s
  | .streamRem a => Sys2Proof.Machine.execStreamRem a s
  | .sqrt a => Sys2Proof.Machine.execSqrt a s
  | .streamAnd a => Sys2Proof.Machine.execStreamAnd a s
  | .streamOr a => Sys2Proof.Machine.execStreamOr a s
  | .streamXor a => Sys2Proof.Machine.execStreamXor a s
  | .streamAndn a => Sys2Proof.Machine.execStreamAndn a s
  | .streamNot a => Sys2Proof.Machine.execStreamNot a s
  | .streamShl a => Sys2Proof.Machine.execStreamShl a s
  | .streamShr a => Sys2Proof.Machine.execStreamShr a s
  | .streamSar a => Sys2Proof.Machine.execStreamSar a s
  | .streamRol a => Sys2Proof.Machine.execStreamRol a s
  | .streamRor a => Sys2Proof.Machine.execStreamRor a s
  | .streamPopc a => Sys2Proof.Machine.execStreamPopc a s
  | .streamClz a => Sys2Proof.Machine.execStreamClz a s
  | .streamCmp a => Sys2Proof.Machine.execStreamCmp a s
  | .cmpr a => Sys2Proof.Machine.execCmpr a s
  | .sel a => Sys2Proof.Machine.execSel a s
  | .rsum a => Sys2Proof.Machine.execRsum a s
  | .rmin a => Sys2Proof.Machine.execRmin a s
  | .rmax a => Sys2Proof.Machine.execRmax a s
  | .rminx a => Sys2Proof.Machine.execRminx a s
  | .rmaxx a => Sys2Proof.Machine.execRmaxx a s
  | .rany a => Sys2Proof.Machine.execRany a s
  | .rall a => Sys2Proof.Machine.execRall a s
  | .rcnt a => Sys2Proof.Machine.execRcnt a s
  | .scan a => Sys2Proof.Machine.execScan a s
  | .cmps a => Sys2Proof.Machine.execCmps a s
  | .expd a => Sys2Proof.Machine.execExpd a s
  | .hist a => Sys2Proof.Machine.execHist a s
  | .rle a => Sys2Proof.Machine.execRle a s
  | .convw a => Sys2Proof.Machine.execConvw a s
  | .convc a => Sys2Proof.Machine.execConvc a s
  | .mark a => Sys2Proof.Machine.execMark a s
  | .life a => Sys2Proof.Machine.execLife a s
  | .commit a => Sys2Proof.Machine.execCommit a s
  | .frog a => Sys2Proof.Machine.execFrog a s
  | .resolv a => Sys2Proof.Machine.execResolv a s
  | .brc a => Sys2Proof.Machine.execBrc a s
  | .branchLifelineResolve q young => Sys2Proof.Machine.execBranchLifelineResolve q young s
  | .sync a => Sys2Proof.Machine.execSync a s
  | .syncAcquireMet a => Sys2Proof.Machine.execSyncAcquireMet a s
  | .wrow a => Sys2Proof.Machine.execWrow a s
  | .wrowRowReady a => Sys2Proof.Machine.execWrowRowReady a s
  | .loadDataArrival core thr k => Sys2Proof.Machine.execLoadDataArrival core thr k s
  | .storeBufferDrain core thr => Sys2Proof.Machine.execStoreBufferDrain core thr s
  | .swiWrite who c v => Sys2Proof.Machine.execSwiWrite who c v s
  | .interruptEntry core thr abandoned => Sys2Proof.Machine.execInterruptEntry core thr abandoned s
  | .faultEntry core thr => Sys2Proof.Machine.execFaultEntry core thr s
  | .lifelineEntry core thr => Sys2Proof.Machine.execLifelineEntry core thr s
  | .threadRun who c t => Sys2Proof.Machine.execThreadRun who c t s
  | .undefinedInstruction a => Sys2Proof.Machine.execUndefinedInstruction a s
  | .hNop a => Sys2Proof.Machine.execHNop a s
  | .hAdd a z rd ra rb => Sys2Proof.Machine.execHAdd a z rd ra rb s
  | .hSub a z rd ra rb => Sys2Proof.Machine.execHSub a z rd ra rb s
  | .hCmp a z ra rb => Sys2Proof.Machine.execHCmp a z ra rb s
  | .hNeg a z rd ra => Sys2Proof.Machine.execHNeg a z rd ra s
  | .hAbs a z rd ra => Sys2Proof.Machine.execHAbs a z rd ra s
  | .hMul a z rd ra rb => Sys2Proof.Machine.execHMul a z rd ra rb s
  | .hMulh a z rd ra rb => Sys2Proof.Machine.execHMulh a z rd ra rb s
  | .hMulhu a z rd ra rb => Sys2Proof.Machine.execHMulhu a z rd ra rb s
  | .hDiv a z rd ra rb => Sys2Proof.Machine.execHDiv a z rd ra rb s
  | .hDivu a z rd ra rb => Sys2Proof.Machine.execHDivu a z rd ra rb s
  | .hRem a z rd ra rb => Sys2Proof.Machine.execHRem a z rd ra rb s
  | .hRemu a z rd ra rb => Sys2Proof.Machine.execHRemu a z rd ra rb s
  | .hMin a z rd ra rb => Sys2Proof.Machine.execHMin a z rd ra rb s
  | .hMax a z rd ra rb => Sys2Proof.Machine.execHMax a z rd ra rb s
  | .hMinu a z rd ra rb => Sys2Proof.Machine.execHMinu a z rd ra rb s
  | .hMaxu a z rd ra rb => Sys2Proof.Machine.execHMaxu a z rd ra rb s
  | .hAnd a z rd ra rb => Sys2Proof.Machine.execHAnd a z rd ra rb s
  | .hOr a z rd ra rb => Sys2Proof.Machine.execHOr a z rd ra rb s
  | .hXor a z rd ra rb => Sys2Proof.Machine.execHXor a z rd ra rb s
  | .hAndn a z rd ra rb => Sys2Proof.Machine.execHAndn a z rd ra rb s
  | .hNot a z rd ra => Sys2Proof.Machine.execHNot a z rd ra s
  | .hShl a z rd ra rb => Sys2Proof.Machine.execHShl a z rd ra rb s
  | .hShr a z rd ra rb => Sys2Proof.Machine.execHShr a z rd ra rb s
  | .hSar a z rd ra rb => Sys2Proof.Machine.execHSar a z rd ra rb s
  | .hRol a z rd ra rb => Sys2Proof.Machine.execHRol a z rd ra rb s
  | .hRor a z rd ra rb => Sys2Proof.Machine.execHRor a z rd ra rb s
  | .hPopc a z rd ra => Sys2Proof.Machine.execHPopc a z rd ra s
  | .hClz a z rd ra => Sys2Proof.Machine.execHClz a z rd ra s
  | .hQadd a z rd ra rb => Sys2Proof.Machine.execHQadd a z rd ra rb s
  | .hQaddu a z rd ra rb => Sys2Proof.Machine.execHQaddu a z rd ra rb s
  | .hQsub a z rd ra rb => Sys2Proof.Machine.execHQsub a z rd ra rb s
  | .hQsubu a z rd ra rb => Sys2Proof.Machine.execHQsubu a z rd ra rb s
  | .hAddi a z rd ra imm => Sys2Proof.Machine.execHAddi a z rd ra imm s
  | .hCmpi a z ra imm => Sys2Proof.Machine.execHCmpi a z ra imm s
  | .hAndi a z rd ra imm => Sys2Proof.Machine.execHAndi a z rd ra imm s
  | .hOri a z rd ra imm => Sys2Proof.Machine.execHOri a z rd ra imm s
  | .hXori a z rd ra imm => Sys2Proof.Machine.execHXori a z rd ra imm s
  | .hShli a z rd ra n => Sys2Proof.Machine.execHShli a z rd ra n s
  | .hShri a z rd ra n => Sys2Proof.Machine.execHShri a z rd ra n s
  | .hSari a z rd ra n => Sys2Proof.Machine.execHSari a z rd ra n s
  | .hRoli a z rd ra n => Sys2Proof.Machine.execHRoli a z rd ra n s
  | .hRori a z rd ra n => Sys2Proof.Machine.execHRori a z rd ra n s
  | .hMuli a z rd ra imm => Sys2Proof.Machine.execHMuli a z rd ra imm s
  | .hMovi a z rd imm => Sys2Proof.Machine.execHMovi a z rd imm s
  | .hMov a k d n => Sys2Proof.Machine.execHMov a k d n s
  | .hCsel a z rd ra rb cc => Sys2Proof.Machine.execHCsel a z rd ra rb cc s
  | .hSext a z rd ra => Sys2Proof.Machine.execHSext a z rd ra s
  | .hZext a z rd ra => Sys2Proof.Machine.execHZext a z rd ra s
  | .hLd a z rd m => Sys2Proof.Machine.execHLd a z rd m s
  | .hLds a z rd m => Sys2Proof.Machine.execHLds a z rd m s
  | .hSt a z rs m => Sys2Proof.Machine.execHSt a z rs m s
  | .hSti a z m imm => Sys2Proof.Machine.execHSti a z m imm s
  | .hLdf a z fd m => Sys2Proof.Machine.execHLdf a z fd m s
  | .hStf a z fs m => Sys2Proof.Machine.execHStf a z fs m s
  | .hLdc a cd m => Sys2Proof.Machine.execHLdc a cd m s
  | .hStc a cs m => Sys2Proof.Machine.execHStc a cs m s
  | .hLea a cd m => Sys2Proof.Machine.execHLea a cd m s
  | .hLdv a vl vd m => Sys2Proof.Machine.execHLdv a vl vd m s
  | .hStv a vl vs m => Sys2Proof.Machine.execHStv a vl vs m s
  | .hGathv a z vl vd m vx => Sys2Proof.Machine.execHGathv a z vl vd m vx s
  | .hCas a z rd rs m => Sys2Proof.Machine.execHCas a z rd rs m s
  | .hBr a rel => Sys2Proof.Machine.execHBr a rel s
  | .hBcc a cc rel => Sys2Proof.Machine.execHBcc a cc rel s
  | .hCall a rel => Sys2Proof.Machine.execHCall a rel s
  | .hCallr a cn => Sys2Proof.Machine.execHCallr a cn s
  | .hJr a cn => Sys2Proof.Machine.execHJr a cn s
  | .hRet a => Sys2Proof.Machine.execHRet a s
  | .hCbz a rn rel => Sys2Proof.Machine.execHCbz a rn rel s
  | .hCbnz a rn rel => Sys2Proof.Machine.execHCbnz a rn rel s
  | .hCgeta a rd cs => Sys2Proof.Machine.execHCgeta a rd cs s
  | .hCgetb a rd cs => Sys2Proof.Machine.execHCgetb a rd cs s
  | .hCgetl a rd cs => Sys2Proof.Machine.execHCgetl a rd cs s
  | .hCgetp a rd cs => Sys2Proof.Machine.execHCgetp a rd cs s
  | .hCgett a rd cs => Sys2Proof.Machine.execHCgett a rd cs s
  | .hCseta a cd cs rg => Sys2Proof.Machine.execHCseta a cd cs rg s
  | .hCinc a cd cs rg => Sys2Proof.Machine.execHCinc a cd cs rg s
  | .hCsetb a cd cs rg => Sys2Proof.Machine.execHCsetb a cd cs rg s
  | .hCandp a cd cs rg => Sys2Proof.Machine.execHCandp a cd cs rg s
  | .hCseal a cd cs ct => Sys2Proof.Machine.execHCseal a cd cs ct s
  | .hCunseal a cd cs ct => Sys2Proof.Machine.execHCunseal a cd cs ct s
  | .hCclrt a cd cs => Sys2Proof.Machine.execHCclrt a cd cs s
  | .hCtest a rd ca cb => Sys2Proof.Machine.execHCtest a rd ca cb s
  | .hFadd a m fd fa fb => Sys2Proof.Machine.execHFadd a m fd fa fb s
  | .hFsub a m fd fa fb => Sys2Proof.Machine.execHFsub a m fd fa fb s
  | .hFmul a m fd fa fb => Sys2Proof.Machine.execHFmul a m fd fa fb s
  | .hFdiv a m fd fa fb => Sys2Proof.Machine.execHFdiv a m fd fa fb s
  | .hFsqrt a m fd fa => Sys2Proof.Machine.execHFsqrt a m fd fa s
  | .hFma a m fd fa fb fc => Sys2Proof.Machine.execHFma a m fd fa fb fc s
  | .hFms a m fd fa fb fc => Sys2Proof.Machine.execHFms a m fd fa fb fc s
  | .hFnma a m fd fa fb fc => Sys2Proof.Machine.execHFnma a m fd fa fb fc s
  | .hFmin a m fd fa fb => Sys2Proof.Machine.execHFmin a m fd fa fb s
  | .hFmax a m fd fa fb => Sys2Proof.Machine.execHFmax a m fd fa fb s
  | .hFcmp a m fa fb => Sys2Proof.Machine.execHFcmp a m fa fb s
  | .hFcmps a m fa fb => Sys2Proof.Machine.execHFcmps a m fa fb s
  | .hFcvt a m fd fa g => Sys2Proof.Machine.execHFcvt a m fd fa g s
  | .hFcvti a rd fa g z sg sat => Sys2Proof.Machine.execHFcvti a rd fa g z sg sat s
  | .hIcvtf a m fd ra z sg => Sys2Proof.Machine.execHIcvtf a m fd ra z sg s
  | .hFsgn a m fd fa mode => Sys2Proof.Machine.execHFsgn a m fd fa mode s
  | .hBmov a z rep cap steps => Sys2Proof.Machine.execHBmov a z rep cap steps s
  | .hBfill a z rep cap steps => Sys2Proof.Machine.execHBfill a z rep cap steps s
  | .hBcmp a z rep cap steps => Sys2Proof.Machine.execHBcmp a z rep cap steps s
  | .hBscan a z rep cap steps => Sys2Proof.Machine.execHBscan a z rep cap steps s
  | .hBmovd a z rep cap steps => Sys2Proof.Machine.execHBmovd a z rep cap steps s
  | .hQmul a z rd ra rb => Sys2Proof.Machine.execHQmul a z rd ra rb s
  | .hQmulu a z rd ra rb => Sys2Proof.Machine.execHQmulu a z rd ra rb s
  | .hQneg a z rd ra => Sys2Proof.Machine.execHQneg a z rd ra s
  | .hQnegu a z rd ra => Sys2Proof.Machine.execHQnegu a z rd ra s
  | .hQabs a z rd ra => Sys2Proof.Machine.execHQabs a z rd ra s
  | .hQdiv a z rd ra rb => Sys2Proof.Machine.execHQdiv a z rd ra rb s
  | .hPdadd a rd ra rb => Sys2Proof.Machine.execHPdadd a rd ra rb s
  | .hPdsub a rd ra rb => Sys2Proof.Machine.execHPdsub a rd ra rb s
  | .registerVectorInstruction a op z vl vd va vb vc => Sys2Proof.Machine.execRegisterVectorInstruction a op z vl vd va vb vc s
  | .hIfence a => Sys2Proof.Machine.execHIfence a s
  | .hFence a => Sys2Proof.Machine.execHFence a s
  | .hWopen a => Sys2Proof.Machine.execHWopen a s
  | .hWclose a => Sys2Proof.Machine.execHWclose a s
  | .hMfs a d r => Sys2Proof.Machine.execHMfs a d r s
  | .hMts a r n => Sys2Proof.Machine.execHMts a r n s
  | .hRetx a => Sys2Proof.Machine.execHRetx a s
  | .hScall a n => Sys2Proof.Machine.execHScall a n s
  | .hSret a => Sys2Proof.Machine.execHSret a s
  | .hWait a => Sys2Proof.Machine.execHWait a s
  | .hSplit a => Sys2Proof.Machine.execHSplit a s
  | .splitComplete => Sys2Proof.Machine.execSplitComplete s
  | .hMerge a => Sys2Proof.Machine.execHMerge a s
  | .mergeComplete => Sys2Proof.Machine.execMergeComplete s
  | .hBrk a imm => Sys2Proof.Machine.execHBrk a imm s
  | .fpstRead a rd m => Sys2Proof.Machine.execFpstRead a rd m s
  | .dirtyClear who c t v => Sys2Proof.Machine.execDirtyClear who c t v s
  | .droppedStitch core point thr addr => Sys2Proof.Machine.execDroppedStitch core point thr addr s
  | .resyncSweepEnd => Sys2Proof.Machine.execResyncSweepEnd s
  | .resyncJoin => Sys2Proof.Machine.execResyncJoin s
  | .resyncTimeout => Sys2Proof.Machine.execResyncTimeout s
  | .noMajority point thr addr => Sys2Proof.Machine.execNoMajority point thr addr s
  | .voterSelfTest who => Sys2Proof.Machine.execVoterSelfTest who s
  | .resyncCommand who => Sys2Proof.Machine.execResyncCommand who s
  | .checkedMismatch q young k pos elem => Sys2Proof.Machine.execCheckedMismatch q young k pos elem s
  | .checkMarkExpiry b => Sys2Proof.Machine.execCheckMarkExpiry b s
  | .droppedStitchPop who => Sys2Proof.Machine.execDroppedStitchPop who s
  | .castOnStage0 ok => Sys2Proof.Machine.execCastOnStage0 ok s
  | .castOnStage1 sramOk fail => Sys2Proof.Machine.execCastOnStage1 sramOk fail s
  | .castOnStage2 mode size erase image => Sys2Proof.Machine.execCastOnStage2 mode size erase image s
  | .castOnStage3 => Sys2Proof.Machine.execCastOnStage3 s
  | .castOnStage4 fails => Sys2Proof.Machine.execCastOnStage4 fails s
  | .castOnStage5 => Sys2Proof.Machine.execCastOnStage5 s
  | .castOnStage6 refused mask untrained dpc speed x4 capacity => Sys2Proof.Machine.execCastOnStage6 refused mask untrained dpc speed x4 capacity s
  | .castOnStage7 ms stash extra slack => Sys2Proof.Machine.execCastOnStage7 ms stash extra slack s
  | .castOnStage8 => Sys2Proof.Machine.execCastOnStage8 s
  | .stageWatchdog => Sys2Proof.Machine.execStageWatchdog s
  | .castonDone who => Sys2Proof.Machine.execCastonDone who s
  | .microcodeFault b uaddr => Sys2Proof.Machine.execMicrocodeFault b uaddr s
  | .bedWake b => Sys2Proof.Machine.execBedWake b s
  | .clockGate n => Sys2Proof.Machine.execClockGate n s
  | .ucLock who => Sys2Proof.Machine.execUcLock who s
  | .remapSet who => Sys2Proof.Machine.execRemapSet who s
  | .foeWrite file data => Sys2Proof.Machine.execFoeWrite file data s
  | .foeRead file => Sys2Proof.Machine.execFoeRead file s
  | .verifyPly who => Sys2Proof.Machine.execVerifyPly who s
  | .verifyDomain who => Sys2Proof.Machine.execVerifyDomain who s
  | .attest who => Sys2Proof.Machine.execAttest who s
  | .sign who => Sys2Proof.Machine.execSign who s
  | .signRepair who => Sys2Proof.Machine.execSignRepair who s
  | .kthOpen who => Sys2Proof.Machine.execKthOpen who s
  | .rekey who => Sys2Proof.Machine.execRekey who s
  | .treeGenerationEnd => Sys2Proof.Machine.execTreeGenerationEnd s
  | .challenge who => Sys2Proof.Machine.execChallenge who s
  | .unlock who => Sys2Proof.Machine.execUnlock who s
  | .keyop who => Sys2Proof.Machine.execKeyop who s
  | .pathDone who => Sys2Proof.Machine.execPathDone who s
  | .ketharTimeout => Sys2Proof.Machine.execKetharTimeout s
  | .jtagKunlock bs => Sys2Proof.Machine.execJtagKunlock bs s
  | .attestationCommand path => Sys2Proof.Machine.execAttestationCommand path s
  | .rekeyCommand path => Sys2Proof.Machine.execRekeyCommand path s
  | .challengeCommand path => Sys2Proof.Machine.execChallengeCommand path s
  | .unlockResponse path data => Sys2Proof.Machine.execUnlockResponse path data s
  | .sdoDownload path idx sub ca data => Sys2Proof.Machine.execSdoDownload path idx sub ca data s
  | .sdoUpload path idx sub ca => Sys2Proof.Machine.execSdoUpload path idx sub ca s
  | .hostMailboxGo who v => Sys2Proof.Machine.execHostMailboxGo who v s
  | .pdoMapWrite path idx sub ca data => Sys2Proof.Machine.execPdoMapWrite path idx sub ca data s
  | .initToPreop smOk => Sys2Proof.Machine.execInitToPreop smOk s
  | .preopToSafeop dcOk => Sys2Proof.Machine.execPreopToSafeop dcOk s
  | .safeopToOp => Sys2Proof.Machine.execSafeopToOp s
  | .opToSafeop => Sys2Proof.Machine.execOpToSafeop s
  | .sm2Watchdog => Sys2Proof.Machine.execSm2Watchdog s
  | .deviceBindoff t => Sys2Proof.Machine.execDeviceBindoff t s
  | .deviceBindoffEnd => Sys2Proof.Machine.execDeviceBindoffEnd s
  | .initToBoot => Sys2Proof.Machine.execInitToBoot s
  | .inputLatch => Sys2Proof.Machine.execInputLatch s
  | .sm2Event data => Sys2Proof.Machine.execSm2Event data s
  | .deviceBindoffCommand path => Sys2Proof.Machine.execDeviceBindoffCommand path s
  | .coldResetCommand path => Sys2Proof.Machine.execColdResetCommand path s
  | .warmResetCommand path => Sys2Proof.Machine.execWarmResetCommand path s
  | .armCommand path => Sys2Proof.Machine.execArmCommand path s
  | .disarmCommand path => Sys2Proof.Machine.execDisarmCommand path s
  | .channelEnable path n v => Sys2Proof.Machine.execChannelEnable path n v s
  | .cameraMapWrite path n data => Sys2Proof.Machine.execCameraMapWrite path n data s
  | .bedMapWrite path b v => Sys2Proof.Machine.execBedMapWrite path b v s
  | .queueEntryWrite path q v => Sys2Proof.Machine.execQueueEntryWrite path q v s
  | .gaugeBedCommand path => Sys2Proof.Machine.execGaugeBedCommand path s
  | .replanBed path => Sys2Proof.Machine.execReplanBed path s
  | .replanAll path => Sys2Proof.Machine.execReplanAll path s
  | .recordFieldRepairs path => Sys2Proof.Machine.execRecordFieldRepairs path s
  | .discardFieldRecords path => Sys2Proof.Machine.execDiscardFieldRecords path s
  | .enterStandby path => Sys2Proof.Machine.execEnterStandby path s
  | .returnToService path => Sys2Proof.Machine.execReturnToService path s
  | .clearCounters path => Sys2Proof.Machine.execClearCounters path s
  | .counterPoll => Sys2Proof.Machine.execCounterPoll s
  | .slotImageWrite path k data => Sys2Proof.Machine.execSlotImageWrite path k data s
  | .verifyAgain path k => Sys2Proof.Machine.execVerifyAgain path k s
  | .storeToFlash path k => Sys2Proof.Machine.execStoreToFlash path k s
  | .clearSlot path k => Sys2Proof.Machine.execClearSlot path k s
  | .hostBar0Write fn off v full => Sys2Proof.Machine.execHostBar0Write fn off v full s
  | .hostBar0Read fn off full => Sys2Proof.Machine.execHostBar0Read fn off full s
  | .hostBar2Access off n wr data => Sys2Proof.Machine.execHostBar2Access off n wr data s
  | .hostBar4Access fn off n wr data => Sys2Proof.Machine.execHostBar4Access fn off n wr data s
  | .dmaTailWrite who c v => Sys2Proof.Machine.execDmaTailWrite who c v s
  | .dmaDescriptorDone c d data ok => Sys2Proof.Machine.execDmaDescriptorDone c d data ok s
  | .dmaHaltClear who c => Sys2Proof.Machine.execDmaHaltClear who c s
  | .handleFence who => Sys2Proof.Machine.execHandleFence who s
  | .handleFenceDone => Sys2Proof.Machine.execHandleFenceDone s
  | .resultRecordCopy r => Sys2Proof.Machine.execResultRecordCopy r s
  | .resultRingConsWrite who r v => Sys2Proof.Machine.execResultRingConsWrite who r v s
  | .msixUnmask who k => Sys2Proof.Machine.execMsixUnmask who k s
  | .functionLevelReset fn => Sys2Proof.Machine.execFunctionLevelReset fn s
  | .pciePerst => Sys2Proof.Machine.execPciePerst s
  | .controlBusTimeout who a wr => Sys2Proof.Machine.execControlBusTimeout who a wr s
  | .pcieCompletionTimeout c d data => Sys2Proof.Machine.execPcieCompletionTimeout c d data s
  | .junctionRead ts => Sys2Proof.Machine.execJunctionRead ts s
  | .thermalRestart => Sys2Proof.Machine.execThermalRestart s
  | .powerCapStep p => Sys2Proof.Machine.execPowerCapStep p s
  | .gaugeMeasurement rings => Sys2Proof.Machine.execGaugeMeasurement rings s
  | .gaugeMeasurementEnd lows tm needles ring => Sys2Proof.Machine.execGaugeMeasurementEnd lows tm needles ring s
  | .gaugeGo who b => Sys2Proof.Machine.execGaugeGo who b s
  | .webStoppedEntry => Sys2Proof.Machine.execWebStoppedEntry s
  | .webStoppedExit => Sys2Proof.Machine.execWebStoppedExit s
  | .wakeComplete => Sys2Proof.Machine.execWakeComplete s
  | .stby who => Sys2Proof.Machine.execStby who s
  | .wake who => Sys2Proof.Machine.execWake who s
  | .standbyExitDone ms stash extra slack => Sys2Proof.Machine.execStandbyExitDone ms stash extra slack s
  | .avsTransactionFail => Sys2Proof.Machine.execAvsTransactionFail s
  | .avsRetry ok => Sys2Proof.Machine.execAvsRetry ok s
  | .bedRequestTimeout b => Sys2Proof.Machine.execBedRequestTimeout b s
  | .threadWatchdog core thr => Sys2Proof.Machine.execThreadWatchdog core thr s
  | .watchdogKick who v => Sys2Proof.Machine.execWatchdogKick who v s
  | .cold who => Sys2Proof.Machine.execCold who s
  | .warm who => Sys2Proof.Machine.execWarm who s
  | .hook who => Sys2Proof.Machine.execHook who s
  | .chgo who n => Sys2Proof.Machine.execChgo who n s
  | .powerOnReset => Sys2Proof.Machine.execPowerOnReset s
  | .coldReset t => Sys2Proof.Machine.execColdReset t s
  | .warmReset t => Sys2Proof.Machine.execWarmReset t s
  | .hookComplexReset t => Sys2Proof.Machine.execHookComplexReset t s
  | .channelReset n => Sys2Proof.Machine.execChannelReset n s
  | .bedReset who b => Sys2Proof.Machine.execBedReset who b s
  | .threadReset core thr => Sys2Proof.Machine.execThreadReset core thr s
  | .porstL => Sys2Proof.Machine.execPorstL s
  | .sysrstL => Sys2Proof.Machine.execSysrstL s
  | .supplyBelowThreshold x => Sys2Proof.Machine.execSupplyBelowThreshold x s
  | .refckLoss => Sys2Proof.Machine.execRefckLoss s
  | .refckReturn => Sys2Proof.Machine.execRefckReturn s
  | .coreEnRise => Sys2Proof.Machine.execCoreEnRise s
  | .supplyTimeout missing => Sys2Proof.Machine.execSupplyTimeout missing s
  | .coreEnRetry => Sys2Proof.Machine.execCoreEnRetry s
  | .receiverLocksAgain l => Sys2Proof.Machine.execReceiverLocksAgain l s
  | .ketharOperationEnd rs ok => Sys2Proof.Machine.execKetharOperationEnd rs ok s
  | .coreOvervoltage => Sys2Proof.Machine.execCoreOvervoltage s
  | .pcieLinkDown => Sys2Proof.Machine.execPcieLinkDown s
  | .pcieLinkUp rate width => Sys2Proof.Machine.execPcieLinkUp rate width s
  | .pciePerstRelease => Sys2Proof.Machine.execPciePerstRelease s
  | .configurationRequest fn w wr v => Sys2Proof.Machine.execConfigurationRequest fn w wr v s
  | .jtagDebugAccess a n wr data => Sys2Proof.Machine.execJtagDebugAccess a n wr data s
  | .dcSyncEvent k missed => Sys2Proof.Machine.execDcSyncEvent k missed s
  | .mailboxProtocolUnsupported typ => Sys2Proof.Machine.execMailboxProtocolUnsupported typ s
  | .ectPortLinkChange port up => Sys2Proof.Machine.execEctPortLinkChange port up s
  | .ingestBindoffTimeout n => Sys2Proof.Machine.execIngestBindoffTimeout n s
  | .resetInputRelease por straps => Sys2Proof.Machine.execResetInputRelease por straps s

end Sys2Proof.Machine
end

