-- ==== Sys2Proof/Safety.lean ====
section
/-!
DEFINITION. Sys2Proof/Safety.lean: the terms in which claims about safe runs are stated: the invariant of the machine, when a party's
register write takes effect, when a hook instruction can issue at once, and the frames of families of commands.
-/
namespace Sys2Proof

/-- A register that its table has. -/
def Reg.ok (r : Reg) : Bool :=
  let n := r.kind.info
  decide (r.i < n.count) && decide (r.j < n.count2) && decide (n.first ≤ if n.count2 = 1 then r.i else r.j)

/-- The thread once an instruction has issued: its wait states counted, PCAP past the instruction. -/
def Thread.issued (x : Thread) (a : HI) : Thread :=
  { x with waits := x.waits + a.waits, pcap := Machine.capSetAddr x.pcap (Machine.capAddr x.pcap + a.len) }

namespace Machine

/-- The AL state is one of those of R446, and a device bind-off under way ends in PREOP, in INIT or in the state it began in. -/
def alLegal (s : State) : Bool :=
  [1, 2, 3, 4, 8].contains s.ect.al && (match s.ect.bindoff with | none => true | some t => decide (t = 0 ∨ t = 1 ∨ t = 2))

/-- What every reachable state keeps: the canonical form of memory and a legal AL state. -/
structure State.Inv (s : State) : Prop where
  mem : memWf s.mem = true
  al : alLegal s = true

/-- A register write by this party takes effect: the register exists, its block is not held in reset and is not a shadow copy of a voted
core, and the party may write it (R335, R339, R442, R471). -/
def State.reaches (s : State) (who : Who) (r : Reg) (v : Word) : Bool :=
  r.ok && !s.heldInReset r.kind.info.block && !(decide (r.kind.info.block = .HKC) && s.voted && decide (0 < r.i)) &&
    (match who with
    | .hook c t p => s.hookLive c t && (s.regDenied p r.addr v).isNone
    | .host fn => s.hostSet fn r && decide (r.kind ≠ .PCI_MSIX_TABLE)
    | .jtag => s.jtagOpen 0
    | _ => true)

/-- A write by this party of a register with its stored fields as they are and one field set takes effect. -/
def State.mayPut (s : State) (who : Who) (f : Fld) (v i j : Nat) : Bool :=
  s.reaches who ⟨f.k, i, j⟩ (BitVec.ofNat 32 (putBits (s.restWord ⟨f.k, i, j⟩) f.hi f.lo v))

/-- The same for a read whose reading acts (R335, R471). -/
def State.readsOut (s : State) (who : Who) (r : Reg) : Bool :=
  r.ok &&
    (match who with
    | .hook c t p => s.hookLive c t && p.toNat.testBit pLoad
    | .host fn => s.hostSet fn r && decide (r.kind ≠ .PCI_MSIX_TABLE) && decide (r.kind ≠ .PCI_MSIX_PBA)
    | .jtag => s.jtagOpen 0
    | _ => true)

/-- A hook instruction can issue at once: its core and thread live and run, no exception waits, no load is outstanding, and PCAP lets
it be fetched (R282 to R284, R301, R344). -/
structure HookReady (s : State) (a : HI) : Prop where
  live : s.coreLive a.core = true
  thr : a.thr < 4
  len : 1 ≤ a.len ∧ a.len ≤ 15
  run : (s.th a.core a.thr).st = .running
  fault : (s.th a.core a.thr).fault = none
  esc : (s.th a.core a.thr).esc = none
  lf : (s.th a.core a.thr).bank.lf = none
  loads : (s.th a.core a.thr).loads = []
  fetch : fetchFault (s.th a.core a.thr).pcap a.len = none

/-- The state after an instruction that changes its own thread alone. -/
def State.issue (s : State) (a : HI) (f : Thread → Thread) : State :=
  s.setTh a.core a.thr (f ((s.th a.core a.thr).issued a))

/-- A synchronous fault of an instruction: PCAP stays at it, its wait states count, and the fault waits for its entry (R344). -/
def State.issueFaults (s : State) (a : HI) (e : Exc) : State :=
  (s.setTh a.core a.thr { s.th a.core a.thr with waits := (s.th a.core a.thr).waits + a.waits }).setFault a.core a.thr
    { e with slotB := a.slotB }

end Machine
end Sys2Proof
end

