-- ==== Sys2Proof/Certificates/Slice0/Obligations.lean ====
section
/-!
DEFINITION. Sys2Proof/Certificates/Slice0/Obligations.lean: the statements about the machine that the provers are asked for.
-/
section
open Sys2Proof Sys2Proof.Machine

/-! ### The block and its queue -/

/-- A step with commands waiting takes the front one and runs it on the state with the queue's rest. -/
def Obligations.StepTakesTheFrontCommand : Prop :=
  ∀ (s : State) (c : Instr) (rest : List Instr), s.pending = c :: rest → step s = exec c { s with pending := rest }

/-- The model's choice (DESIGN CHOICE, notes/assumptions/8.md): a step on an empty queue is one tick. With REFCK present and no discipline the time
base gains 1 (R31), with REFCK lost one period of the 32.768 kHz clock (R527), and nothing else changes. -/
def Obligations.EmptyQueueIsOneTick : Prop :=
  ∀ s : State, s.pending = [] →
    (s.tb.refLost = false → (s.fld F.TBS_CTRL_DISCEN = 0 ∨ s.fld F.TBS_CTRL_SRC = 0) →
      step s = .next { s with uptime := s.uptime + 1, tb := { s.tb with time := s.tb.time + 1 } }) ∧
    (s.tb.refLost = true →
      step s = .next { s with
        uptime := s.uptime + slowTicks s.tb.phase 1
        tb := { s.tb with time := s.tb.time + BitVec.ofNat 64 (slowTicks s.tb.phase 1), phase := (s.tb.phase + 1) % 64 } })

/-- Every command completes on every state and leaves the queue of waiting commands alone: the machine never stops. -/
def Obligations.EveryCommandCompletes : Prop :=
  ∀ (c : Instr) (s : State), ∃ t, exec c s = .next t ∧ t.pending = s.pending

/-- Every step, on any state, keeps the canonical form of memory and the legality of the AL state (R446). -/
def Obligations.EveryStepKeepsInvariant : Prop :=
  ∀ s t : State, s.Inv → step s = .next t → t.Inv

/-- The state after power-on has the invariant. -/
def Sys2Proof.Claims.ResetHasInvariant : Prop := State.reset.Inv

open Sys2Proof.Claims

/-- What the spec gives for reset: every register at its table's reset value (R8), every byte of RAM 0 and unpoisoned, the AL state INIT
(R446), every channel IDLE, every output with an empty queue, disarmed and high impedance (R72), thread 0 of the hook core at the
root capability with VTAB the root (R340), and no command waiting. -/
def Sys2Proof.Claims.ResetState : Prop :=
  (∀ r : Reg, State.reset.reg r = r.kind.resetWord) ∧
  (∀ a : Nat, State.reset.regionOf a ≠ .rom → State.reset.peek a = 0 ∧ ∀ n, State.reset.poisoned a n = false) ∧
  State.reset.ect.al = 1 ∧
  (∀ n, (State.reset.chan n).st = .idle) ∧
  (∀ o, (State.reset.out o).q = [] ∧ (State.reset.out o).pin = .hiz) ∧
  State.reset.flag F.TIO_ARM_ARMED = false ∧
  (State.reset.th 0 0).pcap = capRoot ∧ (State.reset.th 0 0).vtab = capRoot ∧ (State.reset.th 0 0).lvl = 0 ∧
  State.reset.pending = []

/-! ### Memory -/

/-- Bytes stored into working SRAM, TCM, stash or DDR read back as stored, and every other byte of memory reads as before (R463, R378,
R379). An aligned capability store keeps the tag in TCM, working SRAM and DDR in service, and has none in the stash and the ROM; an
ordinary store of the same bytes clears it (R113, R131, R311). -/
def Obligations.MemoryReadsWhatWasStored : Prop :=
  (∀ (s : State) (r : Region) (a : Nat) (bs : List Byte), r ∈ [Region.sram, Region.tcm, Region.stash, Region.ddr] →
    memWf s.mem = true → (∀ k, k < bs.length → s.regionOf (a + k) = r) →
      (∀ k, k < bs.length → (s.poke a bs).peek (a + k) = bs.getD k 0) ∧
      (∀ x, (∀ k, k < bs.length → physOf (s.regionOf x) x ≠ physOf r (a + k)) → (s.poke a bs).peek x = s.peek x)) ∧
  (∀ (s : State) (a : Nat) (bits : Quad) (tag : Bool), a % 16 = 0 →
    (s.regionOf a ∈ [Region.tcm, Region.sram] → (s.storeCap a bits tag).tagAt a = tag) ∧
    (s.regionOf a = .ddr → s.ddrDown (s.ddrChan a) = false → (s.storeCap a bits tag).tagAt a = tag) ∧
    (s.regionOf a ∈ [Region.stash, Region.rom] → (s.storeCap a bits tag).tagAt a = false) ∧
    (s.regionOf a ∈ [Region.tcm, Region.sram] → (s.store a (leBytes 16 bits.toNat)).tagAt a = false))


/-! ### Registers (R8, R339, R545, R547) -/

/-- The kinds of register whose write does more than store: their commands have statements of their own. -/
def Sys2Proof.Claims.actingKinds : List RegKind :=
  [.TIO_ARM, .TIO_ENC_CTRL, .TIO_CH_CTRL, .TIO_OUT_CTRL, .TIO_OUT_EVIN, .CXP_LNK_CTRL, .CXP_CH_ICTRL, .CXP_MBX_CMD, .BED_CTRL,
   .BED_UC_CTRL, .PLQ_CTRL, .PLQ_BIND, .PLQ_CMD, .PLQ_SUB, .PLQ_PIN, .PLQ_MIG, .HKC_SWI, .HKC_T_CTRL, .HKC_T_STAT, .VOT_CMD,
   .VOT_STEST, .DDR_CH_CTRL, .TMO_CASTON, .TMO_KICK, .TMO_RESET, .KTH_CMD, .KTH_PATH, .PCI_DMB_CMD, .PCI_HFENCE, .PCI_MSIX_TABLE,
   .PWR_CTRL, .GAU_CTRL]

/-- REGISTER_WRITE of any other register that is no half of a pair: a writable field takes a value in its range while its condition
holds and keeps its old one otherwise (R545), a w1c field loses the bits written 1, read-only, read-to-clear and reserved fields keep
theirs (R8), and nothing but this register changes. -/
def Sys2Proof.Claims.RegisterWrite : Prop :=
  ∀ (s : State) (who : Who) (r : Reg) (v : Word), s.reaches who r v = true → r.kind.hiOf = none → r.kind.loOf = none →
    r.kind ∉ actingKinds →
    ∃ w : Word, exec (.registerWrite who r.addr v) s = .next (s.setReg r w) ∧
      ∀ f ∈ r.kind.info.fields,
        let x := bitsOf v.toNat f.hi f.lo
        let old := bitsOf (s.reg r).toNat f.hi f.lo
        let new := bitsOf w.toNat f.hi f.lo
        (f.acc = .rw → f.rlo ≤ x → x ≤ f.rhi → x ∉ f.bad → s.wcond who r x f.cond = true → new = x) ∧
        (f.acc = .rw → (x < f.rlo ∨ f.rhi < x ∨ x ∈ f.bad ∨ s.wcond who r x f.cond = false) → new = old) ∧
        (f.acc = .w1c → new = old - (old &&& x)) ∧
        (f.acc = .r ∨ f.acc = .rsc ∨ f.acc = .res ∨ f.acc = .w → new = old)

/-- R547: a write of LO is held and changes nothing that the device uses; the write of HI loads both halves, LO's present value where
none is held; reading LO latches HI, and the next read of HI returns what was latched. RSC_READ clears every read-to-clear field of
its register in the same access; the other fields and registers stand (R8). -/
def Sys2Proof.Claims.PairsAndClearingReads : Prop :=
  (∀ (s : State) (who : Who) (k l : RegKind) (i j : Nat) (v : Word), k.loOf = some l → l.hiOf = some k →
    (k.info.fields.any (fun f => f.acc != .r) = true → l.info.fields.any (fun f => f.acc != .r) = true →
      s.reaches who ⟨l, i, j⟩ v = true →
        exec (.registerWrite who (Reg.addr ⟨l, i, j⟩) v) s = .next { s with held := s.held.set ⟨k, i, j⟩ v }) ∧
    (k.info.fields.any (fun f => f.acc != .r) = true → k ∉ [.TBS_SET_HI, .TIO_CH_ROW_HI, .CXP_CH_REL_HI, .TIO_CH_OFFSET_HI] →
      s.reaches who ⟨k, i, j⟩ v = true →
        exec (.pairHiWrite who (Reg.addr ⟨k, i, j⟩) v) s =
          .next ((({ s with held := s.held.del ⟨k, i, j⟩ }).putReg who ⟨l, i, j⟩ (s.held.get ⟨k, i, j⟩ (s.reg ⟨l, i, j⟩))).putReg who
            ⟨k, i, j⟩ v)) ∧
    (s.readsOut who ⟨l, i, j⟩ = true → s.aliased ⟨l, i, j⟩ = ⟨l, i, j⟩ → l.info.fields.any (fun f => f.acc == .rsc) = false →
        exec (.pairLoRead who (Reg.addr ⟨l, i, j⟩)) s =
          .next { s with
            latched := s.latched.set ⟨k, i, j⟩ (s.readReg who ⟨k, i, j⟩)
            rd := leBytes 4 (match s.latched.find? fun e => decide (e.1 = ⟨l, i, j⟩) with
              | some e => e.2.toNat | none => (s.readReg who ⟨l, i, j⟩).toNat) }) ∧
    (∀ x, s.readsOut who ⟨k, i, j⟩ = true → s.aliased ⟨k, i, j⟩ = ⟨k, i, j⟩ →
      (s.latched.find? fun e => decide (e.1 = ⟨k, i, j⟩)) = some (⟨k, i, j⟩, x) →
        (s.readFrom who k i j).rd = leBytes 4 x.toNat)) ∧
  (∀ (s : State) (who : Who) (r : Reg), s.readsOut who r = true → s.aliased r = r →
    r.kind.info.fields.any (fun f => f.acc == .rsc) = true →
    ∃ t, exec (.rscRead who r.addr) s = .next t ∧
      (∀ f ∈ r.kind.info.fields, f.acc = .rsc → t.fld ⟨r.kind, f.hi, f.lo⟩ r.i r.j = 0) ∧
      (∀ f ∈ r.kind.info.fields, f.acc ≠ .rsc → t.fld ⟨r.kind, f.hi, f.lo⟩ r.i r.j = s.fld ⟨r.kind, f.hi, f.lo⟩ r.i r.j) ∧
      (∀ q, q ≠ r → t.reg q = s.reg q) ∧ t.mem = s.mem)

/-- R339: a hook thread that lacks Load on a read, Store on a write, or the permission of the block it writes (Arm for ARM_REQ, System
for the fields reserved to it), takes a capability fault at the access and nothing is written. -/
def Obligations.StoresNeedPermission : Prop :=
  ∀ (s : State) (c t : Nat) (p : BitVec 13) (r : Reg) (v : Word), s.hookLive c t = true → r.ok = true →
    let has := fun k => p.toNat.testBit k
    let arm := decide (r.kind = .TIO_ARM) && decide (bitsOf v.toNat 2 1 = 1)
    let need := match r.kind.info.block with | .PLQ => pStream | .CXP => pIngest | .KTH => pKey | _ => pSystem
    let denied := fun k => exec (.registerWrite (.hook c t p) r.addr v) s = .next (s.setFault c t (exc 4 3 r.addr k))
    (has pStore = false → denied pStore) ∧
    (has pStore = true → arm = true → has pArm = false → denied pArm) ∧
    (has pStore = true → arm = false → has need = false → denied need) ∧
    (has pStore = true → r.kind = .PLQ_CTRL → has pStream = true → has pSystem = false →
      bitsOf v.toNat 1 1 ≠ s.fld F.PLQ_CTRL_OWNER r.i → denied pSystem) ∧
    (has pStore = true → r.kind = .CXP_MBX_CMD → has pIngest = true → has pSystem = false →
      bitsOf v.toNat 0 0 ≠ s.fld F.CXP_MBX_CMD_OWNER r.i → denied pSystem) ∧
    (has pLoad = false → r.kind.hiOf.isSome = true →
      exec (.pairLoRead (.hook c t p) r.addr) s = .next (s.setFault c t (exc 4 3 r.addr pLoad)))

/-- No address of the control window names a register other than the one that lies there: the address map is one to one (R463, R465). -/
def Obligations.AddressesNameTheirRegister : Prop :=
  (∀ (a : Nat) (r : Reg), Reg.ofAddr a = some r → r.ok = true ∧ r.addr = a) ∧
  (∀ r q : Reg, r.ok = true → q.ok = true → r.addr = q.addr → r = q)


/-! ### Timed I/O (R31 to R76) -/

/-- Comparisons of the time base with its source, the loss of the source and TBS_SET (R33, R34, R36): LOCKED after 16 comparisons in
succession within ±20 ns, or 4 edges within ±50 ns; a step only while no channel is in RUN and beyond TBS_STEP_THR, otherwise the offset
is owed to slewing and the time base stands; a lost source gives HOLDOVER; a write of TBS_SET sets the time base, or while a channel
is in RUN is ignored and sets SET_REFUSED. -/
def Sys2Proof.Claims.TimeBaseSources : Prop :=
  ∀ (s : State) (dt : Nat),
    let u := s.advance dt
    let compared := fun (t : State) (off : Int) (tol need : Nat) =>
      (-(2 ^ 31 : Int) ≤ off → off < 2 ^ 31 → t.fld F.TBS_OFFSET = (BitVec.ofInt 32 off).toNat) ∧
      t.tb.good = (if off.natAbs ≤ tol then u.tb.good + 1 else 0) ∧ t.fld F.TBS_STAT_LOCKED = b2n (decide (need ≤ t.tb.good)) ∧
      (u.fld F.TBS_CTRL_DISCEN = 1 → u.anyRun = false → u.fld F.TBS_STEP_THR < off.natAbs →
        t.tb.time = u.tb.time + BitVec.ofInt 64 off ∧ t.tb.owed = 0 ∧ t.flag F.TBS_STAT_STEPPED = true) ∧
      (u.fld F.TBS_CTRL_DISCEN = 1 → (u.anyRun = true ∨ off.natAbs ≤ u.fld F.TBS_STEP_THR) → t.tb.time = u.tb.time ∧ t.tb.owed = off) ∧
      t = { u with regs := t.regs, tb := t.tb, free := t.free }
    (∀ sys : DWord, u.fld F.TBS_CTRL_SRC = 1 → ∃ t, exec (.dcComparison dt sys) s = .next t ∧
      compared t (sys.toInt - u.tb.time.toInt) 20 16) ∧
    (∀ rising : Bool, u.fld F.TBS_CTRL_SRC = 2 → u.flag F.TBS_CTRL_PPSPOL = !rising → ∃ t, exec (.ppsEdge dt rising) s = .next t ∧
      compared t (if u.now % 1000000000 < 500000000 then -((u.now % 1000000000 : Nat) : Int)
        else ((1000000000 - u.now % 1000000000 : Nat) : Int)) 50 4) ∧
    (u.fld F.TBS_CTRL_SRC = 1 ∨ u.fld F.TBS_CTRL_SRC = 2 → ∃ t, exec (.tbSourceLost dt) s = .next t ∧
      t.fld F.TBS_STAT_LOCKED = 0 ∧ t.flag F.TBS_STAT_HOLDOVER = true ∧ t.flag F.TBS_STAT_SRCLOST = true ∧ t.tb = { u.tb with good := 0 } ∧
      t = { u with regs := t.regs, tb := t.tb }) ∧
    (∀ (who : Who) (v : Word), s.reaches who ⟨.TBS_SET_HI, 0, 0⟩ v = true →
      let lo := s.held.get ⟨.TBS_SET_HI, 0, 0⟩ (s.reg ⟨.TBS_SET_LO, 0, 0⟩)
      ∃ t, exec (.tbsSetWrite who v) s = .next t ∧
        (s.anyRun = false → t.tb.time = v ++ lo ∧ t.tb.owed = 0) ∧
        (s.anyRun = true → t.tb = s.tb ∧ t.flag F.TBS_STAT_SETREFUSED = true) ∧
        t = { s with regs := t.regs, held := t.held, tb := t.tb })

/-- Encoders (R37, R38, R40): a transition of one phase counts by one in the direction of travel, both phases together are a phase error
that leaves the count, a disabled decoder only follows the levels, a stall shows as STOPPED and speed 0, and EN from 0 to 1 starts the
decoder from the present levels as after a stall. -/
def Sys2Proof.Claims.EncodersCount : Prop :=
  ∀ (s : State) (dt e : Nat) (a b : Bool), e < 8 →
    let u := s.advance dt
    let x := u.enc e
    (u.flag F.TIO_ENC_CTRL_EN e = false → exec (.encoderTransition dt e a b) s = .next (u.setEnc e { x with a := a, b := b })) ∧
    (u.flag F.TIO_ENC_CTRL_EN e = true → a ≠ x.a → b ≠ x.b → ∃ t, exec (.encoderTransition dt e a b) s = .next t ∧
      t.enc e = { x with a := a, b := b } ∧ t.flag F.TIO_ENC_STAT_PHASEERR e = true ∧
      t.fld F.TIO_ENC_STAT_PHASEERRS e = min (u.fld F.TIO_ENC_STAT_PHASEERRS e + 1) 65535 ∧
      t = { u with regs := t.regs, web := t.web }) ∧
    (u.flag F.TIO_ENC_CTRL_EN e = true → (a ≠ x.a ↔ b = x.b) →
      let aLeads := if a ≠ x.a then a != b else a == b
      let down := (aLeads == Config.aLeadsDown) != u.flag F.TIO_ENC_CTRL_DIRINV e
      ∃ t, exec (.encoderTransition dt e a b) s = .next t ∧ (t.enc e).a = a ∧ (t.enc e).b = b ∧
        (t.enc e).count = (if down then x.count + 1 else x.count - 1) ∧ t.flag F.TIO_ENC_STAT_DIR e = !down ∧
        t.flag F.TIO_ENC_STAT_STOPPED e = false ∧ (t.enc e).edges.head? = some u.now ∧
        ((∃ t1 l, x.edges = t1 :: l ∧ u.now < t1 + 20) → t.flag F.TIO_ENC_STAT_OVERSPEED e = true) ∧
        (∀ e', e' ≠ e → t.enc e' = u.enc e') ∧ t.mem = s.mem) ∧
    (u.flag F.TIO_ENC_CTRL_EN e = true → (∀ t1 l, x.edges = t1 :: l → t1 + u.fld F.TIO_ENC_CTRL_STALL e * 1000 ≤ u.now) →
      ∃ t, exec (.encoderStall dt e) s = .next t ∧ t.flag F.TIO_ENC_STAT_STOPPED e = true ∧ t.encCountsPerSec e = 0 ∧ t.enc e = x ∧
        t.mem = s.mem) ∧
    (∀ (who : Who) (v : Word), s.reaches who ⟨.TIO_ENC_CTRL, e, 0⟩ v = true → s.flag F.TIO_ENC_CTRL_EN e = false → v.toNat.testBit 0 = true →
      ∃ t, exec (.encoderEnable who e v) s = .next t ∧ t.flag F.TIO_ENC_CTRL_EN e = true ∧ t.enc e = { s.enc e with edges := [] } ∧
        t.flag F.TIO_ENC_STAT_STOPPED e = true ∧ t.mem = s.mem)


/-- COURSE_BOUNDARY (R41 to R44, R51, R52): a channel in RUN whose next encoder position is reached, or whose next period has passed,
advances its row counter by 1 and latches the stitch marker of that row, OVERSPEED set when less than 1,000 ns after the previous one;
if its ingest runs, the row is then admitted to a slot. Before that point nothing happens. -/
def Sys2Proof.Claims.CourseBoundary : Prop :=
  ∀ (s : State) (dt n : Nat), n < 16 →
    let u := s.advance dt
    let c := u.chan n
    let d := u.fld F.TIO_CH_DIV n
    let at1 := c.p0 + c.k * (d : Int) ≤ u.encPos (u.encOf n)
    let at2 := c.t0 + c.k.toNat * u.fld F.TIO_CH_PERIOD n
    c.st = .run → u.flag F.TIO_CH_CTRL_LOCKEN n = false →
    (u.bsrc n = 1 ∧ at1 ∨ u.bsrc n = 2 ∧ at2 ≤ u.now → ∃ w : State, exec (.courseBoundary dt n) s =
        .next ((if w.flag F.CXP_CH_ISTAT_RUN n then w.admitRow n else w).setK n (c.k + 1)) ∧
      (w.chan n).row = c.row + 1 ∧ (w.chan n).reversed = false ∧ (w.chan n).lastTime = some (if u.bsrc n = 1 then u.now else at2) ∧
      (∃ m : Marker, (w.chan n).marker = some m ∧ m.row = c.row + 1 ∧ m.chan = n ∧
        m.time = BitVec.ofNat 64 (if u.bsrc n = 1 then u.now else at2) ∧
        m.flags.toNat.testBit 7 = (match c.lastTime with | some t => decide ((if u.bsrc n = 1 then u.now else at2) < t + 1000) | none => false) ∧
        m.flags.toNat.testBit 4 = c.reversed) ∧
      (∀ m, m ≠ n → w.chan m = u.chan m) ∧ w.mem = u.mem ∧ w.ing = u.ing) ∧
    ((u.bsrc n = 1 ∧ ¬ at1 ∧ c.revHold = true) ∨ (u.bsrc n = 2 ∧ u.now < at2) ∨ u.bsrc n = 0 ∨ u.bsrc n = 3 →
      exec (.courseBoundary dt n) s = .next u)

/-- CHANNEL_ENTER_RUN (R42, R446, R458): a channel that is IDLE, wanted and passes its checks is in RUN, R0 is the row after its counter,
P0 and T0 the present position and time, and 0x2100 + n:02 shows success; a channel that is not IDLE, not wanted or fails its
checks stays as it is. -/
def Sys2Proof.Claims.ChannelEntersRun : Prop :=
  ∀ (s : State) (dt n : Nat), n < 16 →
    let u := s.advance dt
    let c := u.chan n
    (c.st = .idle → u.chanWanted n = true → u.runOk n = true → u.srcChan n = n → u.bsrc n = 0 ∨ u.bsrc n = 3 →
      (∀ m, m < 16 → u.locked m = false) → ∃ t, exec (.channelEnterRun dt n) s = .next t ∧
        (t.chan n).st = .run ∧ (t.chan n).row = c.row ∧ (t.chan n).r0 = c.row + 1 ∧ (t.chan n).p0 = u.encPos (u.encOf n) ∧
        (t.chan n).t0 = u.now ∧ (t.chan n).k = 1 ∧ (t.chan n).revHold = u.flag F.TIO_CH_CTRL_REVHOLD n ∧
        t.odv (0x2100 + n) 2 = 2 ∧ (∀ m, m ≠ n → t.chan m = u.chan m)) ∧
    (c.st ≠ .idle ∨ u.chanWanted n = false ∨ u.runOk n = false → exec (.channelEnterRun dt n) s = .next u)

/-- The output scheduler's times (R59, R62, R63, R65, R66): a scan loads the earliest projected edge within 64 ns and no other; an event
that falls due on an armed output leaves its queue and acts; a tentative event at its commit horizon is removed or committed by HPOL;
with the outputs unarmed nothing is performed. -/
def Sys2Proof.Claims.SchedulerPerforms : Prop :=
  ∀ (s : State) (dt o : Nat), o < 64 →
    let u := s.advance dt
    let x := u.out o
    (∃ e, exec (.schedulerScan dt o) s = .next (u.setOut o { x with edge := e }) ∧
      (∀ q t, e = some (q, t) → t ≤ u.now + 64 ∧ (∃ ev ∈ x.q, ev.seq = q ∧ u.dueTime o ev = some t) ∧
        ∀ ev ∈ x.q, ∀ t', u.dueTime o ev = some t' → t ≤ t') ∧
      (e = none → ∀ ev ∈ x.q, ∀ t', u.dueTime o ev = some t' → u.now + 64 < t')) ∧
    (u.flag F.TIO_ARM_ARMED = false → exec (.outputEventDue dt o) s = .next u ∧ exec (.timeEventDue dt o) s = .next u) ∧
    (∀ ev, u.flag F.TIO_ARM_ARMED = true → x.q = [ev] → ev.tent = false → u.isDue o ev = true → ev.kind = .pos ∨ ev.kind = .time →
      let done := fun y => (if ev.kind = .pos then exec (.outputEventDue dt o) s else exec (.timeEventDue dt o) s) =
        .next ((u.setOut o y).drivePin o)
      (ev.act = .set → done { x with q := [], setOn := true }) ∧
      (ev.act = .clear → done { x with q := [], setOn := false, pulses := [], windows := [] }) ∧
      (ev.act = .pulse → done { x with q := [], pulses := x.pulses ++ [u.uptime + ev.arg.toNat] }) ∧
      (ev.act = .window → done { x with q := [], windows := x.windows ++
        [(if ev.kind = .pos then ev.due else u.webNow (u.fld F.TIO_OUT_CTRL_CHAN o)) + ev.arg.toNat] })) ∧
    (∀ ev, x.q = [ev] → ev.tent = true → u.atHorizon o ev = true →
      (u.flag F.TIO_OUT_CTRL_HPOL o = false → exec (.commitHorizon dt o) s = .next (((u.setOut o
        { x with q := [], decided := x.decided ++ [⟨ev.life, false⟩] }).bump F.TIO_OUT_CNT_HDROP o).raiseOut o)) ∧
      (u.flag F.TIO_OUT_CTRL_HPOL o = true → exec (.commitHorizon dt o) s = .next (((u.setOut o
        { x with q := [{ ev with tent := false }], decided := x.decided ++ [⟨ev.life, true⟩] }).bump F.TIO_OUT_CNT_HFIRE o).raiseOut o)))

/-- The event window of an output (R76, R546): a writer's first three words are kept for that writer; the fourth enters the event. An
unarmed output flushes it, a disabled one refuses it, a late one is counted and by LPOL performed at once or dropped, and otherwise
it joins the queue committed, with the next SEQ. -/
def Sys2Proof.Claims.EventWindow : Prop :=
  ∀ (s : State) (who : Who) (o : Nat) (v : Word), o < 64 → s.reaches who ⟨.TIO_OUT_EVIN, o, 0⟩ v = true →
    let w := s.evinWho who
    let mine := fun (e : EvIn) => decide (e.out = o ∧ e.core = w.1 ∧ e.thr = w.2.1 ∧ e.level = w.2.2)
    let rest := s.web.evin.filter fun e => !mine e
    let words := match s.web.evin.find? mine with | some e => e.words | none => []
    (words.length ≠ 3 → exec (.evinWrite who o v) s =
      .next { s with web := { s.web with evin := rest ++ [⟨o, w.1, w.2.1, w.2.2, words ++ [v]⟩] } }) ∧
    (∀ w0 lo hi, words = [w0, lo, hi] →
      let u : State := { s with web := { s.web with evin := rest } }
      let ev := evinEvent w0 lo hi v
      (s.flag F.TIO_ARM_ARMED = false → exec (.evinWrite who o v) s = .next (u.bump F.TIO_OUT_CNT2_FLUSHED o)) ∧
      (s.flag F.TIO_ARM_ARMED = true → (ev.kind = .reserved ∨ s.flag F.TIO_OUT_CTRL_EN o = false ∨ (s.out o).bindoff = true) →
        exec (.evinWrite who o v) s = .next (u.bump F.TIO_OUT_CNT2_REFUSED o)) ∧
      (s.flag F.TIO_ARM_ARMED = true → s.flag F.TIO_OUT_CTRL_EN o = true → (s.out o).bindoff = false → ev.kind = .time →
        s.encValid (s.fld F.TIO_OUT_CTRL_CHAN o) = true →
        (s.now < hi.toNat * 2 ^ 32 + lo.toNat → (s.out o).q.length < 32 →
          exec (.evinWrite who o v) s = .next (u.setOut o { s.out o with
            q := (s.out o).q ++ [{ ev with seq := (s.out o).seq + 1 }], seq := (s.out o).seq + 1 })) ∧
        (s.now < hi.toNat * 2 ^ 32 + lo.toNat → 32 ≤ (s.out o).q.length →
          exec (.evinWrite who o v) s = .next ((u.bump F.TIO_OUT_CNT_FULL o).raiseOut o)) ∧
        (hi.toNat * 2 ^ 32 + lo.toNat ≤ s.now → s.flag F.TIO_OUT_CTRL_LPOL o = false →
          exec (.evinWrite who o v) s = .next ((u.bump F.TIO_OUT_CNT_LATE o).raiseOut o))))

/-- The ends of PULSEs, WINDOWs and of the 20 ns hold (R63, R64): what has ended is gone, what has not stays, the pin then shows the level
that the output's state calls for unless a hold is in progress, and every other output stands. -/
def Sys2Proof.Claims.OutputEnds : Prop :=
  ∀ (s : State) (dt o : Nat), o < 64 →
    let u := s.advance dt
    let x := u.out o
    let ends := fun (c : Instr) (y : Out) => ∃ t, exec c s = .next t ∧
      ({ t.out o with pin := y.pin, hold := y.hold } : Out) = y ∧
      ((∃ h, y.hold = some h ∧ u.uptime < h) → t.out o = y) ∧
      (y.hold = none → (t.out o).pin = t.pinTarget o) ∧
      (∀ p, p ≠ o → t.out p = u.out p) ∧ t = { u with web := t.web }
    ends (.pulseEnd dt o) { x with pulses := x.pulses.filter fun p => decide (u.uptime < p) } ∧
    ends (.windowEnd dt o) { x with windows := x.windows.filter fun p => decide (u.webNow (u.fld F.TIO_OUT_CTRL_CHAN o) < p) } ∧
    (∀ h, x.hold = some h → h ≤ u.uptime → ends (.pinHoldEnd dt o) { x with hold := none }) ∧
    (∀ h, x.hold = some h → u.uptime < h → exec (.pinHoldEnd dt o) s = .next u)

/-- The bind-off of an output (R73): disabling it keeps the events that BO_DROP and BO_KEEPT keep and counts the others in FLUSHED; it
is complete when nothing is queued or in progress, and its timeout ends it whatever is left, the rest flushed and cut. -/
def Sys2Proof.Claims.OutputBindoff : Prop :=
  ∀ (s : State) (who : Who) (o : Nat), o < 64 →
    let x := s.out o
    let keep := fun (v : OutEv) => if v.tent then s.flag F.TIO_OUT_CTRL_BOKEEPT o else !s.flag F.TIO_OUT_CTRL_BODROP o
    let off : Out := { x with q := [], setOn := false, pulses := [], windows := [], bindoff := false, edge := none }
    (s.mayPut who F.TIO_OUT_CTRL_EN 0 o 0 = true →
      s.flag F.TIO_OUT_CTRL_EN o = true → x.bindoff = false → ∃ t, exec (.outputBindoff who o) s = .next t ∧
        t.flag F.TIO_OUT_CTRL_EN o = false ∧ (t.out o).bindoff = true ∧ (t.out o).q = x.q.filter keep ∧
        t.fld F.TIO_OUT_CNT2_FLUSHED o = min (s.fld F.TIO_OUT_CNT2_FLUSHED o + (x.q.filter fun v => !keep v).length)
          (2 ^ (F.TIO_OUT_CNT2_FLUSHED.hi + 1 - F.TIO_OUT_CNT2_FLUSHED.lo) - 1) ∧
        (t.out o).pulses = x.pulses ∧ (t.out o).windows = x.windows ∧ (∀ p, p ≠ o → t.out p = s.out p)) ∧
    (x.bindoff = true → x.q = [] → x.pulses = [] → x.windows = [] →
      exec (.outputBindoffComplete o) s = .next ((((s.setOut o off).drivePin o).raiseOut o).finish (0x2400 + o) 2 true)) ∧
    (x.bindoff = true → (x.q ≠ [] ∨ x.pulses ≠ [] ∨ x.windows ≠ []) → exec (.outputBindoffComplete o) s = .next s) ∧
    (x.bindoff = true → exec (.outputBindoffTimeout o) s = .next
      ((((((s.bump F.TIO_OUT_CNT2_FLUSHED o x.q.length).bump F.TMO_CNT1_24).count 0x13).setOut o off).drivePin o).raiseOut o
        |>.finish (0x2400 + o) 2 true))

/-- ARM_REQ and DISARM (R70, R71, R384): ARM_REQ arms a voted complex whose voter self-test has not failed; DISARM clears ARMED, empties
every queue and makes every output inactive. The capture inputs (R74): the chosen edge records time base, row counter and encoder
position in one record, or is counted in LOST when the FIFO is full; a read of POS_HI removes the head entry. -/
def Obligations.ArmAndCapture : Prop :=
  (∀ (s : State) (who : Who),
    (s.reaches who ⟨.TIO_ARM, 0, 0⟩ 2 = true → s.voted = true → s.flag F.VOT_STEST_FAIL = false →
      exec (.armReq who) s = .next (s.setFld F.TIO_ARM_ARMED 1)) ∧
    (s.reaches who ⟨.TIO_ARM, 0, 0⟩ 2 = true → s.flag F.VOT_STEST_FAIL = true → exec (.armReq who) s = .next s) ∧
    (s.reaches who ⟨.TIO_ARM, 0, 0⟩ 4 = true → ∃ t, exec (.disarm who) s = .next t ∧ t.flag F.TIO_ARM_ARMED = false ∧
      (∀ o, (t.out o).q = [] ∧ (t.out o).setOn = false ∧ (t.out o).pulses = [] ∧ (t.out o).windows = []) ∧
      t = { s with regs := t.regs, web := t.web })) ∧
  (∀ (s : State) (dt n : Nat) (rising : Bool) (who : Who), n < 16 →
    let u := s.advance dt
    let edge := u.fld F.TIO_CAP_CTRL_EDGE n
    let chosen := edge = 2 ∨ (rising = true ∧ edge = 0) ∨ (rising = false ∧ edge = 1)
    let c := u.fld F.TIO_CAP_CTRL_CHAN n
    (u.flag F.TIO_CAP_CTRL_EN n = true → chosen → (u.cap n).length < 8 →
      exec (.captureEdge dt n rising) s =
        .next ((u.setCap n (u.cap n ++ [⟨u.tb.time, (u.chan c).row, encForm (u.encPos (u.encOf c))⟩])).raise 162)) ∧
    (u.flag F.TIO_CAP_CTRL_EN n = true → chosen → 8 ≤ (u.cap n).length →
      exec (.captureEdge dt n rising) s = .next (u.bump F.TIO_CAP_STAT_LOST n)) ∧
    (u.flag F.TIO_CAP_CTRL_EN n = false ∨ ¬ chosen → exec (.captureEdge dt n rising) s = .next u) ∧
    (s.readsOut who ⟨.TIO_CAP_POS_HI, n, 0⟩ = true → ∃ t, exec (.capturePop who n) s = .next t ∧ t.cap n = (s.cap n).drop 1 ∧
      (∀ m, m ≠ n → t.cap m = s.cap m) ∧ t.regs = s.regs ∧ t.mem = s.mem))

/-! ### Ingest (R78 to R111) -/

/-- Links (R79, R105): discovery is attempted 100 ms after the last attempt, a completed one brings the link up at its speed with its
camera waiting for a new tag base, and the loss of lock or a count of code errors above the threshold takes it down: UP 0, WENT_DOWN,
an interrupt, an emergency while the channel runs, and its camera's pending lines missing with cause 3. -/
def Sys2Proof.Claims.LinkStates : Prop :=
  ∀ (s : State) (dt l : Nat), l < 32 →
    let u := s.advance dt
    let down := fun (v : State) =>
      let w := ((v.setFld F.CXP_LNK_STAT_UP 0 l).setFld F.CXP_LNK_STAT_WENTDOWN 1 l).raise (144 + l / 4)
      let w : State := { w with ing := { w.ing with downAt := w.ing.downAt.set l w.uptime } }
      match w.camOfLink l with
      | none => w
      | some k => (if (w.chan (w.fld F.CXP_CAM_CTRL_CHAN k)).st = .run then w.emergency 0xFF01 else w).failCam k 3
    (u.flag F.CXP_LNK_CTRL_EN l = true → u.flag F.CXP_LNK_STAT_UP l = false →
      (∀ e ∈ u.ing.downAt, e.1 = l → e.2 + 100000000 ≤ u.uptime) → exec (.discoveryAttempt dt l) s =
        .next (({ u with ing := { u.ing with downAt := u.ing.downAt.set l u.uptime } } : State).bump F.CXP_LNK_CNT_16 l)) ∧
    (u.flag F.CXP_LNK_CTRL_EN l = false ∨ u.flag F.CXP_LNK_STAT_UP l = true → exec (.discoveryAttempt dt l) s = .next u) ∧
    (s.flag F.CXP_LNK_CTRL_EN l = true → s.flag F.CXP_LNK_STAT_UP l = false → ∃ t, exec (.linkUp l) s = .next t ∧
      t.flag F.CXP_LNK_STAT_UP l = true ∧ t.flag F.CXP_LNK_STAT_LOCK l = true ∧
      t.fld F.CXP_LNK_STAT_CURSPEED l = (if s.fld F.CXP_LNK_CTRL_SPEED l = 7 then 6 else s.fld F.CXP_LNK_CTRL_SPEED l) ∧
      (∀ k, s.camOfLink l = some k → t.cam k = ⟨(s.chan (s.fld F.CXP_CAM_CTRL_CHAN k)).row.toNat + 1, true, (s.cam k).lost, none⟩) ∧
      t = { s with regs := t.regs, ing := t.ing }) ∧
    (s.flag F.CXP_LNK_STAT_LOCK l = true → exec (.linkLockLoss l) s = .next (
      if s.flag F.CXP_LNK_STAT_UP l then down (s.setFld F.CXP_LNK_STAT_LOCK 0 l) else s.setFld F.CXP_LNK_STAT_LOCK 0 l)) ∧
    (∀ errs, exec (.codeErrorThreshold l errs) s = .next (
      if s.fld F.CXP_LNK_CTRL_CODETHR l < errs ∧ s.flag F.CXP_LNK_STAT_UP l then down (s.bump F.CXP_LNK_ERRS_0 l errs)
      else s.bump F.CXP_LNK_ERRS_0 l errs)) ∧
    (s.flag F.CXP_LNK_CTRL_EN l = true → exec (.receiverLocksAgain l) s = .next (s.setFld F.CXP_LNK_STAT_LOCK 1 l))

/-- Line headers (R78, R83, R84) of a channel that takes no boundary from the camera: the tag is shown; the line of a pending row whose
expected tag it carries is arriving, or fails with cause 6 where the header announces another format; a tag of no pending row is
discarded and counted as early or late. -/
def Sys2Proof.Claims.LineHeadersPair : Prop :=
  ∀ (s : State) (dt l k : Nat) (tag : Half) (fmt width height : Nat), l < 32 →
    let u := s.advance dt
    let n := u.fld F.CXP_CAM_CTRL_CHAN k
    let v := u.setFld F.CXP_CAM_TAG_16 tag.toNat k
    let row := (u.chan n).row.toNat
    u.flag F.CXP_LNK_STAT_UP l = true → u.camOfLink l = some k → (∀ m, m < 16 → u.bsrc m ≠ 3) → (u.cam k).lost = false →
      (u.cam k).want = false →
    let go := exec (.lineHeader dt l tag fmt width height) s
    (∀ r, (u.ich n).rows = [r] → r.fin = none → r.lines.get k .verified = .pending → u.expectTag k r.row = tag.toNat →
      (u.badFormat k fmt width height = false → go = .next ((v.updRow n r.row fun r => { r with lines := r.lines.set k .arriving }).setCam k
        { u.cam k with cur := some r.row })) ∧
      (u.badFormat k fmt width height = true → go = .next (v.setLine n r.row k (.failed 6)))) ∧
    ((∀ r ∈ (u.ich n).rows, rowPending r k = false) →
      let ahead := (tag.toNat + 65536 - u.expectTag k row) % 65536
      go = .next (v.bump (if 1 ≤ ahead ∧ ahead ≤ 32767 then F.CXP_LNK_CNT_8 else F.CXP_LNK_CNT_0) l))

/-- Stream packets (R81, R82, R96, R97, R104): pixels go to their wales of the row's slot; a bad CRC fails the line with cause 2, a buffer
overflow with cause 7; the last packet leaves the line verified, or unresolved while its CRC check is still to end; with no line
arriving nothing is written. -/
def Obligations.StreamPackets : Prop :=
  ∀ (s : State) (l k first : Nat) (px : List Word) (crc : PktCrc) (last : Bool), l < 32 →
    let n := s.fld F.CXP_CAM_CTRL_CHAN k
    let v := if crc = .bad then s.bump F.CXP_LNK_ERRS_16 l else s
    s.flag F.CXP_LNK_STAT_UP l = true → s.camOfLink l = some k →
    let go := fun overflow => exec (.streamPacket l first px crc last overflow) s
    ((s.cam k).cur = none → go false = .next v) ∧
    (∀ row, (s.cam k).cur = some row → (last = false ∨ ∀ r ∈ (s.ich n).rows, r.row = row → lastOutstanding r k = false) →
      go false = .next (
        let w := v.writePixels n row k first px
        match crc with
        | .bad => w.setLine n row k (.failed 2)
        | .ok => if last then w.setLine n row k .verified else w
        | .later => if last then w.setLine n row k .unresolved else w) ∧
      go true = .next (
        let w := s.bump F.CXP_LNK_CNT_24 l
        (if crc = .bad then w.bump F.CXP_LNK_ERRS_16 l else w).setLine n row k (.failed 7))) ∧
    (∀ row p x, s.writePixels n row k p [x] = match s.waleOf k p with
      | some w => s.store (s.slotAddr n row + 64 + w * bpwOf (s.fld F.CXP_CAM_CTRL_FMT k)) (pixelBytes (s.fld F.CXP_CAM_CTRL_FMT k) x)
      | none => s)

/-- Courses (R93, R97 to R100), on a channel without consumers: a finished head row is released; the CRC of a released speculative course
ends it as COMPLETE or as a dropped course with cause 2; the watchdog of the oldest unfinished row fails the lines that are still
pending with cause 4 and counts an expiry, and before its time nothing happens. -/
def Sys2Proof.Claims.CourseEnds : Prop :=
  ∀ (s : State) (dt n : Nat) (r : IRow), n < 16 → s.consumers n = [] →
    let u := s.advance dt
    (s.headRow n = some r → r.fin = none → exec (.courseRelease n) s = .next s) ∧
    (s.headRow n = some r → r.fin = some .complete ∨ r.fin = some .partialCourse →
      exec (.courseRelease n) s = .next ((s.delRow n r.row).showHead n)) ∧
    (s.headRow n = some r → r.fin = some .spec →
      exec (.courseRelease n) s = .next ((s.updRow n r.row fun r => { r with rel := true }).showHead n)) ∧
    ((s.ich n).rows = [r] → r.rel = true → ∃ t, exec (.crcResolution n r.row true) s = .next t ∧ (t.ich n).rows = [] ∧
      (t.ich n).completed = (s.ich n).completed + 1 ∧ (t.ich n).dropped = (s.ich n).dropped ∧ t.flag F.CXP_CH_ISTAT_SPECOPEN n = false) ∧
    ((s.ich n).rows = [r] → r.rel = true → ∃ t, exec (.crcResolution n r.row false) s = .next t ∧ (t.ich n).rows = [] ∧
      (t.ich n).completed = (s.ich n).completed ∧ (t.ich n).dropped = (s.ich n).dropped + 1 ∧
      (t.ich n).lastDrop = some (r.row, 2)) ∧
    (∀ k, (u.ich n).rows = [r] → r.fin = none → r.lines = [(k, .pending)] → (u.cam k).cur = none →
      (r.marker.time.toNat + u.fld F.CXP_CH_CWD n * 1000 ≤ u.now → exec (.courseWatchdog dt n) s =
        .next (((u.count 0x13).updRow n r.row fun r => { r with lines := [(k, .failed 4)] }).checkRow n r.row)) ∧
      (u.now < r.marker.time.toNat + u.fld F.CXP_CH_CWD n * 1000 → exec (.courseWatchdog dt n) s = .next u))

/-- Heartbeats, the event FIFO and camera mailboxes (R106, R109 to R111). -/
def Obligations.HeartbeatsEventsMailboxes : Prop :=
  ∀ (s : State) (dt l k : Nat) (who : Who) (v : Word) (data : List Byte) (ok : Bool) (ack : Nat), l < 32 → k < 32 →
    let u := s.advance dt
    let busy := s.flag F.CXP_MBX_STAT_BUSY k
    (s.flag F.CXP_LNK_STAT_UP l = true → ∃ t, exec (.heartbeatPacket l) s = .next t ∧ t.flag F.CXP_LNK_STAT_HBOK l = true ∧
      (∀ c, s.camOfMaster l = some c → (s.cam c).lost = true →
        t.cam c = ⟨(s.chan (s.fld F.CXP_CAM_CTRL_CHAN c)).row.toNat + 1, true, false, none⟩) ∧
      (∀ c, s.camOfMaster l ≠ some c → t.cam c = s.cam c) ∧ t = { s with regs := t.regs, ing := t.ing }) ∧
    (s.flag F.CXP_LNK_CTRL_EN l = true → (∀ c, s.camOfMaster l = some c → (s.ich (s.fld F.CXP_CAM_CTRL_CHAN c)).rows = []) →
      ∃ t, exec (.heartbeatTimeout l) s = .next t ∧ t.flag F.CXP_LNK_STAT_HBOK l = false ∧ t.flag F.CXP_LNK_STAT_HBLOST l = true ∧
      (∀ c, s.camOfMaster l = some c → (t.cam c).lost = true ∧ (t.cam c).cur = none) ∧
      t.tally.get 0x13 0 = s.tally.get 0x13 0 + 1) ∧
    (u.flag F.CXP_LNK_STAT_UP l = true → u.ing.fifo.length < 64 → exec (.eventPacket dt l data) s =
      .next (({ u with ing := { u.ing with
        fifo := u.ing.fifo ++ [⟨l, u.tb.time, data.take 56, decide (56 < data.length)⟩] } } : State).raise 153)) ∧
    (u.flag F.CXP_LNK_STAT_UP l = true → 64 ≤ u.ing.fifo.length →
      exec (.eventPacket dt l data) s = .next (u.bump F.CXP_EVT_STAT_16)) ∧
    (s.readsOut who ⟨.CXP_EVT_HEAD, 15, 0⟩ = true → ∃ t, exec (.eventFifoPop who) s = .next t ∧ t.ing.fifo = s.ing.fifo.drop 1 ∧
      t.regs = s.regs ∧ t.mem = s.mem) ∧
    (s.reaches who ⟨.CXP_MBX_CMD, k, 0⟩ v = true → v.toNat.testBit 31 = true →
      (busy = true → exec (.mailboxGo who k v) s = .next (s.setFld F.CXP_MBX_STAT_REFUSED 1 k)) ∧
      (busy = false → ∃ t, exec (.mailboxGo who k v) s = .next t ∧ t.flag F.CXP_MBX_STAT_BUSY k = true ∧
        t.fld F.CXP_MBX_CMD_LEN k = bitsOf v.toNat F.CXP_MBX_CMD_LEN.hi F.CXP_MBX_CMD_LEN.lo ∧
        ∃ d, t.sent = .camControl k (bitsOf v.toNat F.CXP_MBX_CMD_OP.hi F.CXP_MBX_CMD_OP.lo == 1) (s.reg ⟨.CXP_MBX_ADDR, k, 0⟩) d :: s.sent)) ∧
    (busy = true → ∃ t, exec (.mailboxAnswer k ok ack data) s = .next t ∧ t.flag F.CXP_MBX_STAT_BUSY k = false ∧
      t.flag F.CXP_MBX_STAT_DONE k = true ∧ t.fld F.CXP_MBX_STAT_ACK k = ack % 256 ∧
      (ok = false → t.flag F.CXP_MBX_STAT_ERR k = true ∧ ∀ w, t.reg ⟨.CXP_MBX_DATA, k, w⟩ = s.reg ⟨.CXP_MBX_DATA, k, w⟩) ∧
      (ok = true → s.flag F.CXP_MBX_CMD_OP k = false → ∀ w, w ≤ s.fld F.CXP_MBX_CMD_LEN k →
        t.reg ⟨.CXP_MBX_DATA, k, w⟩ = BitVec.ofNat 32 (ofLeBytes ((data.drop (4 * w)).take 4)))) ∧
    (busy = true → ∃ t, exec (.mailboxWaitAck k) s = .next t ∧ t.ing.waits.get k 0 = min 8 (s.ing.waits.get k 0 + 1) ∧
      t = { s with ing := t.ing }) ∧
    (busy = true → exec (.mailboxTimeout k) s =
      .next (((s.setFld F.CXP_MBX_STAT_BUSY 0 k).setFld F.CXP_MBX_STAT_TIMEOUT 1 k).raise 152))

/-- Release rows, drop logs and the bind-off of ingest (R91, R101, R108, R547): a firmware or host consumer's release row only rises and
a ply-queue consumer's ignores the write; reading DLOG_HI removes the head entry; EN 0 ends the admission of rows; the bind-off ends
once no row is left, and its timeout ends it with one count in TMO_CNT1 and in the expiries. -/
def Sys2Proof.Claims.ReleaseAndIngestBindoff : Prop :=
  ∀ (s : State) (who : Who) (n k : Nat) (v : Word), n < 16 → k < 4 →
    (s.reaches who ⟨.CXP_CH_REL_HI, n, k⟩ v = true →
      let row := (s.held.get ⟨.CXP_CH_REL_HI, n, k⟩ (s.reg ⟨.CXP_CH_REL_LO, n, k⟩)).toNat + 2 ^ 32 * v.toNat
      let u : State := { s with held := s.held.del ⟨.CXP_CH_REL_HI, n, k⟩ }
      (s.consPly n k = true ∨ row ≤ s.relRow n k → exec (.releaseRowWrite who n k v) s = .next u) ∧
      (s.consPly n k = false → s.relRow n k < row → ∃ t, exec (.releaseRowWrite who n k v) s = .next t ∧ t.relRow n k = row)) ∧
    (s.readsOut who ⟨.CXP_CH_DLOG_HI, n, 0⟩ = true → ∃ t, exec (.dropLogPop who n) s = .next t ∧
      (t.ich n).dlog = (s.ich n).dlog.drop 1 ∧ t.mem = s.mem) ∧
    (s.reaches who ⟨.CXP_CH_ICTRL, n, 0⟩ v = true → v.toNat.testBit 0 = false → s.flag F.CXP_CH_ICTRL_EN n = true →
      s.flag F.CXP_CH_ISTAT_RUN n = true → ∃ t, exec (.ingestBindoff who n v) s = .next t ∧ t.flag F.CXP_CH_ICTRL_EN n = false ∧
        t.flag F.CXP_CH_ISTAT_RUN n = false ∧ t.flag F.CXP_CH_ISTAT_BINDOFF n = true ∧ t = { s with regs := t.regs }) ∧
    (s.flag F.CXP_CH_ISTAT_BINDOFF n = true → (s.ich n).rows = [] → (∀ q, q < 16 → (s.plq q).bindAfter = false) →
      let ended := fun (w : State) => ((w.setFld F.CXP_CH_ISTAT_BINDOFF 0 n).raise (128 + n)).settleChan n
      exec (.ingestBindoffEnd n) s = .next (ended s) ∧
      exec (.ingestBindoffTimeout n) s = .next (ended ((s.bump F.TMO_CNT1_24).count 0x13))) ∧
    (s.flag F.CXP_CH_ISTAT_BINDOFF n = true → (s.headRow n).isSome = true → exec (.ingestBindoffEnd n) s = .next s)


/-! ### Stash (R112 to R126) -/

/-- The stash map (R114): slice, group and lane of an offset as the spec's formula gives them, the four banks of a line side by side, and
the map is one-to-one together with the row and the byte. -/
def Sys2Proof.Claims.StashMap : Prop :=
  (∀ a, a < 2 ^ 27 → stBank a =
    ((a / 2 ^ 6 % 64) ^^^ (a / 2 ^ 16 % 64)) * 64 + ((a / 2 ^ 12 % 16) ^^^ (a / 2 ^ 22 % 16)) * 4 + a / 16 % 4 ∧ stBank a < 4096) ∧
  (∀ l w, l < 2 ^ 21 → w < 4 → stBank (64 * l + 16 * w) = stBank (64 * l) + w) ∧
  (∀ a b, a < 2 ^ 27 → b < 2 ^ 27 → stBank a = stBank b → a / 2 ^ 16 = b / 2 ^ 16 → a % 16 = b % 16 → a = b) ∧
  (∀ j k, j < 1024 → k < 1024 → stBank (0x400000 + j * 0x10000) = stBank (0x400000 + k * 0x10000) → j = k)

/-- Requests at the banks (R115, R121, R123): a word request enters its bank's queue of 16 or waits in the fabric, a line request enters the
queues of its four banks; a request that waited longer than STH_ARB_TO is reported and goes first; a write-back leaves the list. -/
def Sys2Proof.Claims.StashRequests : Prop :=
  ∀ (s : State) (port id off : Nat) (wr : Bool) (data : List Byte) (be : DWord) (epoch : Half) (plq bank dc : Nat),
    port < 146 → off < 2 ^ 27 → plq < 64 → bank < 4096 →
    let word := fun w o => (⟨port, id, o, wr, BitVec.ofNat 128 (ofLeBytes ((data.drop (16 * w)).take 16)),
      BitVec.ofNat 16 (be.toNat / 2 ^ (16 * w)), s.stash.cycle, epoch, plq⟩ : StReq)
    let q := fun (x : State) b => x.stash.queues.get b []
    let o := off / 16 * 16
    let l := off / 64 * 64
    let one := exec (.stashRequest port id off false wr data be epoch plq) s
    let u : State := { s with stash := { s.stash with cycle := s.stash.cycle + dc } }
    ((q s (stBank o)).length < 16 →
      one = .next { s with stash := { s.stash with queues := s.stash.queues.set (stBank o) (q s (stBank o) ++ [word 0 o]) } }) ∧
    (16 ≤ (q s (stBank o)).length → one = .next { s with stash := { s.stash with fabric := s.stash.fabric ++ [(stBank o, word 0 o)] } }) ∧
    ((∀ w, w < 4 → (q s (stBank l + w)).length < 16) → ∃ t, exec (.stashRequest port id off true wr data be epoch plq) s = .next t ∧
      (∀ w, w < 4 → q t (stBank l + w) = q s (stBank l + w) ++ [word w (l + 16 * w)]) ∧
      (∀ b, stBank l + 4 ≤ b ∨ b < stBank l → q t b = q s b) ∧
      t = { s with stash := { s.stash with queues := t.stash.queues } }) ∧
    (∀ r, s.stash.urgent = [] → q s bank = [r] →
      (r.age + s.fld F.STH_ARB_TO ≤ s.stash.cycle + dc → ∃ t, exec (.arbitrationTimeout bank dc) s = .next t ∧
        t.stash = { u.stash with urgent := [(bank, r)] } ∧ t.flag F.STH_STAT_STARVED = true ∧ t.mem = s.mem ∧
        t.tally.get 0x13 0 = s.tally.get 0x13 0 + 1) ∧
      (s.stash.cycle + dc < r.age + s.fld F.STH_ARB_TO → exec (.arbitrationTimeout bank dc) s = .next u)) ∧
    exec (.demandWriteback off) s =
      .next { s with stash := { s.stash with writeBack := s.stash.writeBack.erase (stashBase + off / 8 * 8) } }

/-- A bank's grants (R116 to R120, R122): the oldest request, then the one of lowest rank; the reads of a merge set return the contents
from before it; of its writes each byte takes the one of highest rank that enables it; a bed's write under a stale epoch is counted and
stores nothing; and a bed whose request waits counts a conflict. -/
def Sys2Proof.Claims.StashGrants : Prop :=
  ∀ (s : State) (bank dc : Nat) (x y : StReq), bank < 4096 → s.stash.busy = [] → s.stash.urgent = [] → s.stash.fabric = [] →
    s.stash.conflict = [] → memWf s.mem = true → stBank x.off = bank → x.off < 2 ^ 27 → x.off % 16 = 0 →
    let a := stashBase + x.off
    let rank := fun (r : StReq) => (r.port + 146 - (s.stash.cycle + dc) % 146) % 146
    let go := exec (.bankGrant bank dc .clean .clean) s
    let q := s.stash.queues.get bank []
    let answer := (⟨x.port, x.id, x.off, false, BitVec.ofNat 128 (s.peekNat a 16), s.poisoned a 16⟩ : StResp)
    let ack := fun (r : StReq) => (⟨r.port, r.id, r.off, true, 0, false⟩ : StResp)
    let fresh := fun (r : StReq) => 136 ≤ r.port ∨ r.epoch.toNat = s.fld F.PLQ_BIND_EPOCH r.plq
    (q = [] → go = .next { s with stash := { s.stash with cycle := s.stash.cycle + dc } }) ∧
    (q = [x] → x.wr = false → ∃ t, go = .next t ∧ t.stash.resp = s.stash.resp ++ [answer] ∧
      t.stash.queues.get bank [] = [] ∧ t.mem = s.mem ∧ ∀ r, t.reg r = s.reg r) ∧
    ((q = [x, y] ∨ q = [y, x]) → x.off ≠ y.off → x.wr = false → (x.age < y.age ∨ x.age = y.age ∧ rank x < rank y) →
      ∃ t, go = .next t ∧ t.stash.resp = s.stash.resp ++ [answer] ∧ t.stash.queues.get bank [] = [y] ∧ t.mem = s.mem ∧
        (y.port < 136 → s.pair F.STH_CONFL_LO F.STH_CONFL_HI y.port + 1 < 2 ^ 64 →
          t.pair F.STH_CONFL_LO F.STH_CONFL_HI y.port = s.pair F.STH_CONFL_LO F.STH_CONFL_HI y.port + 1)) ∧
    (q = [x, y] → x.off = y.off → x.age = y.age → x.wr = false → y.wr = true → 136 ≤ y.port → y.be = 0xFFFF →
      ∃ t, go = .next t ∧ t.stash.resp = s.stash.resp ++ [answer, ack y] ∧ t.stash.queues.get bank [] = [] ∧
        t.peekN a 16 = leBytes 16 y.data.toNat ∧ t.poisoned a 16 = s.deadBank a ∧
        (∀ b, b < a ∨ a + 16 ≤ b → t.peek b = s.peek b)) ∧
    (q = [x, y] ∨ q = [y, x] → x.off = y.off → x.age = y.age → x.wr = true → y.wr = true → 136 ≤ x.port → 136 ≤ y.port →
      rank x < rank y → ∃ t, go = .next t ∧ (∀ k, k < 16 → t.peek (a + k) =
        if y.be.toNat.testBit k then (leBytes 16 y.data.toNat).getD k 0
        else if x.be.toNat.testBit k then (leBytes 16 x.data.toNat).getD k 0 else s.peek (a + k)) ∧
        (∀ b, b < a ∨ a + 16 ≤ b → t.peek b = s.peek b)) ∧
    (q = [x] → x.wr = true → ¬ fresh x → s.pair F.BED_STALE_LO F.BED_STALE_HI + 1 < 2 ^ 64 → ∃ t, go = .next t ∧ t.mem = s.mem ∧
      t.stash.queues.get bank [] = [] ∧ t.stash.resp = s.stash.resp ∧
      t.pair F.BED_STALE_LO F.BED_STALE_HI = s.pair F.BED_STALE_LO F.BED_STALE_HI + 1)

/-- The transparent bank test (R125, R126) at physical bank `pb` of slice `sl`: with a free spare the bank's slot starts its copy and
without one it is skipped; the copy's end redirects and its abandonment frees the spare; a passed test copies back and frees the spare,
a failed one leaves the logical bank with the spare for good, counts it and sends an emergency. -/
def Sys2Proof.Claims.BankTest : Prop :=
  ∀ (s : State) (sl pb : Nat), sl < 64 → pb < 64 → s.stash.next = sl * 66 + pb →
    let spare := fun (x : State) => x.fld F.STH_SLICE_SPARE_SP0 sl
    (s.stash.phase = .idle → s.flag F.STH_CTRL_TESTEN = true → s.flag F.RPR_STAT_DONE = true → s.bankFailed sl pb = false →
      (spare s = 0x40 → ∃ t, exec .bankTestSlot s = .next t ∧ t.stash = { s.stash with phase := .copy, spare := 64 } ∧ spare t = 0x41 ∧
        t.fld F.STH_TEST_POS_16 = 1 ∧ t.fld F.STH_TEST_POS_8 = sl ∧ t.fld F.STH_TEST_POS_0 = pb ∧
        t.flag F.STH_STAT_TESTACTIVE = true ∧ t = { s with regs := t.regs, stash := t.stash }) ∧
      (spare s ≠ 0x40 → s.fld F.STH_SLICE_SPARE_SP1 sl ≠ 0x40 → ∃ t, exec .bankTestSlot s = .next t ∧ t.stash.phase = .resting ∧
        t.stash.next = s.stash.next ∧ t.fld F.STH_TEST_CNT_8 = min (s.fld F.STH_TEST_CNT_8 + 1) 255 ∧
        t.flag F.STH_STAT_NOSPARE = true ∧ t.mem = s.mem)) ∧
    (s.stash.phase = .idle → s.flag F.STH_CTRL_TESTEN = false ∨ s.flag F.RPR_STAT_DONE = false → exec .bankTestSlot s = .next s) ∧
    (s.stash.phase = .copy → ∃ t, exec .bankTestCopyEnd s = .next t ∧ t.stash = { s.stash with phase := .test } ∧
      t.mem.cells = s.mem.cells ∧ t.fld F.STH_TEST_POS_16 = 2 ∧ spare t = spare s) ∧
    (s.stash.phase = .copy → s.stash.spare = 64 → ∃ t, exec .bankTestCopyAbandon s = .next t ∧
      t.stash = { s.stash with phase := .resting } ∧ spare t = 0x40 ∧ t.fld F.STH_TEST_CNT_8 = min (s.fld F.STH_TEST_CNT_8 + 1) 255 ∧
      t.mem = s.mem) ∧
    (s.stash.phase = .test → s.stash.spare = 64 → (∃ t, exec (.bankTestResult true) s = .next t ∧
        t.stash = { s.stash with phase := .copyBack } ∧ spare t = spare s ∧ t.mem = s.mem) ∧
      ∃ t, exec (.bankTestResult false) s = .next t ∧ t.stash = { s.stash with phase := .resting } ∧ spare t = pb ∧
        t.fld F.STH_SLICE_SPARE_RETIRED sl = (s.fld F.STH_SLICE_SPARE_RETIRED sl + 1) % 256 ∧
        t.fld F.STH_TEST_CNT_0 = min (s.fld F.STH_TEST_CNT_0 + 1) 255 ∧ t.flag F.STH_STAT_TESTFAIL = true ∧ t.mem = s.mem ∧
        (s.emLast = [] → t.sent = .emergency 0x5000 :: s.sent)) ∧
    (s.stash.phase = .copyBack → s.stash.spare = 64 → ∃ t, exec .bankTestCopyBackEnd s = .next t ∧
      t.stash = { s.stash with phase := .resting } ∧ spare t = 0x40 ∧ t.flag F.STH_STAT_TESTACTIVE = false ∧ t.mem = s.mem)

/-! ### DDR (R127 to R137) -/

/-- Requests to DDR (R130, R131, R132, R133, R135): a read enters its subchannel's queue of 96 and returns the line, a queued write's data
included; a full-line write lands at once; a corrected error is counted, an uncorrectable one is counted, logged and poisons the line,
and a line that holds the poison code is not counted again; patrol scrub does the same to the next line of its channel. -/
def Sys2Proof.Claims.DdrRequests : Prop :=
  ∀ (s : State) (port id addr : Nat) (data : List Byte) (be : DWord) (dimm rank dev : Nat), port < 146 → ddrBase ≤ addr →
    addr < s.ddrTop → s.ddrTop % 64 = 0 → s.ddr.fabric = [] → memWf s.mem = true → data.length = 64 →
    let a := addr / 64 * 64
    let c := s.ddrChan a
    let key := c * 2 + (addr - ddrBase) / 64 % 2
    let rq := s.ddr.rq.get key []
    s.ddrDown c = false → s.ddrChans.contains c = true →
    let keeps := fun (t : State) => (∀ k, t.ddr.wq.get k [] = s.ddr.wq.get k []) ∧
      t = { s with ddr := { s.ddr with rq := t.ddr.rq, wq := t.ddr.wq, fabric := t.ddr.fabric } }
    (rq.length < 96 → ∃ t, exec (.ddrRequest port id addr false data be 0) s = .next t ∧ t.ddr.fabric = [] ∧
      t.ddr.rq = s.ddr.rq.set key (rq ++ [⟨port, id, a⟩]) ∧ keeps t) ∧
    (96 ≤ rq.length → ∃ t, exec (.ddrRequest port id addr false data be 0) s = .next t ∧ t.ddr.rq = s.ddr.rq ∧
      t.ddr.fabric = [(key, .inl ⟨port, id, a⟩)] ∧ keeps t) ∧
    ((s.ddr.wq.get key []).length < 48 → 136 ≤ port → be = BitVec.allOnes 64 →
      ∃ t, exec (.ddrRequest port id addr true data be 0) s = .next t ∧ t.peekN a 64 = data ∧ t.poisoned a 64 = false ∧
        (∀ x, x < a ∨ a + 64 ≤ x → t.peek x = s.peek x) ∧ (∀ k, k < 64 → t.tagAt (a + k) = false) ∧
        t.ddr.wq.get key [] = s.ddr.wq.get key [] ++ [⟨a, none⟩] ∧ t.regs = s.regs) ∧
    (48 ≤ (s.ddr.wq.get key []).length → ∃ t, exec (.ddrRequest port id addr true data be 0) s = .next t ∧ t.ddr.rq = s.ddr.rq ∧
      t.ddr.fabric = [(key, .inr (a, data, be))] ∧ keeps t) ∧
    (∀ ecc, rq = [⟨port, id, a⟩] → ∃ t, exec (.ddrReadReturn c ((addr - ddrBase) / 64 % 2) id ecc dimm rank dev) s = .next t ∧
      t.ddr.rq.get key [] = [] ∧ t.mem.cells = s.mem.cells ∧
      t.ddr.resp = s.ddr.resp ++ [⟨port, id, s.peekN a 64, t.poisoned a 64⟩] ∧
      (ecc = .clean ∨ (∃ w ∈ s.ddr.wq.get key [], w.line = a) → t.mem = s.mem ∧ t.regs = s.regs) ∧
      ((∀ w ∈ s.ddr.wq.get key [], w.line ≠ a) → ecc = .corrected → t.mem = s.mem ∧
        t.fld F.DDR_CH_ECC_16 c = min (s.fld F.DDR_CH_ECC_16 c + 1) 65535) ∧
      ((∀ w ∈ s.ddr.wq.get key [], w.line ≠ a) → ecc = .uncorrectable → s.mem.poison.contains a = false →
        t.poisoned a 64 = true ∧ t.fld F.DDR_CH_ECC_0 c = min (s.fld F.DDR_CH_ECC_0 c + 1) 65535 ∧
        t.pair F.DDR_CH_ELOG_LO F.DDR_CH_ELOG_HI c = a) ∧
      (s.mem.poison.contains a = true → ecc = .uncorrectable → t.mem = s.mem ∧ t.regs = s.regs ∧ t.poisoned a 64 = true)) ∧
    (s.flag F.DDR_CTRL_SCRUBEN = true → 0 < s.ddr.capacity → s.patrolAddr c (s.ddr.patrol.get c 0) = some a → ∀ ecc,
      ∃ t, exec (.patrolScrub c ecc dimm rank dev) s = .next t ∧ t.mem.cells = s.mem.cells ∧
        t.ddr.patrol.get c 0 = (s.ddr.patrol.get c 0 + 1) % max 1 (s.ddr.capacity / 64) ∧
        (ecc = .corrected → t.fld F.DDR_CH_ECC_16 c = min (s.fld F.DDR_CH_ECC_16 c + 1) 65535) ∧
        (ecc = .uncorrectable → t.poisoned a 64 = true)) ∧
    (s.flag F.DDR_CTRL_SCRUBEN = false → ∀ ecc, exec (.patrolScrub c ecc dimm rank dev) s = .next s)

/-- Recovery of a channel (R134, R136, R137): a request's timeout, a PMIC error or firmware's RECOVER starts it: outstanding reads complete poisoned, and a
third within an hour puts the channel OFFLINE; the fast path poisons the lines of the frozen writes and brings the channel back; the
full path loses the contents, which read as 0 once the fill ends and as poison until then; the sensor sets REFX2 above 85 °C. -/
def Sys2Proof.Claims.DdrRecovery : Prop :=
  ∀ (s : State) (who : Who) (c : Nat) (temp : Byte), c < 12 →
    let online := fun (x : State) => x.flag F.DDR_CH_STAT_ONLINE c
    let recent := (s.ddr.recoveries.get c []).filter fun t => decide (s.uptime < t + 3600000000000)
    let starts := fun (cmd : Instr) => ∃ t, exec cmd s = .next t ∧ online t = false ∧
      (recent.length < 2 → t.flag F.DDR_CH_STAT_RECOVER c = true) ∧ (2 ≤ recent.length → t.flag F.DDR_CH_STAT_OFFLINE c = true) ∧
      (∀ k, t.ddr.rq.get (2 * c) [] = [] ∧ t.ddr.rq.get (2 * c + 1) [] = [] ∧ t.ddr.wq.get k [] = s.ddr.wq.get k []) ∧
      (∀ k, ∀ r ∈ s.ddr.rq.get (2 * c + k % 2) [], (⟨r.port, r.id, s.peekN r.addr 64, true⟩ : DdrResp) ∈ t.ddr.resp) ∧ t.mem = s.mem
    (s.ddrChans.contains c = true → s.ddrDown c = false →
      starts (.pmicError c) ∧ (s.mayPut who F.DDR_CH_CTRL_RECOVER 1 c 0 = true → starts (.ddrRecoverCommand who c)) ∧
      (s.ddrWaits c = true → starts (.ddrRequestTimeout c))) ∧
    (s.ddrWaits c = false → exec (.ddrRequestTimeout c) s = .next s) ∧
    (s.flag F.DDR_CH_STAT_RECOVER c = true → (∀ w ∈ s.ddr.wq.get (2 * c) [] ++ s.ddr.wq.get (2 * c + 1) [], w.src = none) →
      ∃ t, exec (.ddrFastPathEnd c true) s = .next t ∧ t.flag F.DDR_CH_STAT_RECOVER c = false ∧ online t = true ∧
        t.ddr.wq.get (2 * c) [] = [] ∧ t.ddr.wq.get (2 * c + 1) [] = [] ∧ t.mem.cells = s.mem.cells ∧
        (∀ w ∈ s.ddr.wq.get (2 * c) [] ++ s.ddr.wq.get (2 * c + 1) [], t.mem.poison.contains w.line = true) ∧
        t.fld F.DDR_CH_CNT_16 c = min (s.fld F.DDR_CH_CNT_16 c + 1) 255) ∧
    (s.flag F.DDR_CH_STAT_RECOVER c = true → memWf s.mem = true → ∃ t, exec (.ddrFullPath c) s = .next t ∧
      exec (.ddrFastPathEnd c false) s = .next t ∧ t.flag F.DDR_CH_STAT_LOST c = true ∧
      (∀ a, s.regionOf a = .ddr → s.ddrChan a = c → t.peek a = 0 ∧ t.tagAt a = false ∧ t.poisoned a 1 = true) ∧
      (∀ a, s.regionOf a = .ddr → s.ddrChan a ≠ c → t.peek a = s.peek a)) ∧
    (s.flag F.DDR_CH_STAT_LOST c = true → s.flag F.DDR_CH_STAT_OFFLINE c = false → ∃ t, exec (.ddrFillEnd c) s = .next t ∧
      t.ddrDown c = false ∧ online t = true ∧ t.mem = s.mem ∧
      t.fld F.DDR_CH_CNT_8 c = (if s.flag F.DDR_CH_STAT_RECOVER c then
        min (s.fld F.DDR_CH_CNT_8 c + 1) 255 else s.fld F.DDR_CH_CNT_8 c)) ∧
    (∃ t, exec (.spdThermalRead c temp) s = .next t ∧ t.fld F.DDR_CH_TEMP c = temp.toNat ∧
      t.flag F.DDR_CH_STAT_REFX2 c = decide (85 < temp.toInt) ∧
      t.flag F.DDR_CH_STAT_HOT c = (s.flag F.DDR_CH_STAT_HOT c || decide ((s.fld F.DDR_CH_CTRL_THOT c : Int) ≤ temp.toInt)) ∧
      t = { s with regs := t.regs })

/-! ### Ply queues (R141 to R152, R164, R167, R234 to R242) -/

/-- Submission and start (R141, R143, R144, R146, R147, R148): the word at 0x3C enqueues the entry of the window, or is refused; a set that
runs nothing starts the head entry of its ready queue on its beds under the queue's epoch, or posts the refusal of admission; PIN_EN 1
leaves the entry of the pin slot. -/
def Obligations.PlySubmitAndStart : Prop :=
  ∀ (s : State) (who : Who) (q n : Nat) (v : Word), q < 64 → n < 64 →
    let x := s.plq q
    let win := x.win.set 0x3C v
    let e := entryOf win x.winTag
    let only := fun (t : State) => t = { s with ply := t.ply } ∧ ∀ p, p ≠ q → t.plq p = s.plq p
    (s.reaches who ⟨.PLQ_SUB, q, 15⟩ v = true →
      (s.flag F.PLQ_CTRL_EN q = true → s.qBindoff q = false → x.wait.length < 16 → s.setOf q = some n → s.setBeds n ≠ [] →
        ∃ t, exec (.plySubmit who q v) s = .next t ∧ t.plq q = { x with win := win, wait := x.wait ++ [e] } ∧ only t) ∧
      (s.flag F.PLQ_CTRL_EN q = false ∨ s.qBindoff q = true ∨ 16 ≤ x.wait.length → ∃ t, exec (.plySubmit who q v) s = .next t ∧
        t.plq q = { x with win := win } ∧ t.flag F.PLQ_STAT_SUBREFUSED q = true ∧
        t.fld F.PLQ_CNT_0 q = min (s.fld F.PLQ_CNT_0 q + 1) 255 ∧ t.mem = s.mem) ∧
      (s.flag F.PLQ_CTRL_EN q = true → s.qBindoff q = false → x.wait.length < 16 → s.setOf q = none → x.cpl.length < 32 →
        ∃ t, exec (.plySubmit who q v) s = .next t ∧ (t.plq q).wait = x.wait ∧
          (t.plq q).cpl = x.cpl ++ [⟨e.cookie, 1, 20, 0, 0, 0, 0, 0⟩] ∧ t.mem = s.mem)) ∧
    (∀ f rest, s.queuesOf n = [q] → (s.bset n).run = none → s.pinnedBusy n = false → s.qMayStart q = true →
      s.flag F.PLQ_CTRL_PINEN q = false → x.older = none → x.wait = f :: rest →
      let r := (s.setPlq q { x with wait := rest }).admitPly q f false f.row0
      (∀ p w, r = (.ok p, w) → ∃ t, exec (.plyStart n) s = .next t ∧ t.inst q false = some { p with st := .running } ∧
        (t.bset n).run = some q ∧ (t.bset n).last = q ∧ (∀ b ∈ w.setBeds n, (t.bed b).epoch = w.qEpoch q) ∧
        t = { w with ply := t.ply }) ∧
      (∀ c i a w, r = (.refused c i a, w) → (w.plq q).cpl.length < 32 → ∃ t, exec (.plyStart n) s = .next t ∧
        (t.plq q).cpl = (w.plq q).cpl ++ [⟨f.cookie, 1, c, i, 0, 0, 0, a⟩] ∧ (t.plq q).older = (w.plq q).older ∧
        (t.bset n).run = (w.bset n).run ∧ (t.bset n).last = q ∧ t.mem = w.mem)) ∧
    ((s.bset n).run ≠ none ∨ s.pinnedBusy n = true ∨ s.nextQueue n = none → exec (.plyStart n) s = .next s) ∧
    (q < 16 → s.mayPut who F.PLQ_CTRL_PINEN 1 q 0 = true → (s.ich (s.pinChan q)).feed = [] →
      ∃ t, exec (.pinEnable who q) s = .next t ∧ t.flag F.PLQ_CTRL_PINEN q = true ∧ t.fld F.PLQ_CTRL_PCHAN q = s.fld F.PLQ_CTRL_PCHAN q ∧
        t.fld F.PLQ_CTRL_OWNER q = s.fld F.PLQ_CTRL_OWNER q ∧ (∀ r, r ≠ ⟨.PLQ_CTRL, q, 0⟩ → t.reg r = s.reg r) ∧
        t = { s with regs := t.regs })

/-- How plies end and go on (R145, R149, R150): a suspension records progress; a fault posts its record and leaves the instance FAULTED
and the set free; RESUME tinks it, ABORT posts a record and ends it, and neither does anything where nothing is FAULTED; a ply whose
instructions have finished retires with a record; a pop removes the head record and lets starts go on. -/
def Obligations.PlyEnds : Prop :=
  ∀ (s : State) (who : Who) (q n : Nat) (p : Inst), q < 64 → n < 64 → s.setOf q = some n → (s.plq q).older = some p →
    (s.plq q).younger = none → p.pinned = false → (s.ich (s.pinChan q)).feed = [] → (s.plq q).cpl.length < 32 →
    let x := s.plq q
    let cmd := fun v => s.reaches who ⟨.PLQ_CMD, q, 0⟩ v
    (p.st = .suspending → (s.bset n).run = some q → ∃ t, exec (.suspendComplete n) s = .next t ∧
      t.plq q = { x with older := some { handOver p with st := .suspended } } ∧ t = { s with ply := t.ply }) ∧
    (∀ f, p.st = .running → p.fault = some f → (s.bset n).run = some q → ∃ t, exec (.plyFaulted q false) s = .next t ∧
      t.plq q = { x with older := some { handOver p with st := .faulted }, cpl := x.cpl ++ [recOf p 2 f.cause f.instr f.lpos f.elem f.addr] } ∧
      (t.bset n).run = none ∧ t.fld F.PLQ_CNT_8 q = min (s.fld F.PLQ_CNT_8 q + 1) 255 ∧ t.mem = s.mem) ∧
    (p.st = .faulted → cmd 1 = true → (s.bset n).run = none → s.pinnedBusy n = false → ∃ t, exec (.resume who q) s = .next t ∧
      t.plq q = { x with older := some { p with fault := none, st := .running } } ∧ (t.bset n).run = some q ∧
      (∀ b ∈ s.setBeds n, (t.bed b).epoch = s.qEpoch q) ∧ t = { s with ply := t.ply }) ∧
    (p.st = .faulted → p.lives = [] → cmd 2 = true → ∃ t, exec (.abort who q) s = .next t ∧ (t.plq q).older = none ∧
      (t.plq q).cpl = x.cpl ++ [recOf p 4 0 0 0 0 0] ∧ (t.plq q).wait = x.wait ∧ t.mem = s.mem) ∧
    (p.st ≠ .faulted → (cmd 1 = true → exec (.resume who q) s = .next s) ∧ (cmd 2 = true → exec (.abort who q) s = .next s)) ∧
    (p.st = .running → p.lives = [] → p.deferred = [] → p.fault = none → p.waitOld = false → (∀ k, k < p.prog.length → slotFin p k = true) →
      ∃ t, exec (.plyRetire q) s = .next t ∧ (t.plq q).older = none ∧ (t.plq q).cpl = x.cpl ++ [recOf p 0 0 0 0 0 0] ∧
        (t.plq q).ended = some p ∧ t.fld F.PLQ_CNT_16 q = min (s.fld F.PLQ_CNT_16 q + 1) 65535 ∧ t.mem = s.mem) ∧
    (p.st ≠ .running ∨ p.lives ≠ [] ∨ (∃ k, k < p.prog.length ∧ slotFin p k = false) → exec (.plyRetire q) s = .next s) ∧
    (s.readsOut who ⟨.PLQ_CPL, q, 7⟩ = true → ∃ t, exec (.completionPop who q) s = .next t ∧
      t.plq q = { x with cpl := x.cpl.drop 1, stopped := false } ∧ t.regs = s.regs ∧ t.mem = s.mem)

/-- Watchdogs, epochs and requests of beds (R142, R158, R164, R167, R221): an instruction watchdog faults the lowest open position with
cause 5; RAISE advances the epoch modulo 65,536; a returning line request leaves the window and is discarded under an older epoch; an
instruction held by an overlap issues once the earlier one has finished; a bed goes on when its speculation buffer has room. -/
def Obligations.BedRequestsAndEpochs : Prop :=
  ∀ (s : State) (who : Who) (q n b k : Nat) (e : Half) (p : Inst) (a : SI), q < 64 → n < 64 → b < 136 → k < 32 → s.setOf q = some n →
    s.inst q false = some p → s.instLive n q p = true → p.lives = [] →
    let out := s.fld F.BED_STAT_OUTST b
    let pos := ((List.range p.b).find? fun x => decide (doneAt p k x < slotLen p k x)).getD 0
    (k ∈ p.issued → slotFin p k = false → ∃ t, exec (.instructionWatchdog q false k) s = .next t ∧
      t.inst q false = some { p with fault := some ⟨5, k, pos, prgOf p k pos, 0⟩ } ∧ t.tally.get 0x13 0 = s.tally.get 0x13 0 + 1 ∧
      t = { s with ply := t.ply, tally := t.tally }) ∧
    (k ∉ p.issued → exec (.instructionWatchdog q false k) s = .next s) ∧
    (s.mayPut who F.PLQ_BIND_RAISE 1 q 0 = true → ∃ t, exec (.epochRaise who q) s = .next t ∧
      t.fld F.PLQ_BIND_EPOCH q = (s.fld F.PLQ_BIND_EPOCH q + 1) % 65536 ∧ t.setOf q = s.setOf q ∧
      (∀ r, r ≠ ⟨.PLQ_BIND, q, 0⟩ → t.reg r = s.reg r) ∧ t = { s with regs := t.regs }) ∧
    (0 < out → (s.bed b).epoch = e → exec (.bedRequestReturn b e) s = .next (s.setFld F.BED_STAT_OUTST (out - 1) b)) ∧
    (0 < out → (s.bed b).epoch ≠ e → s.pair F.BED_STALE_LO F.BED_STALE_HI + 1 < 2 ^ 64 →
      ∃ t, exec (.bedRequestReturn b e) s = .next t ∧ t.fld F.BED_STAT_OUTST b = out - 1 ∧
        t.pair F.BED_STALE_LO F.BED_STALE_HI = s.pair F.BED_STALE_LO F.BED_STALE_HI + 1 ∧ t = { s with regs := t.regs }) ∧
    (a.q = q → a.young = false → a.slot < p.prog.length →
      (slotReady p a.slot = true → ∃ t, exec (.hazardWaitEnd a) s = .next t ∧ t.inst q false = some (markIssued p a.slot) ∧
        t = { s with ply := t.ply }) ∧
      (slotReady p a.slot = false → exec (.hazardWaitEnd a) s = .next s)) ∧
    ((∀ m ∈ s.queuesOf (s.fld F.BED_CTRL_SET b), (s.heldLines m (s.fld F.BED_CTRL_LPOS b)).length < 768) →
      exec (.specBufferFree b) s = .next (s.setFld F.BED_STAT_SPECFULL 0 b)) ∧
    ((∃ m ∈ s.queuesOf (s.fld F.BED_CTRL_SET b), 768 ≤ (s.heldLines m (s.fld F.BED_CTRL_LPOS b)).length) →
      exec (.specBufferFree b) s = .next s)

/-- Migration (R21, R235 to R238): the queue's epoch is raised, the old bed is fenced out of its set and the standby bed takes its position
under the new epoch; the migration ends when the old bed has no request outstanding, or by its drain timeout, which resets that bed; a
gauge swap does the same in a set with nothing in flight, and nothing in a set with something in flight. -/
def Sys2Proof.Claims.Migration : Prop :=
  ∀ (s : State) (who : Who) (q n lpos old nb : Nat), q < 64 → n < 64 → lpos < 128 → old < 136 → nb < 136 → s.queuesOf n = [q] →
    ((s.setBeds n).find? fun b => s.fld F.BED_CTRL_LPOS b == lpos) = some old → (s.bset n).run = none →
    (∀ b, (s.bed b).toWait = none ∧ (s.bed b).entry = none) →
    let idle := (s.plq q).older = none ∧ (s.plq q).younger = none
    let epoch := (s.fld F.PLQ_BIND_EPOCH q + 1) % 65536
    let moved := fun (t : State) => t.fld F.PLQ_BIND_EPOCH q = epoch ∧ t.flag F.BED_CTRL_EN old = false ∧ t.flag F.BED_CTRL_EN nb = true ∧
      t.flag F.BED_CTRL_STANDBY nb = false ∧ t.fld F.BED_CTRL_LPOS nb = lpos ∧ nb ∈ t.setBeds n ∧
      (∀ b ∈ t.setBeds n, (t.bed b).epoch.toNat = epoch) ∧ t.mem = s.mem
    let gone := fun (t : State) (q' : Nat) => (t.bset n).mig = none ∧ t.flag F.PLQ_MIG_BUSY q' = false ∧ t.mem = s.mem
    let v := BitVec.ofNat 32 (2 ^ 31 + nb * 2 ^ 16 + lpos)
    (s.reaches who ⟨.PLQ_MIG, q, 0⟩ v = true → idle →
      ((s.bset n).mig = none → s.flag F.BED_CTRL_EN nb = true → s.flag F.BED_CTRL_STANDBY nb = true → s.fld F.BED_CTRL_SET nb = n →
        ∃ t, exec (.migrationGo who q lpos nb) s = .next t ∧ moved t ∧ t.flag F.PLQ_MIG_BUSY q = true ∧ t.flag F.BED_STAT_FENCED old = true ∧
          (t.bset n).mig = some ⟨q, lpos, old, nb, false⟩) ∧
      ((s.bset n).mig ≠ none ∨ s.flag F.BED_CTRL_EN nb = false ∨ s.fld F.BED_CTRL_SET nb ≠ n →
        ∃ t, exec (.migrationGo who q lpos nb) s = .next t ∧ (∀ r, r ≠ ⟨.PLQ_MIG, q, 0⟩ → t.reg r = s.reg r) ∧
          t = { s with regs := t.regs })) ∧
    (∀ m, (s.bset n).mig = some m → m.old < 136 →
      (s.fld F.BED_STAT_OUTST m.old = 0 → ∃ t, exec (.migrationDrainEnd n) s = .next t ∧ gone t m.q ∧ t.flag F.BED_STAT_FENCED m.old = false) ∧
      (s.fld F.BED_STAT_OUTST m.old ≠ 0 → exec (.migrationDrainEnd n) s = .next s) ∧
      (∃ t, exec (.migrationDrainTimeout n) s = .next t ∧ gone t m.q ∧ t.flag F.BED_STAT_FENCED m.old = false ∧
        t.fld F.BED_STAT_OUTST m.old = 0 ∧ t.flag F.PLQ_MIG_DRAINTO m.q = true ∧ t.tally.get 0x13 0 = s.tally.get 0x13 0 + 1)) ∧
    ((s.bset n).mig = none → s.spareBed n = some nb →
      (idle → ∃ t, exec (.gaugeSwap n lpos) s = .next t ∧ moved t ∧ (t.bed old).swapped = true ∧ (t.bset n).mig = none) ∧
      (∀ p, (s.plq q).older = some p → p.st ≠ .armed → exec (.gaugeSwap n lpos) s = .next s))

/-- Bind-off of queues and channels (R30, R108, R240 to R242): EN 0 posts the waiting entries as ABORTED; the bind-off ends when no instance
is left, with a waiting change of owner under a new epoch, and its timeout cuts the instance with a CUT record at its lowest open
element; a channel's bind-off starts that of its ingest and marks its pinned queues. -/
def Sys2Proof.Claims.QueueAndChannelBindoff : Prop :=
  ∀ (s : State) (who : Who) (q n : Nat), q < 64 → n < 16 → (s.ich (s.pinChan q)).feed = [] → (∀ m, (s.chan m).st ≠ .bindoff) →
    let x := s.plq q
    (s.mayPut who F.PLQ_CTRL_EN 0 q 0 = true → s.flag F.PLQ_CTRL_EN q = true → s.qBindoff q = false → x.older = none → x.younger = none →
      x.wait.length + x.cpl.length ≤ 32 → ∃ t, exec (.queueBindoff who q) s = .next t ∧ t.flag F.PLQ_CTRL_EN q = true ∧
        t.qBindoff q = true ∧ (t.plq q).wait = [] ∧
        (t.plq q).cpl = x.cpl ++ x.wait.map (fun e => (⟨e.cookie, 4, 0, 0, 0, 0, 0, 0⟩ : Cpl)) ∧ t.mem = s.mem) ∧
    (s.qBindoff q = true → x.older = none → x.younger = none → x.newBind = none → x.entry = none →
      ∃ t, exec (.queueBindoffEnd q) s = .next t ∧ t.qBindoff q = false ∧ t.flag F.PLQ_CTRL_EN q = false ∧
        t.plq q = { x with newOwner := none } ∧ t.setOf q = s.setOf q ∧
        (x.newOwner = none → t.fld F.PLQ_CTRL_OWNER q = s.fld F.PLQ_CTRL_OWNER q ∧ t.fld F.PLQ_BIND_EPOCH q = s.fld F.PLQ_BIND_EPOCH q) ∧
        (∀ o, x.newOwner = some o → t.flag F.PLQ_CTRL_OWNER q = o ∧ t.fld F.PLQ_BIND_EPOCH q = (s.fld F.PLQ_BIND_EPOCH q + 1) % 65536) ∧
        t = { s with regs := t.regs, ply := t.ply }) ∧
    (s.qBindoff q = false ∨ x.older ≠ none → exec (.queueBindoffEnd q) s = .next s) ∧
    (∀ p, s.qBindoff q = true → x.older = some p → x.younger = none → p.lives = [] → p.fault = none → p.pinned = false →
      x.cpl.length < 32 → ∃ t, exec (.bindoffCut q) s = .next t ∧ (t.plq q).older = none ∧
        (let o := lowestOpen (handOver p)
         (t.plq q).cpl = x.cpl ++ [recOf (handOver p) 3 0 o.1 o.2.1 o.2.2 0]) ∧
        (t.plq q).ended = some (handOver p) ∧ t.tally.get 0x13 0 = s.tally.get 0x13 0 + 1 ∧ t.mem = s.mem) ∧
    (s.qBindoff q = false ∨ (x.older = none ∧ x.younger = none) → exec (.bindoffCut q) s = .next s) ∧
    (s.leaderBusy n = false → (s.chan n).st = .run → s.flag F.CXP_CH_ISTAT_RUN n = true → ∃ t, exec (.channelBindoff n) s = .next t ∧
      t.chan n = { s.chan n with st := .bindoff } ∧ t.flag F.CXP_CH_ISTAT_RUN n = false ∧ t.flag F.CXP_CH_ISTAT_BINDOFF n = true ∧
      (∀ m ∈ s.pinnedQueues n, (t.plq m).bindAfter = true) ∧ (∀ m, m ≠ n → t.chan m = s.chan m) ∧
      t = { s with regs := t.regs, web := t.web, ply := t.ply }) ∧
    (s.leaderBusy n = true ∨ (s.chan n).st ≠ .run → exec (.channelBindoff n) s = .next s)

/-! ### Stream instructions (R157 to R217) -/

/-- The data instructions that produce an element of D from the elements of their sources, by opcode (R177). -/
def Sys2Proof.Claims.plainOps : List (Nat × (SI → Instr)) :=
  [(0x01, .streamMov), (0x02, .cvt), (0x03, .gath), (0x04, .scat), (0x05, .lut), (0x10, .streamAdd), (0x11, .streamSub),
   (0x12, .streamMul), (0x13, .streamMulh), (0x14, .streamFma), (0x15, .streamFms), (0x16, .streamFnma), (0x17, .streamMin),
   (0x18, .streamMax), (0x19, .streamAbs), (0x1A, .streamNeg), (0x1B, .absd), (0x1C, .dot4), (0x1D, .clamp), (0x30, .streamDiv),
   (0x31, .streamRem), (0x32, .sqrt), (0x40, .streamAnd), (0x41, .streamOr), (0x42, .streamXor), (0x43, .streamAndn),
   (0x44, .streamNot), (0x45, .streamShl), (0x46, .streamShr), (0x47, .streamSar), (0x48, .streamRol), (0x49, .streamRor),
   (0x4A, .streamPopc), (0x4B, .streamClz), (0x50, .streamCmp), (0x51, .cmpr), (0x52, .sel), (0x70, .convw), (0x71, .convc)]

/-- The combining instructions, by opcode (R188 to R195). -/
def Sys2Proof.Claims.combOps : List (Nat × (SI → Instr)) :=
  [(0x60, .rsum), (0x61, .rmin), (0x62, .rmax), (0x63, .rminx), (0x64, .rmaxx), (0x65, .rany), (0x66, .rall), (0x67, .rcnt),
   (0x68, .scan), (0x6A, .cmps), (0x6B, .expd), (0x6C, .hist), (0x6D, .rle)]

/-- A stream instruction that may step: its instance `p` of queue `a.q` runs on set `n`, holds opcode `opc` at the slot, nothing before
it holds it back, no lifeline is open, and the beds of the position have room and carry the present epoch (R158, R164, R236). -/
structure Sys2Proof.Claims.StreamReady (s : State) (opc : Nat) (a : SI) (n : Nat) (p : Inst) : Prop where
  inst : s.inst a.q a.young = some p
  older : a.young = false ∧ (s.plq a.q).younger = none
  set : s.setOf a.q = some n ∧ s.setBeds n ≠ []
  slot : a.slot < p.prog.length ∧ (slotIns p a.slot).opc = opc ∧ a.pos < p.b ∧ a.n = 1
  live : s.instLive n a.q p = true ∧ slotReady p a.slot = true ∧ isProducer p.prog p.sk a.slot = false
  open_ : p.lives = [] ∧ p.deferred = []
  beds : ∀ b ∈ s.bedsFor n p a.pos, s.fld F.BED_STAT_OUTST b < 256 ∧ (s.bed b).epoch = s.qEpoch a.q

/-- The bytes of one write lie in the stash. -/
def Sys2Proof.Claims.inStash (w : Nat × List Byte) : Prop := stashBase ≤ w.1 ∧ w.1 + w.2.length ≤ stashBase + stashSize ∧ w.2 ≠ []

/-- One element of any of these instructions: an active element is written to its place in D and nowhere else, its flags become sticky and
the progress register of the position advances by one; an inactive one writes nothing and counts as committed (R173); a faulting one
writes nothing and stops the instance with its cause (R150, R183); an instruction that may not issue does nothing. -/
def Obligations.StreamElements : Prop :=
  ∀ (opc : Nat) (cmd : SI → Instr), (opc, cmd) ∈ plainOps → ∀ (s : State) (a : SI) (n : Nat) (p : Inst), StreamReady s opc a n p →
    memWf s.mem = true →
    let k := a.slot
    let pos := a.pos
    let u := s.updInst a.q false fun p => markIssued p k
    let p' := markIssued p k
    let e := rangeElem p.split p.b (insShape p (slotIns p k)).nw (insShape p (slotIns p k)).nc pos (doneAt p k pos)
    let after := fun (t : State) (q : Inst) => exec (cmd a) s = .next t ∧ t.inst a.q false = some q
    doneAt p k pos < slotLen p k pos →
    (∀ m f l v fl lines w, u.activeAt p' pos k e = .ok (m + 1) f l → u.evalSlot p' pos 32 k e = .ok v fl lines →
      u.destWrite p' pos k (slotIns p k).dst e v = .ok w → inStash w →
      ∃ t q, after t q ∧ t.peekN w.1 w.2.length = w.2 ∧ (∀ x, x < w.1 ∨ w.1 + w.2.length ≤ x → t.peek x = s.peek x) ∧
        doneAt q k pos = doneAt p k pos + 1 ∧ q.flags = p.flags ||| fl ∧ q.fault = none ∧ t.web = s.web) ∧
    (∀ f l v fl lines, u.activeAt p' pos k e = .ok 0 f l → u.evalSlot p' pos 32 k e = .ok v fl lines →
      ∃ t q, after t q ∧ t.mem = s.mem ∧ doneAt q k pos = doneAt p k pos + 1 ∧ q.flags = p.flags ||| fl) ∧
    (∀ m f l cause slot addr fl, u.activeAt p' pos k e = .ok m f l → u.evalSlot p' pos 32 k e = .fault cause slot addr fl →
      ∃ t q, after t q ∧ t.mem = s.mem ∧ doneAt q k pos = doneAt p k pos ∧ q.flags = p.flags ||| fl ∧ ∃ x : SFault,
        q.fault = some x ∧ x.cause = cause ∧ x.instr = slot ∧ x.lpos = pos ∧ x.addr = addr)

/-- Readiness and chains, for every data instruction: what may not issue does nothing (R158, R143); a producer of a chain issues its chain
and leaves the elements to the chain's end (R209); with no enabled bed left in the set the instance faults with cause 8 (R163). -/
def Obligations.StreamIssue : Prop :=
  ∀ (opc : Nat) (cmd : SI → Instr), (opc, cmd) ∈ plainOps ++ combOps ++ [(0x78, .mark)] → ∀ (s : State) (a : SI) (n : Nat) (p : Inst),
    s.inst a.q a.young = some p → s.setOf a.q = some n →
    let fits := a.slot < p.prog.length ∧ (slotIns p a.slot).opc = opc ∧ a.pos < p.b
    let may := fits ∧ s.instLive n a.q p = true ∧ slotReady p a.slot = true
    (¬ may → exec (cmd a) s = .next s) ∧
    (may → s.setBeds n ≠ [] → isProducer p.prog p.sk a.slot = true →
      exec (cmd a) s = .next (s.updInst a.q a.young fun p => markIssued p a.slot)) ∧
    (may → s.setBeds n = [] → p.lives = [] → ∃ t, exec (cmd a) s = .next t ∧
      t.inst a.q a.young = some { p with fault := some ⟨8, a.slot, a.pos, prgOf p a.slot a.pos, 0⟩ } ∧ t.mem = s.mem)

/-- Combining instructions (R188, R192 to R195): an element that does not end its segment joins the bed's part of the segment, its own
writes land, and the progress register stands until the hand-over. MARK (R13, R199 to R201): an active element of a firmware queue
enters the output event of its wale and is committed with MOVF as the scheduler answered; one of a host queue faults with cause 6 and
enters none; an inactive element is committed without an event. -/
def Obligations.StreamCombinesAndMarks : Prop :=
  (∀ (opc : Nat) (cmd : SI → Instr), (opc, cmd) ∈ combOps → ∀ (s : State) (a : SI) (n : Nat) (p : Inst), StreamReady s opc a n p →
    memWf s.mem = true →
    let k := a.slot
    let pos := a.pos
    let u := s.updInst a.q false fun p => markIssued p k
    let p' := markIssued p k
    let d := insShape p (slotIns p k)
    let c := doneAt p k pos + partAt p k pos
    let elem := fun x => rangeElem p.split p.b d.nw d.nc pos x
    let seg := fun x => segOf p.split p.b d.nw d.nc (elem x)
    let carries := opc = 0x68 ∨ opc = 0x6A ∨ opc = 0x6B ∨ opc = 0x6D
    c + 1 < slotLen p k pos → seg (c + 1) = seg c → (0 < partAt p k pos → seg c = seg (c - 1)) →
    tooFar p' k pos (elem c / d.nw) = false → (carries → partAt p k pos = 0 → carryReady p' k pos (elem c / d.nw) = true) →
    (∀ j, u.scanNotes p' pos k j = []) →
    (∀ x f1 l1 ws f2 l2 w, u.combTake p' pos k (elem c) = .ok (x, f1, l1) → u.combDirect p' pos k (elem c) x = .ok (ws, f2, l2) →
      u.destWrites p' pos k ws = .ok w → (w = [] ∨ ∃ y, w = [y] ∧ inStash y) →
      ∃ t q, exec (cmd a) s = .next t ∧ t.inst a.q false = some q ∧ doneAt q k pos = doneAt p k pos ∧
        partAt q k pos = partAt p k pos + 1 ∧ q.comb.get (k * 128 + pos) [] = p.comb.get (k * 128 + pos) [] ++ [x] ∧
        q.flags = p.flags ||| f1 ||| f2 ∧ (w = [] → t.mem = s.mem) ∧
        (∀ y, w = [y] → t.peekN y.1 y.2.length = y.2 ∧ ∀ z, z < y.1 ∨ y.1 + y.2.length ≤ z → t.peek z = s.peek z)) ∧
    (∀ cause slot addr fl, u.combTake p' pos k (elem c) = .error (.fault cause slot addr fl) →
      ∃ t q, exec (cmd a) s = .next t ∧ t.inst a.q false = some q ∧ t.mem = s.mem ∧ doneAt q k pos = doneAt p k pos ∧
        ∃ x : SFault, q.fault = some x ∧ x.cause = cause ∧ x.instr = slot ∧ x.addr = addr)) ∧
  (∀ (s : State) (a : SI) (n : Nat) (p : Inst), StreamReady s 0x78 a n p →
    let k := a.slot
    let pos := a.pos
    let u := s.updInst a.q false fun p => markIssued p k
    let p' := markIssued p k
    let i := slotIns p k
    let A := p.sk.getD i.sa default
    let e := rangeElem p.split p.b (insShape p i).nw (insShape p i).nc pos (doneAt p k pos)
    doneAt p k pos < slotLen p k pos → (∀ j, u.scanNotes p' pos k j = []) →
    (∀ l, u.markWale p' pos k e = .ok (none, l) → ∃ t q, exec (.mark a) s = .next t ∧ t.inst a.q false = some q ∧
      doneAt q k pos = doneAt p k pos + 1 ∧ t.web = s.web ∧ t.mem = s.mem) ∧
    (∀ w l, u.markWale p' pos k e = .ok (some w, l) → s.flag F.PLQ_CTRL_OWNER a.q = true → ∃ t q, exec (.mark a) s = .next t ∧
      t.inst a.q false = some q ∧ doneAt q k pos = doneAt p k pos ∧ t.web = s.web ∧ t.mem = s.mem ∧
      ∃ x : SFault, q.fault = some x ∧ x.cause = 6 ∧ x.instr = k ∧ x.lpos = pos) ∧
    (∀ w l, u.markWale p' pos k e = .ok (some w, l) → s.flag F.PLQ_CTRL_OWNER a.q = false →
      let o := i.imm % 64 + min (bitsOf i.imm 12 6 - 1) (w / bitsOf i.imm 31 16)
      let row : Int := (p.row0.toNat : Int) + (if A.shape = 2 then A.rbias else 0) + (e / A.nw : Nat)
      ∀ at_, 0 ≤ row → u.rowWeb (s.fld F.TIO_OUT_CTRL_CHAN o) row.toNat = some at_ →
        let ev : OutEv := ⟨.pos, at_ + s.fld F.TIO_OUT_STATION o + floorDiv ((w : Int) * signedOf 32 (s.fld F.TIO_OUT_SKEW o)) 1000,
          BitVec.ofNat 32 w, [.set, .clear, .pulse, .window].getD (bitsOf i.imm 14 13) .set, BitVec.ofNat 32 (bitsOf i.imm 63 32),
          false, 0, s.qEpoch a.q, 0, .ply a.q⟩
        let r := u.present o ev (s.qEpoch a.q)
        ∃ t q, exec (.mark a) s = .next t ∧ t.inst a.q false = some q ∧ t.web = r.2.web ∧ t.mem = s.mem ∧
          doneAt q k pos = doneAt p k pos + 1 ∧ q.flags = p.flags ||| (64 * b2n r.1.movf)))

/-- Integer results of beds and hook cores (R245 to R251), at every width: the exact result wrapped or clamped, with V where it lies
outside the type; division truncates toward zero; shift counts of the width or more; rotates; counts of bits; and the combining
operations on integer types: RSUM is the sum modulo the width, RMIN and RMAX the extreme, RCNT, RANY and RALL their counts and HIST's
bins saturate (R189, R190, R194). -/
def Sys2Proof.Claims.IntegerResults : Prop :=
  ∀ (sg : Bool) (w a b n : Nat), w ∈ [8, 16, 32, 64] → a < 2 ^ w → b < 2 ^ w →
    let x := toI sg w a
    let y := toI sg w b
    let out := fun (z : Int) => z < minI sg w ∨ maxI sg w < z
    let right := fun (sat : Bool) (r : Nat × Nat) (z : Int) => r.1 < 2 ^ w ∧ (r.2 = fV ↔ out z) ∧ (r.2 = 0 ↔ ¬ out z) ∧
      (¬ out z → toI sg w r.1 = z) ∧ (sat = false → ((r.1 : Int) - z) % (2 ^ w : Nat) = 0) ∧
      (sat = true → toI sg w r.1 = max (minI sg w) (min (maxI sg w) z))
    (∀ sat, right sat (addI sat sg w a b) (x + y) ∧ right sat (subI sat sg w a b) (x - y) ∧ right sat (mulI sat sg w a b) (x * y) ∧
      right sat (negI sat sg w a) (-x) ∧ right sat (absI sat sg w a) x.natAbs ∧ (b ≠ 0 → right sat (divI sat sg w a b) (x.tdiv y))) ∧
    (b ≠ 0 → toI sg w (remI sg w a b).1 = x.tmod y ∧ ((remI sg w a b).2 = fV ↔ sg = true ∧ x = minI sg w ∧ y = -1)) ∧
    (b = 0 → remI sg w a b = (a, fDZ) ∧ ∀ sat, (divI sat sg w a b).2 = fDZ ∧ toI sg w (divI sat sg w a b).1 =
      if x < 0 then minI sg w else maxI sg w) ∧
    (toI sg w (mulhI sg w a b) * (2 ^ w : Nat) ≤ x * y ∧ x * y < (toI sg w (mulhI sg w a b) + 1) * (2 ^ w : Nat)) ∧
    (toI sg w (minOfI sg w a b) = min x y ∧ toI sg w (maxOfI sg w a b) = max x y) ∧
    (n < w → shlI w a n = a * 2 ^ n % 2 ^ w ∧ shrI w a n = a / 2 ^ n) ∧ (w ≤ n → shlI w a n = 0 ∧ shrI w a n = 0) ∧
    toI true w (sarI w a n) = Int.fdiv (toI true w a) ((2 ^ n : Nat) : Int) ∧
    (rorI w (rolI w a n) n = a ∧ ∀ k, k < w → (rolI w a n).testBit ((k + n) % w) = a.testBit k) ∧
    (popcI w a = ((List.range w).filter fun k => a.testBit k).length) ∧
    (a = 0 → clzI w a = w) ∧ (a ≠ 0 → 2 ^ (w - 1 - clzI w a) ≤ a ∧ a < 2 ^ (w - clzI w a)) ∧
    (∀ (c : FCtl) (t : Nat) (lane : Nat → Nat) (seg : Nat → Nat × Nat × Nat) (xs : List CElem), tyIsI t = true → tyW t = w →
      (∀ e, lane e < 32) → (∀ z ∈ xs, ∀ v, z.val = some v → v < 2 ^ w) →
      let vals := xs.filterMap (·.val)
      (reduceVal c 0 t lane seg xs).1 % 2 ^ w = vals.sum % 2 ^ w ∧
      (vals ≠ [] → (reduceVal c 1 t lane seg xs).1 ∈ vals ∧
        ∀ v ∈ vals, toI (tySigned t) w (reduceVal c 1 t lane seg xs).1 ≤ toI (tySigned t) w v) ∧
      (vals ≠ [] → (reduceVal c 2 t lane seg xs).1 ∈ vals ∧
        ∀ v ∈ vals, toI (tySigned t) w v ≤ toI (tySigned t) w (reduceVal c 2 t lane seg xs).1) ∧
      (vals = [] → reduceVal c 0 t lane seg xs = (0, 0) ∧ toI (tySigned t) w (reduceVal c 1 t lane seg xs).1 = maxI (tySigned t) w ∧
        toI (tySigned t) w (reduceVal c 2 t lane seg xs).1 = minI (tySigned t) w)) ∧
    histAdd w a n = (min (a + n) (2 ^ w - 1), if a + n < 2 ^ w then 0 else fV)

/-- A control instruction that may issue: `p` runs on set `n` as the only instance of queue `a.q`, holds `opc` at the slot, and what must
come before it has finished (R205, R217). -/
structure Sys2Proof.Claims.CtlReady (s : State) (opc : Nat) (a : SI) (n : Nat) (p : Inst) : Prop where
  inst : s.inst a.q false = some p
  only : a.young = false ∧ (s.plq a.q).younger = none
  set : s.setOf a.q = some n ∧ s.setBeds n ≠ []
  slot : a.slot < p.prog.length ∧ (slotIns p a.slot).opc = opc
  live : s.instLive n a.q p = true ∧ slotFin p a.slot = false ∧ orderOk p a.slot = true

/-- Control instructions (R203 to R206, R217 to R231): LIFE opens a lifeline under the set's serial; COMMIT, and RESOLV of a value other
than 0, let the held write land, FROG, and RESOLV of 0, drop it and return the scope to its start; BRC skips to its target, waits, or
follows its likely side under a lifeline; SYNC is a barrier, a release or an acquire; WROW writes the status of its row. -/
def Obligations.StreamControl : Prop :=
  ∀ (opc : Nat) (s : State) (a : SI) (n : Nat) (p : Inst), CtlReady s opc a n p → memWf s.mem = true → p.deferred = [] →
    let k := a.slot
    let i := slotIns p k
    let u := s.updInst a.q false fun p => { p with issued := setAdd p.issued k }
    let ends := fun (c : Instr) (t : State) (q : Inst) => exec c s = .next t ∧ t.inst a.q false = some q ∧ k ∈ q.fin
    let lands := fun (t : State) (w : Nat × List Byte) => t.peekN w.1 w.2.length = w.2 ∧
      ∀ x, x < w.1 ∨ w.1 + w.2.length ≤ x → t.peek x = s.peek x
    let commits := fun (c : Instr) => ∀ l h, p.lives = [l] → l.kind = .life → p.held = [h] → h.life = l.id → inStash (h.addr, h.bytes) →
      ∃ t q, ends c t q ∧ q.lives = [] ∧ q.held = [] ∧ lands t (h.addr, h.bytes) ∧
        t.fld F.PLQ_SCNT_24 a.q = min (s.fld F.PLQ_SCNT_24 a.q + 1) 255
    let frogs := fun (c : Instr) => ∀ l, p.lives = [l] → l.kind = .life → (∀ h ∈ p.held, h.life = l.id) →
      ∃ t q, ends c t q ∧ q.lives = [] ∧ q.held = [] ∧ t.mem = s.mem ∧ q.flags = l.snap.flags ∧
        (∀ j, l.slot < j → j < k → j ∈ q.skipped) ∧ t.fld F.PLQ_SCNT_16 a.q = min (s.fld F.PLQ_SCNT_16 a.q + 1) 255
    let writes := fun (c : Instr) (v : Nat) => ∀ w, p.lives = [] → u.destWrite p 0 k i.dst 0 v = .ok w → inStash w →
      ∃ t q, ends c t q ∧ lands t w
    let acquires := fun (c : Instr) => ∀ v f l, hazard p k = false → u.ctlRead p k = .ok v f l →
      (i.imm ≤ v → ∃ t q, ends c t q ∧ t.mem = s.mem) ∧ (v < i.imm → exec c s = .next u)
    let waitsRow := fun (c : Instr) => hazard p k = false →
      let row := (p.row0.toNat : Int) + signedOf 64 i.imm
      (u.rowStatus (i.aux % 16) row = none → exec c s = .next u) ∧
      (∀ v, u.rowStatus (i.aux % 16) row = some (v, u) → writes c v)
    (opc = 0x80 → u.openLives n < 4 → ∃ t q, ends (.life a) t q ∧ q.lives = p.lives ++ [⟨BitVec.ofNat 16 (n * 1024 + (s.bset n).serial),
      .life, k, ⟨p.done, p.comb, p.fin, p.skipped, p.flags⟩, false⟩] ∧ (t.bset n).serial = ((s.bset n).serial + 1) % 1024 ∧
      t = { s with ply := t.ply }) ∧
    (opc = 0x80 → 4 ≤ u.openLives n → exec (.life a) s = .next u) ∧
    (opc = 0x81 → commits (.commit a)) ∧ (opc = 0x82 → frogs (.frog a)) ∧
    (opc = 0x83 → ∀ v f l, p.lives.length = 1 → u.ctlRead { p with lives := [] } k = .ok v f l →
      (v ≠ 0 → commits (.resolv a)) ∧ (v = 0 → frogs (.resolv a))) ∧
    (opc = 0x84 → ∀ v f l, hazard p k = false → u.ctlRead p k = .ok v f l → ∃ t q, ends (.brc a) t q ∧ t.mem = s.mem ∧
      q.lives = p.lives ∧ ((decide (v ≠ 0) != i.md.testBit 0) = true → ∀ j, k < j → j < i.aux → j ∈ q.skipped) ∧
      ((decide (v ≠ 0) != i.md.testBit 0) = false → q.skipped = p.skipped)) ∧
    (opc = 0x84 → hazard p k = true → optRaBranch p.entry = false → exec (.brc a) s = .next u) ∧
    (opc = 0x84 → hazard p k = true → optRaBranch p.entry = true → u.openLives n < 4 → ∃ t q, ends (.brc a) t q ∧ t.mem = s.mem ∧
      ∃ l : Life, q.lives = p.lives ++ [l] ∧ l.kind = .branch ∧ l.slot = k ∧ l.took = i.md.testBit 1) ∧
    (∀ l v f x, p.lives = [l] → l.kind = .branch → hazard p l.slot = false → p.held = [] → s.ctlRead p l.slot = .ok v f x → a.q < 64 →
      ∃ t q, exec (.branchLifelineResolve a.q false) s = .next t ∧ t.inst a.q false = some q ∧ q.lives = [] ∧ t.mem = s.mem ∧
        let taken := decide (v ≠ 0) != (slotIns p l.slot).md.testBit 0
        (taken = l.took → q.skipped = p.skipped) ∧
        (taken ≠ l.took → l.slot ∈ q.fin ∧ (taken = true → ∀ j, l.slot < j → j < (slotIns p l.slot).aux → j ∈ q.skipped))) ∧
    (opc = 0x85 → i.md = 0 → ∃ t q, ends (.sync a) t q ∧ t = { s with ply := t.ply }) ∧
    (opc = 0x85 → i.md = 1 → writes (.sync a) i.imm) ∧
    (opc = 0x85 → i.md = 2 → acquires (.sync a) ∧ acquires (.syncAcquireMet a)) ∧
    (opc = 0x86 → waitsRow (.wrow a) ∧ waitsRow (.wrowRowReady a))

/-! ### Hook instructions (R276 to R348) -/

/-- Integer instructions of a hook thread that can issue (R245 to R252, R304, R314, R315): the destination register takes the low bits of
the result, the bits above the size 0, N and Z follow the stored result, C and V as R252 gives them, and nothing else of the thread
changes but PCAP and its wait states; MIN, MAX and MULH leave C open (DESIGN CHOICE, notes/assumptions/60.md, 61.md); with DZT a zero divisor sets DZ,
writes nothing else and raises vector 8; a reserved byte string raises vector 3 with nothing written. -/
def Sys2Proof.Claims.HookIntegers : Prop :=
  ∀ (s : State) (a : HI) (z : Sz) (rd ra rb n cc : Nat) (imm : DWord), HookReady s a →
    let w := z.bits
    let x0 := (s.th a.core a.thr).issued a
    let low := fun v => v % 2 ^ w
    let sig := signedOf w
    let outOf := fun (v : Int) => decide (v < -(2 ^ (w - 1) : Nat) ∨ (2 ^ (w - 1) : Nat) ≤ v)
    let sets := fun (c : Instr) (f : Thread → IRes) => exec c s = .next (s.issue a fun x => putI x w rd (f x))
    let two := fun (c : HI → Sz → Nat → Nat → Nat → Instr) (f : Nat → Nat → IRes) => sets (c a z rd ra rb) fun x => f (x.g ra) (x.g rb)
    let open2 := fun (c : HI → Sz → Nat → Nat → Nat → Instr) (f : Nat → Nat → Nat) => ∃ carry,
      exec (c a z rd ra rb) s =
        .next { s.issue a (fun x => putI x w rd ⟨f (x.g ra) (x.g rb), carry, false, 0⟩) with free := s.free + 1 }
    let one := fun (c : HI → Sz → Nat → Nat → Instr) (f : Nat → IRes) => sets (c a z rd ra) fun x => f (x.g ra)
    let byImm := fun (c : HI → Sz → Nat → Nat → DWord → Instr) (f : Nat → IRes) => sets (c a z rd ra imm) fun x => f (x.g ra)
    let byCount := fun (c : HI → Sz → Nat → Nat → Nat → Instr) (f : Nat → IRes) => sets (c a z rd ra n) fun x => f (x.g ra)
    let add := fun u v => (⟨u + v, decide (2 ^ w ≤ low u + low v), outOf (sig u + sig v), 0⟩ : IRes)
    let sub := fun u v => (⟨u + 2 ^ 64 - low v, decide (low u < low v), outOf (sig u - sig v), 0⟩ : IRes)
    let mul := fun u v => (⟨u * v, decide (2 ^ w ≤ low u * low v), outOf (sig u * sig v), 0⟩ : IRes)
    let plain := fun r => (⟨r, false, false, 0⟩ : IRes)
    let sat := fun (p : Nat × Nat) c => (⟨p.1, c, p.2 == fV, 0⟩ : IRes)
    let shl := fun u k => (⟨shlI w u k, decide (1 ≤ k ∧ k ≤ w) && (low u).testBit (w - k), false, 0⟩ : IRes)
    let shr := fun u k => (⟨shrI w u k, decide (1 ≤ k ∧ k ≤ w) && (low u).testBit (k - 1), false, 0⟩ : IRes)
    let sar := fun u k => (⟨sarI w u k, decide (1 ≤ k) && (low u).testBit (min k w - 1), false, 0⟩ : IRes)
    two .hAdd add ∧ two .hSub sub ∧ two .hMul mul ∧ two .hAnd (fun u v => plain (u &&& v)) ∧ two .hOr (fun u v => plain (u ||| v)) ∧
    two .hXor (fun u v => plain (u ^^^ v)) ∧ two .hAndn (fun u v => plain (u &&& (2 ^ w - 1 - low v))) ∧ two .hShl shl ∧ two .hShr shr ∧
    two .hSar sar ∧ two .hRol (fun u v => plain (rolI w u v)) ∧ two .hRor (fun u v => plain (rorI w u v)) ∧
    two .hQadd (fun u v => sat (addI true true w u v) (decide (2 ^ w ≤ low u + low v))) ∧
    two .hQaddu (fun u v => sat (addI true false w u v) (decide (2 ^ w ≤ low u + low v))) ∧
    two .hQsub (fun u v => sat (subI true true w u v) (decide (low u < low v))) ∧
    two .hQsubu (fun u v => sat (subI true false w u v) (decide (low u < low v))) ∧
    two .hQmul (fun u v => sat (mulI true true w u v) (decide (2 ^ w ≤ low u * low v))) ∧
    two .hQmulu (fun u v => sat (mulI true false w u v) (decide (2 ^ w ≤ low u * low v))) ∧
    open2 .hMulh (mulhI true w) ∧ open2 .hMulhu (mulhI false w) ∧ open2 .hMin (minOfI true w) ∧ open2 .hMax (maxOfI true w) ∧
    open2 .hMinu (minOfI false w) ∧ open2 .hMaxu (maxOfI false w) ∧
    one .hNeg (fun u => ⟨2 ^ 64 - low u, decide (low u ≠ 0), decide (sig u = minI true w), 0⟩) ∧
    one .hAbs (fun u => ⟨(sig u).natAbs, false, decide (sig u = minI true w), 0⟩) ∧
    one .hPopc (fun u => plain (popcI w u)) ∧ one .hClz (fun u => plain (clzI w u)) ∧
    one .hQneg (fun u => sat (negI true true w u) (decide (low u ≠ 0))) ∧
    one .hQnegu (fun u => sat (negI true false w u) (decide (low u ≠ 0))) ∧ one .hQabs (fun u => sat (absI true true w u) false) ∧
    byImm .hAddi (fun u => add u imm.toNat) ∧ byImm .hMuli (fun u => mul u imm.toNat) ∧ byImm .hAndi (fun u => plain (u &&& imm.toNat)) ∧
    byImm .hOri (fun u => plain (u ||| imm.toNat)) ∧ byImm .hXori (fun u => plain (u ^^^ imm.toNat)) ∧
    byCount .hShli (fun u => shl u n) ∧ byCount .hShri (fun u => shr u n) ∧ byCount .hSari (fun u => sar u n) ∧
    byCount .hRoli (fun u => plain (rolI w u n)) ∧ byCount .hRori (fun u => plain (rorI w u n)) ∧
    (∀ c, c ∈ [(Instr.hDiv, fun u v => divI false true w u v), (Instr.hDivu, fun u v => divI false false w u v),
        (Instr.hQdiv, fun u v => divI true true w u v), (Instr.hRem, fun u v => remI true w u v), (Instr.hRemu, fun u v => remI false w u v)] →
      (low (x0.g rb) ≠ 0 ∨ x0.sbit 19 = false → sets (c.1 a z rd ra rb) fun x =>
        ⟨(c.2 (x.g ra) (x.g rb)).1, false, (c.2 (x.g ra) (x.g rb)).2 == fV, if low (x.g rb) = 0 then fDZ else 0⟩) ∧
      (low (x0.g rb) = 0 → x0.sbit 19 = true → x0.lvl ≠ 8 → exec (c.1 a z rd ra rb) s = .next (s.setTh a.core a.thr
        { x0.sticky fDZ with pcap := (s.th a.core a.thr).pcap
                             fault := some ⟨8, 0, 0, capAddr x0.pcap - a.len, 0, a.slotB, false, false⟩ }))) ∧
    exec (.hCmp a z ra rb) s = .next (s.issue a fun x => x.setNZCV ((low (x.g ra + 2 ^ 64 - low (x.g rb))).testBit (w - 1))
      (decide (low (x.g ra) = low (x.g rb))) (decide (low (x.g ra) < low (x.g rb))) (outOf (sig (x.g ra) - sig (x.g rb)))) ∧
    exec (.hCmpi a z ra imm) s = .next (s.issue a fun x => x.setNZCV ((low (x.g ra + 2 ^ 64 - low imm.toNat)).testBit (w - 1))
      (decide (low (x.g ra) = low imm.toNat)) (decide (low (x.g ra) < low imm.toNat)) (outOf (sig (x.g ra) - sig imm.toNat))) ∧
    exec (.hNot a z rd ra) s = .next (s.issue a fun x => x.setG rd (2 ^ w - 1 - low (x.g ra))) ∧
    exec (.hMovi a z rd imm) s = .next (s.issue a fun x => x.setG rd (low imm.toNat)) ∧
    exec (.hCsel a z rd ra rb cc) s = .next (s.issue a fun x => x.setG rd (low (if condHolds x cc then x.g ra else x.g rb))) ∧
    exec (.hSext a z rd ra) s = .next (s.issue a fun x => x.setG rd (BitVec.ofInt 64 (sig (x.g ra))).toNat) ∧
    exec (.hZext a z rd ra) s = .next (s.issue a fun x => x.setG rd (low (x.g ra))) ∧
    exec (.hNop a) s = .next (s.issue a id) ∧
    (x0.lvl ≠ 8 → exec (.undefinedInstruction a) s = .next (s.setTh a.core a.thr { x0 with
      pcap := (s.th a.core a.thr).pcap, fault := some ⟨3, 0, 0, capAddr x0.pcap - a.len, 0, a.slotB, false, false⟩ }))

/-- MOV between register classes and the packed-decimal instructions (R254 to R257, R304, R314, R372): a copy within the thread, an f
register's group marked dirty; valid operands give the exact sum or difference in 15 digits and a sign, with N, Z and V; an invalid one
sets D and writes nothing else, and with DT raises vector 9. -/
def Sys2Proof.Claims.HookMovesAndDecimal : Prop :=
  ∀ (s : State) (a : HI) (d n rd ra rb : Nat), HookReady s a → (s.th a.core a.thr).sbit 22 = false →
    let t0 := s.th a.core a.thr
    let x0 := t0.issued a
    let moves := fun (k : MovKind) (f : Thread → Thread) => exec (.hMov a k d n) s = .next (s.issue a f)
    let fills := fun (k : MovKind) (v : Nat) => d < 32 → ∃ t, exec (.hMov a k d n) s = .next t ∧ (t.th a.core a.thr).f d = v % 2 ^ 64 ∧
      (∀ j, j < 32 → j ≠ d → (t.th a.core a.thr).f j = t0.f j) ∧
      (t.fld F.HKC_T_FPST_DIRTY a.core a.thr).testBit (d / 4) = true ∧
      { t.th a.core a.thr with vec := x0.vec } = x0 ∧ t = { s with regs := t.regs, hook := t.hook }
    let decimal := fun (c : HI → Nat → Nat → Nat → Instr) (f : Int → Int → Int) =>
      let v := f (pdVal (x0.g ra)) (pdVal (x0.g rb))
      (pdValid (x0.g ra) = true → pdValid (x0.g rb) = true → ∃ r, exec (c a rd ra rb) s = .next (s.issue a fun x =>
          (x.setG rd r).setNZCV (decide (v < 0)) (decide (v.natAbs % 10 ^ 15 = 0)) false (decide (10 ^ 15 ≤ v.natAbs))) ∧
        r % 16 = (if v < 0 then 13 else 12) ∧ pdMag 15 (r / 16) = v.natAbs % 10 ^ 15 ∧ r < 2 ^ 64 ∧ pdValid r = true) ∧
      (pdValid (x0.g ra) = false ∨ pdValid (x0.g rb) = false → x0.sbit 20 = false →
        exec (c a rd ra rb) s = .next (s.issue a fun x => x.setSbits 13 13 1)) ∧
      (pdValid (x0.g ra) = false ∨ pdValid (x0.g rb) = false → x0.sbit 20 = true → x0.lvl ≠ 8 →
        exec (c a rd ra rb) s = .next (s.setTh a.core a.thr { x0.setSbits 13 13 1 with
          pcap := t0.pcap, fault := some ⟨9, 0, 0, capAddr x0.pcap - a.len, 0, a.slotB, false, false⟩ }))
    moves .gg (fun x => x.setG d (x.g n)) ∧ moves .gw (fun x => x.setG d (x.w n)) ∧ moves .wg (fun x => x.setW d (x.g n)) ∧
    moves .gf (fun x => x.setG d (x.f n)) ∧ moves .cc (fun x => x.setC d (x.c n)) ∧
    fills .fg (x0.g n) ∧ fills .ff (x0.f n) ∧ decimal .hPdadd (· + ·) ∧ decimal .hPdsub (· - ·)


/-- What an instruction that writes an f register leaves: f`d` holds `v`, the other f registers and the bits of the vectors above them
are as they were, the rest of the thread is `x`, the group is marked dirty, and nothing else of the machine has changed (R304, R365,
R372). -/
def Sys2Proof.Claims.writesF (s t : State) (a : HI) (d v : Nat) (x : Thread) : Prop :=
  t = { s.setTh a.core a.thr (t.th a.core a.thr) with regs := t.regs } ∧
  (t.th a.core a.thr).f d = v ∧ (∀ j, j < 32 → j ≠ d → (t.th a.core a.thr).f j = (s.th a.core a.thr).f j) ∧
  (∀ k, (t.th a.core a.thr).v k / 2 ^ 256 = (s.th a.core a.thr).v k / 2 ^ 256) ∧
  { t.th a.core a.thr with vec := (s.th a.core a.thr).vec } = x ∧
  t.fld F.HKC_T_FPST_DIRTY a.core a.thr = s.fld F.HKC_T_FPST_DIRTY a.core a.thr ||| 2 ^ (d / 4) ∧
  ∀ r, r ≠ ⟨.HKC_T_FPST, a.core, a.thr⟩ → t.reg r = s.reg r

/-- Floating-point instructions of a thread that can issue (R252, R259, R268 to R273, R304, R314, R316, R365, R374): each completes with
the format's result in its f register, 0 above it, and ORs its flags into the sticky bits; comparisons set Z for equal, N for less, C
for greater and V for unordered; conversions to integers write a g register. With FU set each raises vector 12 and executes nothing. -/
def Obligations.HookFloats : Prop :=
  ∀ (s : State) (a : HI) (m g : Fmt) (z : Sz) (d fa fb fc ra mode : Nat) (sg sat : Bool), HookReady s a → d < 32 →
    let t0 := s.th a.core a.thr
    let x0 := t0.issued a
    let c := x0.fctl
    let val := fun (m : Fmt) (i : Nat) => x0.f i % 2 ^ Fmt_w m
    let refuses := fun (c : Instr) => t0.sbit 22 = true → t0.lvl ≠ 8 → exec c s = .next (s.setTh a.core a.thr { t0 with
      waits := t0.waits + a.waits, fault := some ⟨12, 0, 0, capAddr t0.pcap, 0, a.slotB, false, false⟩ })
    let puts := fun (i : Instr) (r : Nat × Nat) => refuses i ∧ (t0.sbit 22 = false →
      ∃ t, exec i s = .next t ∧ writesF s t a d (r.1 % 2 ^ Fmt_w m) (x0.sticky r.2))
    let compares := fun (i : Instr) (signal : Bool) => refuses i ∧ (t0.sbit 22 = false → exec i s = .next (s.issue a fun x =>
      let o := cmpF c m (val m fa) (val m fb)
      (x.setNZCV (o == .lt) (o == .eq) (o == .gt) (o == .un)).sticky
        (if isSNaN m (val m fa) ∨ isSNaN m (val m fb) ∨ (signal = true ∧ (isNaN m (val m fa) ∨ isNaN m (val m fb))) then fNV else 0)))
    puts (.hFadd a m d fa fb) (addF c m (val m fa) (val m fb)) ∧ puts (.hFsub a m d fa fb) (subF c m (val m fa) (val m fb)) ∧
    puts (.hFmul a m d fa fb) (mulF c m (val m fa) (val m fb)) ∧ puts (.hFdiv a m d fa fb) (divF c m (val m fa) (val m fb)) ∧
    puts (.hFsqrt a m d fa) (sqrtF c m (val m fa)) ∧
    puts (.hFma a m d fa fb fc) (fmaF c m false false (val m fa) (val m fb) (val m fc)) ∧
    puts (.hFms a m d fa fb fc) (fmaF c m false true (val m fa) (val m fb) (val m fc)) ∧
    puts (.hFnma a m d fa fb fc) (fmaF c m true false (val m fa) (val m fb) (val m fc)) ∧
    puts (.hFmin a m d fa fb) (minmaxF false c m (val m fa) (val m fb)) ∧
    puts (.hFmax a m d fa fb) (minmaxF true c m (val m fa) (val m fb)) ∧
    puts (.hFcvt a m d fa g) (cvtFF c g m (val g fa)) ∧ puts (.hIcvtf a m d ra z sg) (cvtIF c m (toI sg z.bits (x0.g ra))) ∧
    puts (.hFsgn a m d fa mode) (if mode = 1 then negF m (val m fa) else if mode = 2 then absF m (val m fa) else val m fa, 0) ∧
    compares (.hFcmp a m fa fb) false ∧ compares (.hFcmps a m fa fb) true ∧
    refuses (.hFcvti a ra fa g z sg sat) ∧ (t0.sbit 22 = false → exec (.hFcvti a ra fa g z sg sat) s = .next (s.issue a fun x =>
      (x.setG ra ((cvtFI c g sat sg z.bits (val g fa)).1 % 2 ^ z.bits)).sticky (cvtFI c g sat sg z.bits (val g fa)).2))

/-- What the binary formats deliver (R262 to R273), for beds and hook cores: NaN operands and invalid operations, division by zero,
infinities of overflow by rounding mode, exact zeros, signs, comparisons, and conversions to integers. -/
def Sys2Proof.Claims.FloatingResults : Prop :=
  ∀ (c : FCtl) (f : Fmt) (x y : Nat), c.rm < 5 → x < 2 ^ Fmt_w f → y < 2 ^ Fmt_w f → c.daz = false →
    let nan := fun b => isNaN f b = true
    let inf := fun sg => infBits f sg
    let zero := fun sg => signBit f sg
    let finite := fun b => fExp f b ≠ 2 ^ Fmt_e f - 1
    (∀ op, op ∈ [addF c f, subF c f, mulF c f, divF c f] →
      (nan x → op x y = (quiet f x, if isSNaN f x ∨ isSNaN f y then fNV else 0)) ∧
      (¬ nan x → nan y → op x y = (quiet f y, if isSNaN f y then fNV else 0))) ∧
    (∀ n p, (nan x ∨ nan y → (minmaxF n c f x y).2 = if isSNaN f x ∨ isSNaN f y then fNV else 0) ∧
      (nan x → ¬ nan y → (minmaxF n c f x y).1 = y) ∧ (¬ nan x → nan y → (minmaxF n c f x y).1 = x) ∧
      (nan y → fmaF c f p n 0 (inf false) y = (quiet f y, if isSNaN f y then fNV else 0)) ∧
      (¬ nan y → fmaF c f p n 0 (inf false) y = (defNaN f, fNV))) ∧
    (∀ s1 s2, addF c f (inf s1) (inf s2) = (if s1 = s2 then (inf s1, 0) else (defNaN f, fNV)) ∧
      divF c f (inf s1) (inf s2) = (defNaN f, fNV) ∧ divF c f (zero s1) (zero s2) = (defNaN f, fNV) ∧
      mulF c f (zero s1) (inf s2) = (defNaN f, fNV) ∧ mulF c f (inf s1) (inf s2) = (inf (s1 != s2), 0) ∧
      addF c f (zero s1) (zero s2) = (zero (if s1 = s2 then s1 else decide (c.rm = 2)), 0) ∧
      (finite x → divF c f x (inf s2) = (zero (fSign f x != s2), 0)) ∧
      (finite x → x ≠ zero true → x ≠ 0 → divF c f x (zero s2) = (inf (fSign f x != s2), fDZ)) ∧
      (s1 = true → sqrtF c f (inf s1) = (defNaN f, fNV)) ∧ sqrtF c f (zero s1) = (zero s1, 0)) ∧
    (finite x → subF c f x x = (zero (decide (c.rm = 2)), 0)) ∧
    (finite x → c.ftz = false → addF c f x 0 = (if x = zero true then zero (decide (c.rm = 2)) else x, 0)) ∧
    (∀ sg, mulF c f (maxBits f sg) (maxBits f false) =
      (if c.rm = 1 ∨ (c.rm = 2 ∧ sg = false) ∨ (c.rm = 3 ∧ sg = true) then maxBits f sg else inf sg, fOF ||| fNX)) ∧
    (cmpF c f x y = .un ↔ nan x ∨ nan y) ∧ (¬ nan x → cmpF c f x x = .eq) ∧ (cmpF c f x y = .lt ↔ cmpF c f y x = .gt) ∧
    (∀ sg w, w ∈ [8, 16, 32, 64] →
      (nan x → (cvtFI c f true sg w x) = (0, fNV) ∧ (cvtFI c f false sg w x).2 = fNV) ∧
      cvtFI c f true sg w (inf false) = (wrapI w (maxI sg w), fNV) ∧ cvtFI c f true sg w (inf true) = (wrapI w (minI sg w), fNV) ∧
      (∀ v, v ∈ [inf false, inf true] ∨ (nan x ∧ v = x) →
        cvtFI c f false sg w v = (if sg then 2 ^ (w - 1) else 2 ^ w - 1, fNV)))

/-- A register-vector instruction of a thread that can issue (R365 to R368, R372, R374): every element of the low VL bits as the scalar
operation computes it, the bits above VL kept, the flags of all elements ORed into the sticky bits, N, Z, C and V unchanged; with DZT a
zero element divisor raises vector 8 with nothing written. -/
def Obligations.RegisterVectors : Prop :=
  ∀ (s : State) (a : HI) (op : VOp) (z : Sz) (vl : VLen) (vd va vb vc : Nat), HookReady s a → (s.th a.core a.thr).sbit 22 = false →
    vd < 8 →
    let t0 := s.th a.core a.thr
    let x0 := t0.issued a
    let n := vl.bits / z.bits
    let el := fun (k e : Nat) => x0.v k / 2 ^ (z.bits * e) % 2 ^ z.bits
    let r := fun (e : Nat) => vElem x0.fctl op z (el va e) (el vb e) (el vc e)
    let traps := op ∈ [VOp.div, .divu, .rem, .remu] ∧ x0.sbit 19 = true ∧ ∃ e, e < n ∧ el vb e = 0
    (¬ traps → ∃ t, exec (.registerVectorInstruction a op z vl vd va vb vc) s = .next t ∧
      t = { s.setTh a.core a.thr (t.th a.core a.thr) with regs := t.regs } ∧
      (∀ e, e < n → (t.th a.core a.thr).v vd / 2 ^ (z.bits * e) % 2 ^ z.bits = (r e).1 % 2 ^ z.bits) ∧
      (t.th a.core a.thr).v vd / 2 ^ vl.bits = t0.v vd / 2 ^ vl.bits ∧ (∀ k, k ≠ vd → (t.th a.core a.thr).v k = t0.v k) ∧
      (∀ j, j < 5 → ((t.th a.core a.thr).sbit (8 + j) = true ↔ x0.sbit (8 + j) = true ∨ ∃ e, e < n ∧ (r e).2.testBit j = true)) ∧
      (t.th a.core a.thr).stat ||| 0x1F00 = x0.stat ||| 0x1F00 ∧
      { t.th a.core a.thr with vec := x0.vec, stat := x0.stat } = x0 ∧
      t.fld F.HKC_T_FPST_DIRTY a.core a.thr = s.fld F.HKC_T_FPST_DIRTY a.core a.thr ||| 2 ^ vd ∧
      ∀ q, q ≠ ⟨.HKC_T_FPST, a.core, a.thr⟩ → t.reg q = s.reg q) ∧
    (traps → x0.lvl ≠ 8 → exec (.registerVectorInstruction a op z vl vd va vb vc) s = .next (s.setTh a.core a.thr
      { x0 with pcap := t0.pcap, fault := some ⟨8, 0, 0, capAddr x0.pcap - a.len, 0, a.slotB, false, false⟩ }))

/-- Capability instructions and LEA of a thread that can issue (R310, R337, R338): none faults; what each reads or derives, and when the
result keeps its tag; LEA writes back its base register (R307). No result widens bounds or adds a permission. -/
def Obligations.CapabilityInstructions : Prop :=
  ∀ (s : State) (a : HI) (d cs ct rg : Nat) (m : MOp), HookReady s a →
    let x0 := (s.th a.core a.thr).issued a
    let sets := fun (i : Instr) (f : Thread → Thread) => exec i s = .next (s.issue a f)
    let c := x0.c cs
    let k := x0.c ct
    let ok := fun (c : CapV) => c.tag = true ∧ capOtype c = 0
    let within := fun (r : CapV) => r.tag = true →
      c.tag = true ∧ capBase c ≤ capBase r ∧ capTop r ≤ capTop c ∧ capPerms r &&& capPerms c = capPerms r
    let derives := fun (i : Instr) (P : CapV → Prop) => ∃ r, exec i s = .next (s.issue a fun x => x.setC d r) ∧ within r ∧ P r
    let moves := fun (v : Nat) (r : CapV) => capAddr r = v % 2 ^ 64 ∧ r.bits.toNat / 2 ^ 64 = c.bits.toNat / 2 ^ 64 ∧
      (r.tag = true ↔ ok c ∧ capRepr c v = true)
    let sameBounds := fun (r : CapV) => capAddr r = capAddr c ∧ capE r = capE c ∧ capP r = capP c ∧ capB r = capB c ∧ capLen r = capLen c
    sets (.hCgeta a d cs) (fun x => x.setG d (capAddr c)) ∧ sets (.hCgetb a d cs) (fun x => x.setG d (capBase c)) ∧
    sets (.hCgetl a d cs) (fun x => x.setG d (capTop c - capBase c)) ∧ sets (.hCgetp a d cs) (fun x => x.setG d (capPerms c)) ∧
    sets (.hCgett a d cs) (fun x => x.setG d (if c.tag then 1 else 0)) ∧
    derives (.hCseta a d cs rg) (moves (x0.g rg)) ∧ derives (.hCinc a d cs rg) (moves (capAddr c + x0.g rg)) ∧
    derives (.hCsetb a d cs rg) (fun r => capAddr r = capAddr c ∧
      (r.tag = true → capPerms r = capPerms c ∧ capBase r ≤ capAddr c ∧ capAddr c + x0.g rg ≤ capTop r ∧ capE r ≤ 37 ∧
        capBase r % 2 ^ capE r = 0 ∧ capLen r ≤ 65535 ∧ (∀ e, e < capE r →
          65535 < (capAddr c + x0.g rg + 2 ^ e - 1) / 2 ^ e - capAddr c / 2 ^ e))) ∧
    derives (.hCandp a d cs rg) (fun r => sameBounds r ∧ capOtype r = capOtype c ∧ capPerms r = capPerms c &&& (x0.g rg % 8192) ∧
      (r.tag = true ↔ ok c)) ∧
    derives (.hCseal a d cs ct) (fun r => sameBounds r ∧ capPerms r = capPerms c ∧ capOtype r = capAddr k % 4096 ∧
      (r.tag = true ↔ ok c ∧ ok k ∧ (capPerms k).testBit pSeal = true ∧ capBase k ≤ capAddr k ∧ capAddr k < capTop k ∧
        1 ≤ capAddr k ∧ capAddr k ≤ 0xFFF)) ∧
    derives (.hCunseal a d cs ct) (fun r => sameBounds r ∧ capPerms r = capPerms c ∧ capOtype r = 0 ∧
      (r.tag = true ↔ c.tag = true ∧ capOtype c ≠ 0 ∧ ok k ∧ (capPerms k).testBit pUnseal = true ∧ capAddr k = capOtype c ∧
        capBase k ≤ capAddr k ∧ capAddr k < capTop k)) ∧
    derives (.hCclrt a d cs) (fun r => r.bits = c.bits ∧ r.tag = false) ∧
    sets (.hCtest a d cs ct) (fun x => x.setG d (if c.tag = true ∧ k.tag = true ∧ capOtype c = capOtype k ∧ capBase c ≤ capBase k ∧
      capTop k ≤ capTop c ∧ capPerms k &&& capPerms c = capPerms k then 1 else 0)) ∧
    sets (.hLea a d m) (fun x => (writeback x m 8).setC d (capSetAddr (x0.c m.cap) (eaOf x0 m 8))) ∧
    (let b := capAddr (x0.c m.cap)
     (m.form = .base → eaOf x0 m 8 = (b + m.disp.toNat) % 2 ^ 64 ∧ writeback x0 m 8 = x0) ∧
     (m.form = .index → eaOf x0 m 8 = (b + x0.g m.index * 2 ^ m.scale + m.disp.toNat) % 2 ^ 64 ∧ writeback x0 m 8 = x0) ∧
     (m.form = .postInc → eaOf x0 m 8 = b ∧ writeback x0 m 8 = x0.setC m.cap (capSetAddr (x0.c m.cap) (b + 8))) ∧
     (m.form = .preDec → eaOf x0 m 8 = (b + 2 ^ 64 - 8) % 2 ^ 64 ∧
      writeback x0 m 8 = x0.setC m.cap (capSetAddr (x0.c m.cap) (b + 2 ^ 64 - 8))))


/-- A memory access of a hook instruction that its thread can issue, before any byte moves (R308, R309, R311, R312, R339, R357, R401): the
first check that fails raises its fault at EA and nothing is written: vector 4 for an untagged (1), sealed (2), unpermitted (3) or
out-of-bounds (4) capability, vector 5 for a misaligned address or a control register not accessed as a word, vector 6 for a range that
does not accept the access. -/
def Obligations.MemoryChecks : Prop :=
  ∀ (s : State) (a : HI) (z : Sz) (vl : VLen) (d : Nat) (m : MOp) (imm : DWord), HookReady s a → (s.th a.core a.thr).sbit 22 = false →
    let t0 := s.th a.core a.thr
    let x0 := t0.issued a
    let cap := x0.c m.cap
    let perm := fun k => (capPerms cap).testBit k = true
    t0.lvl ≠ 8 →
    ∀ q ∈ [(Instr.hLd a z d m, z.bytes, [pLoad], none, false), (.hLds a z d m, z.bytes, [pLoad], none, false),
        (.hLdf a z d m, z.bytes, [pLoad], none, false), (.hLdc a d m, 16, [pLoad, pLoadCap], none, false),
        (.hLdv a vl d m, vl.bits / 8, [pLoad], none, true), (.hSt a z d m, z.bytes, [pStore], some (x0.g d % 2 ^ z.bits), false),
        (.hSti a z m imm, z.bytes, [pStore], some (imm.toNat % 2 ^ z.bits), false),
        (.hStf a z d m, z.bytes, [pStore], some (x0.f d % 2 ^ z.bits), false),
        (.hStc a d m, 16, [pStore, pStoreCap], some (x0.c d).bits.toNat, false),
        (.hStv a vl d m, vl.bits / 8, [pStore], some (x0.v d % 2 ^ vl.bits), true)],
      let n := q.2.1
      let ea := eaOf x0 m n
      let wr := q.2.2.2.1
      let faults := fun (vec code dt : Nat) => exec q.1 s = .next (s.setTh a.core a.thr
        { x0 with pcap := t0.pcap, fault := some ⟨vec, code, 0, ea, dt, a.slotB, false, false⟩ })
      let granted := cap.tag = true ∧ capOtype cap = 0 ∧ (∀ k ∈ q.2.2.1, perm k) ∧
        (∀ v, wr = some v → inCtrl ea = true → s.regDenied (BitVec.ofNat 13 (capPerms cap)) ea (BitVec.ofNat 32 v) = none)
      let bounded := capBase cap ≤ ea ∧ ea + n ≤ capTop cap
      let aligned := ea % n = 0 ∧ (inCtrl ea = true → n = 4 ∨ (wr ≠ none ∧ n = 16 ∧ plqCapAt ea = true)) ∧
        (q.2.2.2.2 = true → s.regionOf ea ≠ .rom)
      let accepted := s.regionOf ea ≠ .reserved ∧ s.regionOf (ea + n - 1) = s.regionOf ea ∧ (wr ≠ none → s.regionOf ea ≠ .rom) ∧
        (s.regionOf ea = .tcm → lifelineBad a.core a.thr t0.lvl ea = false) ∧
        (wr ≠ none → s.regionOf ea = .sram → s.inFwWindow ea n = false)
      (cap.tag = false → faults 4 1 0) ∧ (cap.tag = true → capOtype cap ≠ 0 → faults 4 2 0) ∧
      (cap.tag = true → capOtype cap = 0 → ∀ k ∈ q.2.2.1, ¬ perm k → (∀ j ∈ q.2.2.1, j < k → perm j) → faults 4 3 k) ∧
      (cap.tag = true → capOtype cap = 0 → (∀ k ∈ q.2.2.1, perm k) → ∀ v e, wr = some v → inCtrl ea = true →
        s.regDenied (BitVec.ofNat 13 (capPerms cap)) ea (BitVec.ofNat 32 v) = some e → faults 4 e.1 e.2) ∧
      (granted → ¬ bounded → faults 4 4 0) ∧ (granted → bounded → ¬ aligned → faults 5 0 0) ∧
      (granted → bounded → aligned → ¬ accepted → faults 6 0 0)

/-- Loads of a hook thread (R282, R284, R293, R304, R310 to R313, R345, R365, R369, R370, R373): a checked load of memory reads its bytes,
with the tag for LDC, each from the youngest buffered store or from memory; it is outstanding until its data arrives, poison becomes a
fault held at its level, and the register keeps its value until then; a load of a control register reads it once; CAS compares and
swaps; GATHV writes its vector from every element, or nothing. -/
def Sys2Proof.Claims.HookLoads : Prop :=
  ∀ (s : State) (a : HI) (z : Sz) (vl : VLen) (d rs vx k : Nat) (m : MOp) (l : HLoad), memWf s.mem = true →
    let t0 := s.th a.core a.thr
    let x0 := t0.issued a
    let cap := x0.c m.cap
    let at0 := capAddr x0.pcap - a.len
    let ordinary := fun ea => inCtrl ea = false
    (HookReady s a → t0.sbit 22 = false → t0.sb = [] →
      ∀ q ∈ [(Instr.hLd a z d m, z.bytes, [pLoad], x0.rg d, fun v : Nat => v),
          (.hLds a z d m, z.bytes, [pLoad], x0.rg d, fun v => (BitVec.ofInt 64 (signedOf z.bits v)).toNat),
          (.hLdf a z d m, z.bytes, [pLoad], .f d, fun v => v), (.hLdc a d m, 16, [pLoad, pLoadCap], x0.rc d, fun v => v),
          (.hLdv a vl d m, vl.bits / 8, [pLoad], .v d, fun v => v)],
        let n := q.2.1
        let ea := eaOf x0 m n
        s.accFault a.core a.thr ⟨cap, ea, n, q.2.2.1, none, q.2.2.2.1 == .v d, false⟩ = none →
        (ordinary ea → ∃ t, exec q.1 s = .next t ∧
          t.th a.core a.thr = { writeback x0 m n with loads := [⟨some q.2.2.2.1, x0.lvl, q.2.2.2.2 (s.peekNat ea n),
            decide (n = 16) && s.tagAt ea, 8 * n, if s.poisoned ea n then 7 else 0, ea, at0, true, false, a.slotB⟩] } ∧
          ∀ b, t.peek b = s.peek b ∧ t.tagAt b = s.tagAt b) ∧
        (¬ ordinary ea → ∀ r v u, Reg.ofAddr ea = some r →
          (s.setTh a.core a.thr x0).loadReg (.hook a.core a.thr (BitVec.ofNat 13 (capPerms cap))) r = (v, u) →
          exec q.1 s = .next (u.setTh a.core a.thr { writeback (u.th a.core a.thr) m n with
            loads := (u.th a.core a.thr).loads ++ [⟨some q.2.2.2.1, x0.lvl, q.2.2.2.2 v.toNat, false, 8 * n, 0, ea,
              capAddr (u.th a.core a.thr).pcap - a.len, true, true, a.slotB⟩] }))) ∧
    (eaOf t0 m 4 = ownFpst a.core a.thr → exec (.fpstRead a d m) s = exec (.hLd a .w d m) s) ∧
    (HookReady s a → let ea := eaOf x0 m z.bytes
      s.accFault a.core a.thr ⟨cap, ea, z.bytes, [pLoad], none, false, false⟩ = none → (capPerms cap).testBit pIdem = true →
      s.regionOf ea = .tcm ∨ s.regionOf ea = .sram → s.poisoned ea z.bytes = false →
      ∃ (t : State) (w : HLoad), exec (.hLd a z d m) s = .next t ∧ (t.th a.core a.thr).loads = [w] ∧ w.fault = 0 ∧
        (t.th a.core a.thr).sb = t0.sb ∧ ∀ i, i < z.bytes → w.val / 256 ^ i % 256 = ((fwdByte t0.sb (ea + i)).getD (s.peek (ea + i))).toNat) ∧
    (HookReady s a → let ea := eaOf x0 m z.bytes
      let old := s.peekNat ea z.bytes
      let hit := old = x0.g d % 2 ^ z.bits
      t0.sb = [] → s.accFault a.core a.thr ⟨cap, ea, z.bytes, [pLoad, pStore], some (x0.g rs % 2 ^ z.bits), false, true⟩ = none →
      s.poisoned ea z.bytes = false → ∃ (t : State) (w : HLoad), exec (.hCas a z d rs m) s = .next t ∧
        t.th a.core a.thr = { (writeback x0 m z.bytes).setSbits 5 5 (if hit then 1 else 0) with loads := [w] } ∧
        w.dest = some (x0.rg d) ∧ w.val = old ∧ w.fault = 0 ∧
        t.peekNat ea z.bytes = (if hit then x0.g rs % 2 ^ z.bits else old) ∧ (¬ hit → ∀ b, t.peek b = s.peek b)) ∧
    (s.coreLive a.core = true → a.thr < 4 → t0.loads[k]? = some l →
      let x := { t0 with loads := t0.loads.eraseIdx k }
      (l.slot = true → exec (.loadDataArrival a.core a.thr k) s = .next s) ∧
      (l.slot = false → l.fault = 0 → ∀ lv p, l.dest = some (.g lv p) → exec (.loadDataArrival a.core a.thr k) s =
        .next (s.setTh a.core a.thr (x.setBank lv ((x.bankOf lv).setReg p (BitVec.ofNat 64 l.val))))) ∧
      (l.slot = false → l.fault = 0 → ∀ lv p, l.dest = some (.c lv p) → exec (.loadDataArrival a.core a.thr k) s =
        .next (s.setTh a.core a.thr (x.setBank lv { x.bankOf lv with c := (x.bankOf lv).c.set p ⟨BitVec.ofNat 128 l.val, l.tag⟩ }))) ∧
      (l.slot = false → l.fault = 0 → ∀ i, i < 32 → l.dest = some (.f i) → ∃ t, exec (.loadDataArrival a.core a.thr k) s = .next t ∧
        (t.th a.core a.thr).f i = l.val % 2 ^ 64 ∧ { t.th a.core a.thr with vec := x.vec } = x) ∧
      (l.slot = false → l.fault = 0 → ∀ i, i < 8 → l.dest = some (.v i) → l.bits ≤ 4096 →
        ∃ t, exec (.loadDataArrival a.core a.thr k) s = .next t ∧ (t.th a.core a.thr).v i % 2 ^ l.bits = l.val % 2 ^ l.bits ∧
          (t.th a.core a.thr).v i / 2 ^ l.bits = t0.v i / 2 ^ l.bits) ∧
      (l.slot = false → l.fault ≠ 0 → ∃ t, exec (.loadDataArrival a.core a.thr k) s = .next t ∧
        ((t0.bankOf l.lvl).lf = none → ((t.th a.core a.thr).bankOf l.lvl).lf = some ⟨l.fault, l.addr, l.pc, false, l.slotB⟩) ∧
        (∀ f, (t0.bankOf l.lvl).lf = some f → ((t.th a.core a.thr).bankOf l.lvl).lf = some { f with multi := true }) ∧
        (t.th a.core a.thr).vec = t0.vec)) ∧
    (HookReady s a → t0.sbit 22 = false → t0.sb = [] → m.form = .base → d < 8 →
      let n := vl.bits / z.bits
      let idx := fun e => signedOf z.bits (x0.v vx / 2 ^ (z.bits * e) % 2 ^ z.bits)
      let ea := fun e => (BitVec.ofInt 64 ((capAddr cap + m.disp.toNat : Int) + idx e * (z.bytes : Nat))).toNat
      let passes := fun e => s.accFault a.core a.thr ⟨cap, ea e, z.bytes, [pLoad], none, false, false⟩ = none ∧ inCtrl (ea e) = false
      (capPerms cap).testBit pIdem = true →
      ((∀ e, e < n → passes e ∧ s.poisoned (ea e) z.bytes = false) → ∃ t, exec (.hGathv a z vl d m vx) s = .next t ∧
        (∀ e, e < n → (t.th a.core a.thr).v d / 2 ^ (z.bits * e) % 2 ^ z.bits = s.peekNat (ea e) z.bytes) ∧
        (t.th a.core a.thr).v d / 2 ^ vl.bits = t0.v d / 2 ^ vl.bits ∧ { t.th a.core a.thr with vec := x0.vec } = x0) ∧
      (∀ e ex, e < n → t0.lvl ≠ 8 → (∀ j, j < e → passes j ∧ s.poisoned (ea j) z.bytes = false) →
        s.accFault a.core a.thr ⟨cap, ea e, z.bytes, [pLoad], none, false, false⟩ = some ex →
        ∃ t, exec (.hGathv a z vl d m vx) s = .next t ∧ (t.th a.core a.thr).vec = t0.vec ∧ (t.th a.core a.thr).pcap = t0.pcap ∧
          ∃ g : Exc, (t.th a.core a.thr).fault = some g ∧ g.vec = ex.vec ∧ g.code = ex.code ∧ g.faddr = ea e ∧ g.detail = e)) ∧
    (HookReady s a → t0.sbit 22 = false → cap.tag = true → capOtype cap = 0 → (capPerms cap).testBit pLoad = true →
      (capPerms cap).testBit pIdem = false → m.form = .base → t0.lvl ≠ 8 → ∃ e : Exc, e.vec = 4 ∧ e.code = 3 ∧ e.detail = pIdem ∧
        exec (.hGathv a z vl d m vx) s = .next (s.setTh a.core a.thr { x0 with pcap := t0.pcap, fault := some e }))

/-- The load delay slot (R282 to R284): the instruction after a load, of one thread-cycle, reads the register as it was and its own
result stands over the loaded one; one of more thread-cycles, and every later instruction that touches the register, waits for the data;
an instruction that does not touch it leaves the load outstanding. -/
def Sys2Proof.Claims.LoadDelay : Prop :=
  ∀ (s : State) (a : HI) (rd ra rb k : Nat) (l : HLoad),
    let x := s.th a.core a.thr
    let bare := s.setTh a.core a.thr { x with loads := [] }
    let arrived := s.setTh a.core a.thr (({ x with loads := [] } : Thread).setG k l.val)
    HookReady bare a → x.loads = [l] → l.fault = 0 → l.dest = some (x.rg k) → rd < 32 → ra < 32 → rb < 32 → k < 32 →
      let touches := ra = k ∨ rb = k ∨ rd = k
      (l.slot = true → ∃ t, exec (.hAdd a .d rd ra rb) bare = .next t ∧ exec (.hAdd a .d rd ra rb) s = .next (t.setTh a.core a.thr
        { t.th a.core a.thr with loads := [{ l with slot := false, dest := if rd = k then none else l.dest }] })) ∧
      (l.slot = true → ra = k ∨ rb = k → exec (.hMul a .d rd ra rb) s = exec (.hMul a .d rd ra rb) arrived) ∧
      (l.slot = false → touches → exec (.hAdd a .d rd ra rb) s = exec (.hAdd a .d rd ra rb) arrived) ∧
      (l.slot = false → ¬ touches → ∃ t, exec (.hAdd a .d rd ra rb) bare = .next t ∧ exec (.hAdd a .d rd ra rb) s =
        .next (t.setTh a.core a.thr { t.th a.core a.thr with loads := [l] }))


/-- Stores of a hook thread and its store buffer (R292, R294, R304, R310, R311, R321, R369): a checked store enters the buffer, its bytes
standing over older ones, and memory keeps its value until the entry drains; a drained entry writes exactly its bytes, with its tag for
a whole capability; STV and the fences drain first, and STV writes its bytes past the buffer. -/
def Obligations.HookStores : Prop :=
  ∀ (s : State) (a : HI) (z : Sz) (vl : VLen) (d : Nat) (m : MOp) (imm : DWord), memWf s.mem = true →
    let t0 := s.th a.core a.thr
    let x0 := t0.issued a
    let cap := x0.c m.cap
    let plainAt := fun ea => s.regionOf ea = .tcm ∨ s.regionOf ea = .stash ∨ (s.regionOf ea = .sram ∧ s.flag F.MTX_REMAP_REMAP = false)
    (HookReady s a → t0.sbit 22 = false → (t0.sb.filter fun e => !e.frame).length < 8 →
      ∀ q ∈ [(Instr.hSt a z d m, z.bytes, [pStore], x0.g d % 2 ^ z.bits, false),
          (.hSti a z m imm, z.bytes, [pStore], imm.toNat % 2 ^ z.bits, false),
          (.hStf a z d m, z.bytes, [pStore], x0.f d % 2 ^ z.bits, false),
          (.hStc a d m, 16, [pStore, pStoreCap], (x0.c d).bits.toNat, (x0.c d).tag)],
        let n := q.2.1
        let ea := eaOf x0 m n
        let v := q.2.2.2.1
        s.accFault a.core a.thr ⟨cap, ea, n, q.2.2.1, some v, false, false⟩ = none →
        (inCtrl ea = false → ∃ t, exec q.1 s = .next t ∧ t.mem = s.mem ∧ { t.th a.core a.thr with sb := t0.sb } = writeback x0 m n ∧
          (∀ k, fwdByte (t.th a.core a.thr).sb k =
            if ea ≤ k ∧ k < ea + n then some (BitVec.ofNat 8 (v / 256 ^ (k - ea))) else fwdByte t0.sb k) ∧
          (n = 16 → ∃ e : SbEntry, (t.th a.core a.thr).sb.getLast? = some e ∧ e.addr = ea ∧ e.be = 0xFFFF ∧ e.tag = q.2.2.2.2)) ∧
        (inCtrl ea = true → n = 4 → ∃ t, exec q.1 s = .next t ∧ t.mem = s.mem ∧
          t.th a.core a.thr = { writeback x0 m n with sb := t0.sb ++ [⟨ea, BitVec.ofNat 128 v, 0xF, q.2.2.2.2, true,
            BitVec.ofNat 13 (capPerms cap), false, false⟩] })) ∧
    (HookReady s a → t0.sbit 22 = false → t0.sb = [] → let n := vl.bits / 8
      let ea := eaOf x0 m n
      s.accFault a.core a.thr ⟨cap, ea, n, [pStore], some (x0.v d % 2 ^ vl.bits), true, false⟩ = none → plainAt ea →
      ∃ t, exec (.hStv a vl d m) s = .next t ∧ t.th a.core a.thr = writeback x0 m n ∧
        ∀ k, t.peek k = if ea ≤ k ∧ k < ea + n then BitVec.ofNat 8 (x0.v d / 256 ^ (k - ea)) else s.peek k) ∧
    (s.coreLive a.core = true → a.thr < 4 → t0.sb = [] → exec (.storeBufferDrain a.core a.thr) s = .next s) ∧
    (∀ e rest, s.coreLive a.core = true → a.thr < 4 → t0.sb = e :: rest → e.ctrl = false → e.addr % 16 = 0 → plainAt e.addr →
      ∃ t, exec (.storeBufferDrain a.core a.thr) s = .next t ∧ t.th a.core a.thr = { t0 with sb := rest } ∧
        (∀ k, t.peek k = (SbEntry.byteFor e k).getD (s.peek k)) ∧
        (e.be ≠ 0 → t.tagAt e.addr = (e.tag && decide (e.be = 0xFFFF) && decide (s.regionOf e.addr ≠ .stash)))) ∧
    (∀ e rest, s.coreLive a.core = true → a.thr < 4 → t0.sb = e :: rest → e.ctrl = true → e.be ≠ 0xFFFF →
      (Reg.ofAddr e.addr).isSome = true → exec (.storeBufferDrain a.core a.thr) s =
        .next ((s.setTh a.core a.thr { t0 with sb := rest }).storeAddr (.hook a.core a.thr e.perms) e.addr
          (BitVec.ofNat 32 e.data.toNat))) ∧
    (HookReady s a → t0.sb = [] → exec (.hFence a) s = .next (s.issue a id) ∧ exec (.hIfence a) s = .next (s.issue a id)) ∧
    (∀ u, HookReady s a → (∀ e ∈ t0.sb, e.ctrl = false) → exec (.storeBufferDrain a.core a.thr) s = .next u →
      exec (.hFence a) s = exec (.hFence a) u ∧ exec (.hIfence a) s = exec (.hIfence a) u ∧
      ∃ t, exec (.hFence a) s = .next t ∧ t.th a.core a.thr = { x0 with sb := [] })


/-- Branches, calls and returns of a thread that can issue (R319, R320, R344, R363, R364): a transfer whose target passes its check
changes PCAP and nothing else but, for calls, c14, SSCAP and the 8 bytes stored; RET compares the stored address with c14; a failed
check raises its fault with PCAP and SSCAP unchanged. -/
def Obligations.HookBranches : Prop :=
  ∀ (s : State) (a : HI) (cc n : Nat) (rel : DWord), HookReady s a → memWf s.mem = true →
    let t0 := s.th a.core a.thr
    let x0 := t0.issued a
    let here := capAddr x0.pcap - a.len
    let target := (capAddr x0.pcap + rel.toNat) % 2 ^ 64
    let inside := fun (c : CapV) u => capBase c ≤ u ∧ u < capTop c
    let faults := fun (i : Instr) (vec code dt : Nat) => t0.lvl ≠ 8 → exec i s = .next (s.setTh a.core a.thr
      { x0 with pcap := t0.pcap, fault := some ⟨vec, code, 0, here, dt, a.slotB, false, false⟩ })
    let taken := fun (i : Instr) => (inside x0.pcap target →
        exec i s = .next (s.issue a fun x => { x with pcap := capSetAddr x0.pcap target })) ∧
      (¬ inside x0.pcap target → faults i 4 4 0)
    let passed := fun (i : Instr) => exec i s = .next (s.issue a id)
    let bit := fun k => x0.stat.toNat.testBit k
    let holds := [bit 5, !bit 5, bit 6, !bit 6, bit 4, !bit 4, bit 7, !bit 7, !bit 6 && !bit 5, bit 6 || bit 5, bit 4 != bit 7,
      bit 4 == bit 7, !bit 5 && bit 4 == bit 7, bit 5 || bit 4 != bit 7, true]
    let c := x0.c n
    let usable := c.tag = true ∧ capOtype c = 0 ∧ (capPerms c).testBit pExecute = true ∧ inside c (capAddr c)
    let refused := fun (i : Instr) => (c.tag = false → faults i 4 1 0) ∧ (c.tag = true → capOtype c ≠ 0 → faults i 4 2 0) ∧
      (c.tag = true → capOtype c = 0 → (capPerms c).testBit pExecute = false → faults i 4 3 pExecute) ∧
      (c.tag = true → capOtype c = 0 → (capPerms c).testBit pExecute = true → ¬ inside c (capAddr c) → faults i 4 4 0)
    let top := capAddr x0.sscap
    let pushes := fun (i : Instr) (p : CapV) => (8 ≤ top →
        s.accFault a.core a.thr ⟨x0.sscap, top - 8, 8, [pStore], some (capAddr x0.pcap), false, false⟩ = none →
        (t0.sb.filter fun e => !e.frame).length < 8 → ∃ t, exec i s = .next t ∧ t.mem = s.mem ∧
          { t.th a.core a.thr with sb := t0.sb } =
            { x0.setC 14 x0.pcap with sscap := capSetAddr x0.sscap (top - 8), pcap := p } ∧
          ∀ k, fwdByte (t.th a.core a.thr).sb k =
            if top - 8 ≤ k ∧ k < top then some (BitVec.ofNat 8 (capAddr x0.pcap / 256 ^ (k - (top - 8)))) else fwdByte t0.sb k) ∧
      (x0.sscap.tag = false → faults i 4 1 0)
    taken (.hBr a rel) ∧
    (cc < 15 → (holds.getD cc false = true → taken (.hBcc a cc rel)) ∧ (holds.getD cc false = false → passed (.hBcc a cc rel))) ∧
    (x0.g n = 0 → taken (.hCbz a n rel) ∧ passed (.hCbnz a n rel)) ∧ (x0.g n ≠ 0 → passed (.hCbz a n rel) ∧ taken (.hCbnz a n rel)) ∧
    (usable → exec (.hJr a n) s = .next (s.issue a fun x => { x with pcap := c })) ∧ refused (.hJr a n) ∧
    (inside x0.pcap target → pushes (.hCall a rel) (capSetAddr x0.pcap target)) ∧ (¬ inside x0.pcap target → faults (.hCall a rel) 4 4 0) ∧
    (usable → pushes (.hCallr a n) c) ∧ refused (.hCallr a n) ∧
    (t0.sb = [] → s.accFault a.core a.thr ⟨x0.sscap, top, 8, [pLoad], none, false, false⟩ = none → s.poisoned top 8 = false →
      let back := s.peekNat top 8
      let k := x0.c 14
      let good := back = capAddr k ∧ k.tag = true ∧ capOtype k = 0 ∧ (capPerms k).testBit pExecute = true
      (good → ∃ t, exec (.hRet a) s = .next t ∧
        t.th a.core a.thr = { x0 with sscap := capSetAddr x0.sscap (top + 8), pcap := k } ∧ ∀ b, t.peek b = s.peek b) ∧
      (¬ good → t0.lvl ≠ 8 → ∃ t, exec (.hRet a) s = .next t ∧ t.th a.core a.thr = { x0 with
        pcap := t0.pcap
        fault := some ⟨10, if back = capAddr k then 2 else 1, 0, back, capAddr k, a.slotB, false, false⟩ }))

/-- Register windows of a thread that can issue (R286 to R289, with WSPC aligned to 16 and the store buffer empty): below five resident
windows WOPEN only steps WP and RES, above one WCLOSE likewise; at the bounds the oldest window is stored at WSPC, or the caller's is
loaded from below it, WSPC moves by 128 and RES stays; a failed check escalates with ESC SPILL and leaves WP, RES and WSPC. -/
def Obligations.HookWindows : Prop :=
  ∀ (s : State) (a : HI), HookReady s a → memWf s.mem = true →
    let t0 := s.th a.core a.thr
    let x0 := t0.issued a
    let b := x0.bank
    let w := b.wspc
    let base := capAddr w
    let saved := fun (k i : Nat) => if i < 8 then 56 + 8 * ((k + 5) % 6) + i else 8 + 8 * k + (i - 8)
    (b.res < 5 → exec (.hWopen a) s = .next (s.issue a fun x => x.updBank fun b => { b with wp := (b.wp + 1) % 6, res := b.res + 1 })) ∧
    (1 < b.res → exec (.hWclose a) s = .next (s.issue a fun x => x.updBank fun b => { b with wp := (b.wp + 5) % 6, res := b.res - 1 })) ∧
    (5 ≤ b.res → t0.sb = [] → base % 16 = 0 → wspcFault w pStore base = none → (∀ i, i < 16 → ∀ v,
        s.accFault a.core a.thr ⟨w, base + 8 * i, 8, [pStore], some v, false, false⟩ = none) →
      ∃ t, exec (.hWopen a) s = .next t ∧ t.mem = s.mem ∧ { t.th a.core a.thr with sb := t0.sb } =
          x0.updBank (fun b => { b with wp := (b.wp + 1) % 6, wspc := capSetAddr w (base + 128) }) ∧
        ∀ i j, i < 16 → j < 8 → fwdByte (t.th a.core a.thr).sb (base + 8 * i + j) =
          some (BitVec.ofNat 8 ((b.reg (saved ((b.wp + 2) % 6) i)).toNat / 256 ^ j))) ∧
    (5 ≤ b.res → t0.lvl ≠ 8 → ∀ e, wspcFault w pStore base = some e → e.esc = 4 ∧ exec (.hWopen a) s =
      .next (s.setTh a.core a.thr { x0 with pcap := t0.pcap, esc := some { e with slotB := a.slotB } })) ∧
    (b.res ≤ 1 → let lo := (base + 2 ^ 64 - 128) % 2 ^ 64
      (t0.sb = [] → wspcFault w pLoad lo = none → (∀ i, i < 16 →
          s.accFault a.core a.thr ⟨w, lo + 8 * i, 8, [pLoad], none, false, false⟩ = none ∧ s.poisoned (lo + 8 * i) 8 = false) →
        ∃ t, exec (.hWclose a) s = .next t ∧ (∀ k, t.peek k = s.peek k) ∧
          let b' := (t.th a.core a.thr).bank
          b'.wp = (b.wp + 5) % 6 ∧ b'.res = b.res ∧ b'.wspc = capSetAddr w lo ∧ b'.c = b.c ∧
          (∀ i, i < 16 → (b'.reg (saved ((b.wp + 5) % 6) i)).toNat = s.peekNat (lo + 8 * i) 8) ∧
          (∀ p, (∀ i, i < 16 → p ≠ saved ((b.wp + 5) % 6) i) → b'.reg p = b.reg p)) ∧
      (t0.lvl ≠ 8 → ∀ e, wspcFault w pLoad lo = some e → e.esc = 4 ∧ exec (.hWclose a) s =
        .next (s.setTh a.core a.thr { x0 with pcap := t0.pcap, esc := some { e with slotB := a.slotB } })))

/-- System registers and gate calls of a thread that can issue (R321 to R323, R341, R358 to R362): MFS and MTS of each register, System
for all but PCAP and STAT (vector 4 with code 5 without it), the fields of STAT that MTS keeps; SCALL installs a valid gate and saves
the caller, SRET withdraws it; an invalid pair, a call within a gate and a return outside one fault with no effect. -/
def Obligations.SystemRegistersAndGates : Prop :=
  ∀ (s : State) (a : HI) (d n : Nat), HookReady s a →
    let t0 := s.th a.core a.thr
    let x0 := t0.issued a
    let here := capAddr x0.pcap - a.len
    let sets := fun (i : Instr) (f : Thread → Thread) => exec i s = .next (s.issue a f)
    let sys := (capPerms t0.pcap).testBit pSystem = true
    let faults := fun (i : Instr) (code : Nat) => t0.lvl ≠ 8 → exec i s = .next (s.setTh a.core a.thr
      { x0 with pcap := t0.pcap, fault := some ⟨4, code, 0, here, 0, a.slotB, false, false⟩ })
    let moves := fun (r : SReg) (get : Thread → CapV) (set : Thread → CapV → Thread) => sys →
      sets (.hMfs a d r) (fun x => x.setC d (get x)) ∧ sets (.hMts a r d) (fun x => set x (x.c d))
    let old := x0.stat.toNat
    let v := x0.g d
    let gc := x0.gates.get n capNull
    let gd := x0.gates.get (8 + n) capNull
    let valid := gc.tag = true ∧ gd.tag = true ∧ capOtype gc ≠ 0 ∧ capOtype gc = capOtype gd ∧ (capPerms gc).testBit pExecute = true
    let opened := fun (c r : CapV) => r.tag = true ∧ capOtype r = 0 ∧ capAddr r = capAddr c ∧ capPerms r = capPerms c ∧
      capBase r = capBase c ∧ capTop r = capTop c
    (capAddr t0.pcap + a.len < 2 ^ 64 →
      sets (.hMfs a d .pcap) (fun x => x.setC d (capSetAddr x.pcap (capAddr t0.pcap)))) ∧
    sets (.hMfs a d .stat) (fun x => x.setG d x.stat.toNat) ∧ (sys → sets (.hMfs a d .sstat) (fun x => x.setG d x.sstat.toNat)) ∧
    (∃ w : DWord, sets (.hMts a .stat d) (fun x => { x with stat := w }) ∧ ∀ k, k < 64 → w.toNat.testBit k =
      if (4 ≤ k ∧ k ≤ 13) ∨ (17 ≤ k ∧ k ≤ 20) ∨ (14 ≤ k ∧ k ≤ 16 ∧ bitsOf v 16 14 < 5) ∨ (22 ≤ k ∧ k ≤ 23 ∧ sys) then v.testBit k
      else old.testBit k) ∧
    (sys → sets (.hMts a .sstat d) (fun x => { x with sstat := BitVec.ofNat 64 (x.g d) })) ∧
    moves .sscap (·.sscap) (fun x c => { x with sscap := c }) ∧ moves .vtab (·.vtab) (fun x c => { x with vtab := c }) ∧
    moves .slink (·.slink) (fun x c => { x with slink := c }) ∧
    moves .wspc (·.bank.wspc) (fun x c => x.updBank fun b => { b with wspc := c }) ∧
    moves (.gateC n) (·.gates.get n capNull) (fun x c => { x with gates := x.gates.set n c }) ∧
    moves (.gateD n) (·.gates.get (8 + n) capNull) (fun x c => { x with gates := x.gates.set (8 + n) c }) ∧
    (¬ sys → t0.lvl ≠ 8 → ∀ r, r ∈ [SReg.sscap, .vtab, .sstat, .slink, .wspc, .gateC n, .gateD n] →
      ∀ i, i ∈ [Instr.hMfs a d r, .hMts a r d] → exec i s = .next (s.setTh a.core a.thr { t0 with
        waits := t0.waits + a.waits, fault := some ⟨4, 5, 0, capAddr t0.pcap, 0, a.slotB, false, false⟩ })) ∧
    (valid → x0.sbit 23 = false → ∃ c e, opened gc c ∧ opened gd e ∧
      sets (.hScall a n) (fun x => (({ x with slink := x.pcap, sstat := x.stat, pcap := c } : Thread).setC 13 e).setSbits 23 23 1)) ∧
    (¬ valid → faults (.hScall a n) 6) ∧ (valid → x0.sbit 23 = true → faults (.hScall a n) 7) ∧
    (x0.sbit 23 = true → capHas x0.slink pExecute = true → ∃ w : DWord, sets (.hSret a) (fun x =>
      ({ x with pcap := x.slink, stat := w } : Thread).setC 13 ⟨(x.c 13).bits, false⟩) ∧
      ∀ k, k < 64 → w.toNat.testBit k = if k < 4 then old.testBit k else if 4 ≤ k ∧ k ≤ 13 ∨ 17 ≤ k ∧ k ≤ 20 ∨ k = 22 then x0.sstat.toNat.testBit k
        else if 14 ≤ k ∧ k ≤ 16 then (if bitsOf x0.sstat.toNat 16 14 < 5 then x0.sstat.toNat.testBit k else old.testBit k) else false) ∧
    (x0.sbit 23 = false ∨ capHas x0.slink pExecute = false → faults (.hSret a) 8)


/-- What the entry of exception `e` at level `lvl` through vector `hv` makes of a thread (R342, R347 to R351): the frame in the frame
buffer at F, c15 of the handler's bank at F, PCAP VTAB's at the vector, STAT with the handler's level and nothing else changed. -/
def Sys2Proof.Claims.entered (x y : Thread) (e : Exc) (lvl hv : Nat) : Prop :=
  let c15 := (x.bankOf lvl).c.get 15 capNull
  let f := (capAddr c15 + 2 ^ 64 - 48) % 2 ^ 64 / 16 * 16
  let cause := e.vec + e.code * 2 ^ 8 + e.esc * 2 ^ 16 + (if e.slotB then 2 ^ 24 else 0) + (if e.multi then 2 ^ 25 else 0)
  let frame := x.pcap.bits.toNat + x.stat.toNat * 2 ^ 128 + e.faddr % 2 ^ 64 * 2 ^ 192 + cause * 2 ^ 256 +
    (x.bank.wp % 8 + x.bank.res % 8 * 16) * 2 ^ 288 + e.detail % 2 ^ 64 * 2 ^ 320
  let b := x.bankOf lvl
  let b' := y.bankOf lvl
  y.pcap = capSetAddr x.vtab ((capAddr x.vtab + 16 * hv) % 2 ^ 64) ∧ (lvl < 16 → y.lvl = lvl) ∧
  (∀ k, 4 ≤ k → k < 64 → y.stat.toNat.testBit k = x.stat.toNat.testBit k) ∧
  y.st = .running ∧ y.fault = none ∧ y.esc = none ∧ lvl ∈ y.active ∧ (∀ l, l ∈ x.active → l ∈ y.active) ∧
  b'.c.get 15 capNull = capSetAddr c15 f ∧ (∀ n, n ≠ 15 → b'.c.get n capNull = b.c.get n capNull) ∧
  b'.wp = b.wp ∧ b'.r = b.r ∧ b'.wspc = b.wspc ∧
  (e.vec < 256 → e.code < 256 → e.esc < 256 → ∀ i, i < 48 → fwdByte y.sb (f + i) = some (BitVec.ofNat 8 (frame / 256 ^ i))) ∧
  (∃ g ∈ y.sb, g.addr = f ∧ g.tag = x.pcap.tag ∧ g.be = 0xFFFF) ∧
  (∀ k, k < f ∨ f + 48 ≤ k → fwdByte y.sb k = fwdByte x.sb k) ∧
  (lvl = x.lvl → b'.sdepth = b.sdepth + 1 ∧ b'.res = b.res ∧ b'.elvl = b.elvl) ∧
  (lvl ≠ x.lvl → lvl ∉ x.active → b'.res = 1 ∧ b'.elvl = x.lvl ∧ b'.sdepth = 0) ∧
  (∀ l, l ≠ lvl → y.bankOf l = x.bankOf l) ∧ { y with
    banks := x.banks, pcap := x.pcap, stat := x.stat, st := x.st, fault := x.fault, esc := x.esc, active := x.active, sb := x.sb } = x

/-- A push of a frame for an entry at `lvl` through `hv` passes every check (R348, R351, R352, R357). -/
def Sys2Proof.Claims.entryPasses (s : State) (core thr lvl hv : Nat) : Prop :=
  let x := s.th core thr
  let b := x.bankOf lvl
  let c15 := b.c.get 15 capNull
  let f := (capAddr c15 + 2 ^ 64 - 48) % 2 ^ 64 / 16 * 16
  let v := capSetAddr x.vtab ((capAddr x.vtab + 16 * hv) % 2 ^ 64)
  (lvl = x.lvl → b.sdepth ≠ 255) ∧ capOk c15 = true ∧ (capPerms c15).testBit pStore = true ∧ capCovers c15 f 48 = true ∧
    s.frameFits core thr lvl f = true ∧ capOk v = true ∧ (capPerms v).testBit pExecute = true ∧ capCovers v (capAddr v) 16 = true

/-- Exception entry (R297, R299, R342, R347 to R353, R355, R356): of the pending enabled requests of a thread the highest level, and of
these the lowest vector, enters when it is above the current level and not active, and its pending bit clears; a fault enters at its own
level, an escalation at level 8 through vector 1; a failed push escalates with its ESC code, and at level 8 halts the thread with its
record. With nothing to enter, nothing changes. -/
def Obligations.ExceptionEntry : Prop :=
  ∀ (s : State) (core thr : Nat) (abandoned : Bool), s.mayEnter core thr = true →
    let x := s.th core thr
    let slots := x.loads.any (·.slot)
    let halts := fun (i : Instr) (e : Exc) => ∃ t, exec i s = .next t ∧ (t.th core thr).st = .halted ∧
      t.fld F.HKC_T_STAT_LLHALT core thr = 1 ∧
      (e.vec < 256 → e.esc < 256 → e.code < 256 →
        t.reg ⟨.HKC_T_HALT, core, thr⟩ = BitVec.ofNat 32 (e.vec * 2 ^ 24 + e.esc * 2 ^ 16 + e.code * 256 + x.lvl * 16 + 1)) ∧
      t.pair F.HKC_T_HALTA_LO F.HKC_T_HALTA_HI core thr = e.faddr % 2 ^ 64
    let enters := fun (i : Instr) (e : Exc) (x : Thread) (lvl hv : Nat) =>
      entryPasses s core thr lvl hv → ∃ t, exec i s = .next t ∧ entered x (t.th core thr) e lvl hv ∧ t.mem = s.mem ∧
        ∀ c u, (c, u) ≠ (core, thr) → c < 3 → u < 4 → thr < 4 → t.th c u = s.th c u
    let escalates := fun (i : Instr) (e : Exc) (lvl hv : Nat) => lvl ≠ 8 → ¬ entryPasses s core thr lvl hv → ∃ t k, exec i s = .next t ∧
      (t.th core thr).esc = some { e with esc := k } ∧ 1 ≤ k ∧ k ≤ 6 ∧ (t.th core thr).pcap = x.pcap ∧ (t.th core thr).stat = x.stat
    let wants := fun (l v : Nat) => 64 ≤ v ∧ v < 256 ∧ 1 ≤ l ∧ x.lvl < l ∧ l ∉ x.active ∧ s.flag F.HKC_IRQ_CFG_EN core v = true ∧
      s.flag F.HKC_IRQ_CFG_PEND core v = true ∧ s.fld F.HKC_IRQ_CFG_THREAD core v = thr ∧ s.fld F.HKC_IRQ_CFG_LEVEL core v = l
    let free := x.esc = none ∧ x.bank.lf = none ∧ slots = false
    (∀ l v, free → wants l v → (∀ l' v', wants l' v' → l' < l ∨ (l' = l ∧ v ≤ v')) →
      let i := Instr.interruptEntry core thr abandoned
      let e := exc v 0 0 0
      enters i e { x with fault := none } l v ∧ escalates i e l v ∧
      (entryPasses s core thr l v → ∀ t, exec i s = .next t → t.flag F.HKC_IRQ_CFG_PEND core v = false)) ∧
    ((∀ l v, ¬ wants l v) → exec (.interruptEntry core thr abandoned) s = .next s) ∧
    (∀ e, x.esc = none → x.fault = some e →
      enters (.faultEntry core thr) e x x.lvl e.vec ∧ escalates (.faultEntry core thr) e x.lvl e.vec) ∧
    (free → x.fault = none → exec (.faultEntry core thr) s = .next s) ∧
    (∀ f, x.esc = none → x.fault = none → x.lvl ≠ 8 → slots = false → x.bank.lf = some f →
      enters (.faultEntry core thr) ⟨f.vec, 0, 0, f.faddr, f.detail, f.slotB, f.multi, false⟩
        (x.updBank fun b => { b with lf := none }) x.lvl f.vec) ∧
    (∀ e, x.esc = some e → enters (.lifelineEntry core thr) e x 8 1 ∧ (¬ entryPasses s core thr 8 1 → halts (.lifelineEntry core thr) e)) ∧
    (∀ f, x.esc = none → x.lvl = 8 → x.bank.lf = some f →
      enters (.lifelineEntry core thr) ⟨f.vec, 0, 5, f.faddr, f.detail, f.slotB, f.multi, false⟩
        (x.updBank fun b => { b with lf := none }) 8 1) ∧
    (x.esc = none → x.bank.lf = none → exec (.lifelineEntry core thr) s = .next s)

/-- RETX, BRK and WAIT of a thread that can issue (R321, R324, R343, R354, R356): RETX takes the frame at c15 back, in one step, or raises
Return Integrity with the code of the first check that fails and changes no register; BRK raises vector 13 with its byte; WAIT idles the
thread, and at level 8 halts it. -/
def Sys2Proof.Claims.ReturnAndWait : Prop :=
  ∀ (s : State) (a : HI) (imm : Nat), HookReady s a → memWf s.mem = true →
    let t0 := s.th a.core a.thr
    let x0 := t0.issued a
    let old := t0.lvl
    let c15 := x0.c 15
    let f := capAddr c15
    let here := capAddr x0.pcap - a.len
    let readable := capCode c15 pLoad f 48 = 0
    let fault := fun (e : Exc) => (.next (s.setTh a.core a.thr { x0 with pcap := t0.pcap, fault := some e }) :
      Host.Outcome State Fault Refusal)
    (old ≠ 8 → ¬ readable → exec (.hRetx a) s = fault ⟨11, 5, 0, here, 0, a.slotB, false, false⟩) ∧
    (readable → t0.sb = [] → (∀ k, k < 3 → s.accFault a.core a.thr ⟨c15, f + 16 * k, 16, [pLoad], none, false, false⟩ = none ∧
        s.poisoned (f + 16 * k) 16 = false) →
      let p : CapV := ⟨BitVec.ofNat 128 (s.peekNat f 16), s.tagAt f⟩
      let st := s.peekNat (f + 16) 8
      let wi := s.peekNat (f + 36) 4
      let l := st % 16
      let wp := wi % 8
      let res := wi / 16 % 8
      let sys := (capPerms x0.pcap).testBit pSystem = true
      let b := x0.bank
      let bad1 := capHas p pExecute = false
      let bad4 := 5 < wp ∨ res = 0 ∨ 5 < res
      let bad2 := old < l ∨ (¬ sys ∧ ((0 < b.sdepth ∧ l ≠ old) ∨ (b.sdepth = 0 ∧ b.elvl < l)))
      let bad3 := ¬ sys ∧ bitsOf st 23 22 ≠ x0.sbits 23 22
      let refused := fun (code : Nat) => old ≠ 8 → ∃ t, exec (.hRetx a) s = .next t ∧ (∀ k, t.peek k = s.peek k) ∧
        t.th a.core a.thr = { x0 with pcap := t0.pcap, fault := some ⟨11, code, 0, here, 0, a.slotB, false, false⟩ }
      (bad1 → refused 1) ∧ (¬ bad1 → bad4 → refused 4) ∧ (¬ bad1 → ¬ bad4 → bad2 → refused 2) ∧
      (¬ bad1 → ¬ bad4 → ¬ bad2 → bad3 → refused 3) ∧
      (¬ bad1 → ¬ bad4 → ¬ bad2 → ¬ bad3 → ∃ t, exec (.hRetx a) s = .next t ∧ (∀ k, t.peek k = s.peek k) ∧
        let y := t.th a.core a.thr
        y.pcap = p ∧ y.lvl = l ∧
        (∀ k, k < 64 → y.stat.toNat.testBit k = if 24 ≤ k ∨ k = 21 then false
          else if 14 ≤ k ∧ k ≤ 16 ∧ 5 ≤ bitsOf st 16 14 then x0.stat.toNat.testBit k else st.testBit k) ∧
        (y.bankOf old).c.get 15 capNull = capSetAddr c15 (f + 48) ∧ (y.bankOf l).wp = wp ∧ (y.bankOf l).res = res ∧
        (y.bankOf l).r = (x0.bankOf l).r ∧
        (l = old → (y.bankOf old).sdepth = b.sdepth - 1 ∧ y.active = x0.active) ∧
        (l ≠ old → ∀ k, l < k → k ∉ y.active) ∧
        { y with banks := x0.banks, pcap := x0.pcap, stat := x0.stat, active := x0.active } = x0 ∧
        ∀ e, e ∈ t.web.evin ↔ e ∈ s.web.evin ∧ ¬ (e.core = a.core ∧ e.thr = a.thr ∧ l < e.level))) ∧
    (old ≠ 8 → exec (.hBrk a imm) s = fault ⟨13, 0, 0, here, imm, a.slotB, false, false⟩) ∧
    (old ≠ 8 → exec (.hWait a) s = .next (s.issue a fun x => { x with st := .idle })) ∧
    (old = 8 → ∃ t, exec (.hWait a) s = .next t ∧ (t.th a.core a.thr).st = .halted ∧ t.fld F.HKC_T_STAT_LLHALT a.core a.thr = 1)

/-- Threads (R278, R297, R325, R340, R372, R385 to R387, R506, R507, R514): THREAD_RUN starts a stopped thread at VTAB; a reset thread
drains its stores and starts with the values of reset, VTAB and gates kept; a watchdog resets its thread, or the complex within 1 s;
HKC_SWI pends a vector; DIRTY clears by ones; SPLIT and MERGE wait for every thread, the split starts cores 1 and 2 at their gates and
the merge leaves core 0's state. -/
def Sys2Proof.Claims.ThreadControl : Prop :=
  (∀ (s : State) (who : Who) (c t : Nat) (v : Word) (b : Byte), s.coreLive c = true → t < 4 →
    let x := s.th c t
    (s.reaches who ⟨.HKC_T_CTRL, c, t⟩ 1 = true → x.st = .stopped → exec (.threadRun who c t) s = .next (s.setTh c t
      { x with st := .running, pcap := x.vtab, started := s.uptime, kicked := s.uptime, waits := 0 })) ∧
    (s.reaches who ⟨.HKC_T_CTRL, c, t⟩ 1 = true → x.st ≠ .stopped → exec (.threadRun who c t) s = .next s) ∧
    (s.reaches who ⟨.HKC_SWI, c, 0⟩ v = true → exec (.swiWrite who c v) s =
      .next (if 64 ≤ v.toNat % 256 then s.setFld F.HKC_IRQ_CFG_PEND 1 c (v.toNat % 256) else s)) ∧
    (s.reaches who ⟨.HKC_T_FPST, c, t⟩ (BitVec.ofNat 32 b.toNat) = true → ∃ u, exec (.dirtyClear who c t b) s = .next u ∧
      (∀ k, k < 8 → (u.fld F.HKC_T_FPST_DIRTY c t).testBit k = ((s.fld F.HKC_T_FPST_DIRTY c t).testBit k && !b.toNat.testBit k)) ∧
      (∀ r, r ≠ ⟨.HKC_T_FPST, c, t⟩ → u.reg r = s.reg r) ∧ u.hook = s.hook) ∧
    (x.st = .inReset → x.sb = [] → ∃ u, exec (.threadReset c t) s = .next u ∧ u.th c t = { Thread.reset c t with
      st := .running, pcap := x.vtab, vtab := x.vtab, gates := x.gates, started := s.uptime, kicked := s.uptime } ∧
      u.mem = s.mem ∧ ∀ e, e ∈ u.web.evin ↔ e ∈ s.web.evin ∧ ¬ (e.core = c ∧ e.thr = t)) ∧
    ((s.fld F.TMO_TWD_EN).testBit (4 * c + t) = true → x.st = .running ∨ x.st = .halted ∨ x.barrier.isSome = true →
      let again := ∃ e, s.hook.wdAt.find? (fun e => e.1 == 4 * c + t) = some e ∧ s.uptime < e.2 + 1000000000
      (¬ again → ∃ u, exec (.threadWatchdog c t) s = .next u ∧ u.th c t = { x with st := .inReset } ∧
        u.hook.wdAt.get (4 * c + t) 0 = s.uptime ∧ u.mem = s.mem ∧
        u.fld F.TMO_CNT0_8 = min (s.fld F.TMO_CNT0_8 + 1) (2 ^ (F.TMO_CNT0_8.hi + 1 - F.TMO_CNT0_8.lo) - 1)) ∧
      (again → ∃ u, exec (.threadWatchdog c t) s = .next u ∧ u.th c 0 = { Thread.reset c 0 with started := s.uptime, kicked := s.uptime } ∧
        u.flag F.TIO_ARM_ARMED = false ∧ u.fld F.TMO_RCAUSE_TRIG = 6 ∧ u.fld F.TMO_RCAUSE_LEVEL = 3))) ∧
  (∀ (s : State) (a : HI), HookReady s a →
    let t0 := s.th a.core a.thr
    let undefined := fun (i : Instr) => t0.lvl ≠ 8 → exec i s = .next (s.setTh a.core a.thr { t0.issued a with
      pcap := t0.pcap, fault := some ⟨3, 0, 0, capAddr (t0.issued a).pcap - a.len, 0, a.slotB, false, false⟩ })
    let waits := fun (i : Instr) (b : Barrier) => (capPerms t0.pcap).testBit pSystem = true →
      exec i s = .next (s.issue a fun x => { x with st := .idle, barrier := some b })
    (s.voted = true → waits (.hSplit a) .split ∧ undefined (.hMerge a)) ∧ (s.voted = false → waits (.hMerge a) .merge ∧ undefined (.hSplit a))) ∧
  (∀ s : State, s.voted = true → (∀ t, t < 4 → (s.th 0 t).barrier = some .split ∧ (s.th 0 t).sb = []) → memWf s.mem = true →
    ∃ u, exec .splitComplete s = .next u ∧ u.fld F.HKC_ID_MODE = 1 ∧ u.flag F.TIO_ARM_ARMED = false ∧
      (∀ t, t < 4 → u.th 0 t = { s.th 0 t with st := .running, barrier := none }) ∧
      (∀ k, k < 0x40000 → ∀ c, c < 3 → u.peek (0x2000000 + 0x40000 * c + k) = cellsGet s.mem.cells (0x2000000 + k)) ∧
      (∀ c t, 1 ≤ c → c < 3 → t < 4 → let x := s.th 0 t
        let y := u.th c t
        (gateValid x c = false → y.st = .stopped ∧ u.flag F.VOT_STAT_NOGATE = true) ∧
        (gateValid x c = true → y.st = .running ∧ y.pcap = capWithOtype (x.gates.get c capNull) 0 true ∧
          y.c 13 = capWithOtype (x.gates.get (8 + c) capNull) 0 true ∧ y.lvl = 0 ∧ y.sbit 23 = false ∧
          ∀ k, 4 ≤ k → k < 64 → k ≠ 23 → y.sbit k = x.sbit k))) ∧
  (∀ s : State, s.voted = false → (∀ c t, c < 3 → t < 4 → (s.th c t).barrier = some .merge) → (∀ t, t < 4 → (s.th 0 t).sb = []) →
    memWf s.mem = true →
    ∃ u, exec .mergeComplete s = .next u ∧ u.fld F.HKC_ID_MODE = 0 ∧
      (∀ t, t < 4 → u.th 0 t = { s.th 0 t with st := .running, barrier := none }) ∧
      ∀ k, k < 0x40000 → u.peek (0x2000000 + k) = cellsGet s.mem.cells (0x2000000 + k)) ∧
  (∀ s : State, (∃ t, t < 4 ∧ (s.th 0 t).barrier ≠ some .split) → exec .splitComplete s = .next s) ∧
  (∀ s : State, (∃ c t, c < 3 ∧ t < 4 ∧ (s.th c t).barrier ≠ some .merge) → exec .mergeComplete s = .next s)


/-- Block-repeat instructions of a thread that can issue (R326 to R329), each over memory that its capabilities let it read and write: one
iteration moves, fills, compares or scans one element and steps its offsets; a repeat counts g1 down, ends at 0 or at its condition, and
with g1 = 0 does nothing; a repeat that is interrupted after an iteration resumes to the same end; a faulting element is reported as its
iteration would have started, with nothing of it written. -/
def Obligations.BlockRepeat : Prop :=
  ∀ (s : State) (a : HI) (z : Sz) (cap : Nat) (rep : Rpt), HookReady s a → memWf s.mem = true →
    let t0 := s.th a.core a.thr
    let x0 := t0.issued a
    let n := z.bytes
    let src := x0.c cap
    let at1 := (capAddr src + x0.g 2) % 2 ^ 64
    let at2 := fun (c : CapV) => (capAddr c + x0.g 3) % 2 ^ 64
    let back := fun (v : Nat) => (v + 2 ^ 64 - n) % 2 ^ 64
    let dn1 := (capAddr src + back (x0.g 2)) % 2 ^ 64
    let dn2 := (capAddr (x0.c 2) + back (x0.g 3)) % 2 ^ 64
    let reads := fun (c : CapV) (ea : Nat) => s.accFault a.core a.thr ⟨c, ea, n, [pLoad], none, false, false⟩ = none ∧
      (capPerms c).testBit pIdem = true ∧ (s.regionOf ea = .tcm ∨ s.regionOf ea = .sram) ∧ s.poisoned ea n = false
    let val := fun (ea : Nat) => ofLeBytes ((List.range n).map fun i => (fwdByte t0.sb (ea + i)).getD (s.peek (ea + i)))
    let writes := fun (c : CapV) (ea v : Nat) => s.accFault a.core a.thr ⟨c, ea, n, [pStore], some v, false, false⟩ = none ∧
      inCtrl ea = false ∧ (t0.sb.filter fun e => !e.frame).length < 8
    let once := fun (i : Instr) (x : Thread) (wr : Option (Nat × Nat)) => ∃ t, exec i s = .next t ∧
      { t.th a.core a.thr with sb := t0.sb } = x ∧ (∀ k, t.peek k = s.peek k) ∧
      ∀ k, fwdByte (t.th a.core a.thr).sb k = match wr with
        | some (q, v) => if q ≤ k ∧ k < q + n then some (BitVec.ofNat 8 (v / 256 ^ (k - q))) else fwdByte t0.sb k
        | none => fwdByte t0.sb k
    let cmp := fun (x : Thread) (p q : Nat) => x.setNZCV ((p + 2 ^ 64 - q).testBit (z.bits - 1)) (decide (p = q)) (decide (p < q))
      (decide (signedOf z.bits p - signedOf z.bits q < -(2 ^ (z.bits - 1) : Nat) ∨
        (2 ^ (z.bits - 1) : Nat) ≤ signedOf z.bits p - signedOf z.bits q))
    let step := fun (v : Nat) => (v + n) % 2 ^ 64
    (reads src at1 → writes (x0.c 2) (at2 (x0.c 2)) (val at1) → once (.hBmov a z .none cap 1)
      ((x0.setG 2 (step (x0.g 2))).setG 3 (step (x0.g 3))) (some (at2 (x0.c 2), val at1))) ∧
    (reads src dn1 → writes (x0.c 2) dn2 (val dn1) → once (.hBmovd a z .none cap 1)
      ((x0.setG 2 (back (x0.g 2))).setG 3 (back (x0.g 3))) (some (dn2, val dn1))) ∧
    (writes src (at2 src) (x0.g 4 % 2 ^ z.bits) → once (.hBfill a z .none cap 1) (x0.setG 3 (step (x0.g 3)))
      (some (at2 src, x0.g 4 % 2 ^ z.bits))) ∧
    (reads src at1 → reads (x0.c 2) (at2 (x0.c 2)) → once (.hBcmp a z .none cap 1)
      (((cmp x0 (val at1) (val (at2 (x0.c 2)))).setG 2 (step (x0.g 2))).setG 3 (step (x0.g 3))) none) ∧
    (reads src at1 → once (.hBscan a z .none cap 1) ((cmp x0 (val at1) (x0.g 4 % 2 ^ z.bits)).setG 2 (step (x0.g 2))) none) ∧
    ∀ c ∈ [Instr.hBmov, .hBmovd, .hBfill, .hBcmp, .hBscan],
      (∀ k, rep ≠ .none → x0.g 1 = 0 → exec (c a z rep cap k) s = .next (s.issue a id)) ∧
      (∀ t, exec (c a z .none cap 1) s = .next t → (t.th a.core a.thr).fault = none → (t.th a.core a.thr).esc = none → rep ≠ .none →
        x0.g 1 ≠ 0 →
        let zf := (t.th a.core a.thr).sbit 5
        let more := x0.g 1 ≠ 1 ∧ (rep = .rpt ∨ (rep = .eq ∧ zf = true) ∨ (rep = .ne ∧ zf = false))
        exec (c a z rep cap 1) s = .next (t.setTh a.core a.thr { (t.th a.core a.thr).setG 1 (x0.g 1 - 1) with
          pcap := if more then t0.pcap else x0.pcap })) ∧
      (∀ t k, exec (c a z rep cap 1) s = .next t → (t.th a.core a.thr).pcap = t0.pcap → (t.th a.core a.thr).fault = none →
        (t.th a.core a.thr).esc = none → rep ≠ .none → exec (c a z rep cap (k + 1)) s = exec (c { a with waits := 0 } z rep cap k) t) ∧
      (∀ t k, exec (c a z .none cap 1) s = .next t → (t.th a.core a.thr).fault ≠ none → rep ≠ .none → x0.g 1 ≠ 0 →
        exec (c a z rep cap (k + 1)) s = .next t ∧ (t.th a.core a.thr).banks = x0.banks ∧ (t.th a.core a.thr).pcap = t0.pcap ∧
          (t0.sb = [] → (t.th a.core a.thr).sb = []))


/-- The voter (R71, R380 to R384, R392): a dropped stitch discards the minority's commit, is recorded and starts a resynchronisation that
disarms nothing; the resynchronisation ends with the core's join or leaves it held; without a majority ARMED clears and the hook complex
is reset; the self-test reports its first failing case and disarms; records leave VOT_DS oldest first. -/
def Sys2Proof.Claims.Voting : Prop :=
  ∀ (s : State) (who : Who) (core point thr addr : Nat),
    let recorded := fun (t : State) (info : Nat) =>
      (s.vot.ds.length < 16 → t.vot.ds = s.vot.ds ++ [⟨BitVec.ofNat 32 info, s.tb.time, BitVec.ofNat 64 addr⟩] ∧
        t.flag F.VOT_STAT_DSOVF = s.flag F.VOT_STAT_DSOVF) ∧
      (16 ≤ s.vot.ds.length → t.vot.ds = s.vot.ds ∧ t.flag F.VOT_STAT_DSOVF = true)
    let counts := fun (t : State) (f : Fld) => t.fld f = min (s.fld f + 1) (2 ^ (f.hi + 1 - f.lo) - 1)
    let resync := s.flag F.VOT_STAT_RESYNC
    let held := s.fld F.VOT_STAT_HELD
    let valid := s.voted = true ∧ point < 6 ∧ thr < 4
    (valid → core < 3 → resync = false → s.flag F.VOT_STAT_DEGRADED = false → ∃ t, exec (.droppedStitch core point thr addr) s = .next t ∧
      recorded t (core * 32 + point * 4 + thr) ∧ counts t F.VOT_CNT_24 ∧ t.flag F.VOT_STAT_RESYNC = true ∧
      t.vot.minority = some core ∧ t.flag F.HKC_IRQ_CFG_PEND 0 181 = true ∧ t.flag F.TIO_ARM_ARMED = s.flag F.TIO_ARM_ARMED ∧
      t.hook = s.hook ∧ t.mem = s.mem) ∧
    (resync = true ∨ s.flag F.VOT_STAT_DEGRADED = true ∨ s.voted = false → exec (.droppedStitch core point thr addr) s = .next s) ∧
    (resync = true → exec .resyncSweepEnd s = .next { s with vot := { s.vot with swept := true } }) ∧
    (resync = true → s.vot.swept = true → ∃ t, exec .resyncJoin s = .next t ∧ t.flag F.VOT_STAT_RESYNC = false ∧
      t.fld F.VOT_STAT_HELD = 0 ∧ t.flag F.VOT_STAT_DEGRADED = false ∧ counts t F.VOT_CNT_8 ∧ t.vot.minority = none ∧
      t.hook = s.hook ∧ t.flag F.TIO_ARM_ARMED = s.flag F.TIO_ARM_ARMED) ∧
    (resync = true → s.vot.minority = some core → core < 3 → ∃ t, exec .resyncTimeout s = .next t ∧ t.flag F.VOT_STAT_RESYNC = false ∧
      t.fld F.VOT_STAT_HELD = core + 1 ∧ t.flag F.VOT_STAT_DEGRADED = true ∧ t.hook = s.hook) ∧
    (resync = false → exec .resyncSweepEnd s = .next s ∧ exec .resyncJoin s = .next s ∧ exec .resyncTimeout s = .next s) ∧
    (valid → ∃ t, exec (.noMajority point thr addr) s = .next t ∧ recorded t (96 + point * 4 + thr) ∧ counts t F.VOT_CNT_24 ∧
      t.flag F.VOT_STAT_NOMAJ = true ∧ t.flag F.TIO_ARM_ARMED = false ∧ (∀ o, (t.out o).q = []) ∧ t.fld F.TMO_RCAUSE_LEVEL = 3 ∧
      t.fld F.TMO_RCAUSE_TRIG = 5 ∧ t.ply = s.ply ∧ (∀ k, k < 4 → (t.th 0 k).st = if k = 0 then .running else .stopped)) ∧
    (s.reaches who ⟨.VOT_STEST, 0, 0⟩ 1 = true → ∃ t, exec (.voterSelfTest who) s = .next t ∧ t.flag F.VOT_STEST_DONE = true ∧
      (s.flag F.VOT_STEST_FAIL = true → t.flag F.VOT_STEST_FAIL = true ∧ t.fld F.VOT_STEST_FCASE = s.fld F.VOT_STEST_FCASE) ∧
      (s.flag F.VOT_STEST_FAIL = false → t.flag F.VOT_STEST_FAIL = true → t.fld F.VOT_STEST_FCASE < 18 ∧ t.flag F.TIO_ARM_ARMED = false) ∧
      t.vot.ds = s.vot.ds ∧ t.fld F.VOT_CNT_24 = s.fld F.VOT_CNT_24) ∧
    (s.reaches who ⟨.VOT_CMD, 0, 0⟩ 1 = true → ∃ t, exec (.resyncCommand who) s = .next t ∧
      (1 ≤ held → resync = false → t.flag F.VOT_STAT_RESYNC = true ∧ t.vot.minority = some (held - 1) ∧ t.vot.swept = false) ∧
      (held = 0 ∨ resync = true → t = s)) ∧
    (s.readsOut who ⟨.VOT_DS_POP, 0, 0⟩ = true → ∃ t, exec (.droppedStitchPop who) s = .next t ∧ t.vot.ds = s.vot.ds.drop 1 ∧
      t.hook = s.hook ∧ t.mem = s.mem ∧ ∀ r, t.reg r = s.reg r)

/-- Checked plies (R390 to R392): a mismatch is recorded and marks both beds of the pair; an unmarked pair of two or more exchanges its odd
bed with the next pair's, a single pair takes the standby bed or faults its ply with cause CHECK; a bed that was marked before is retired;
a mark stands for VOT_CHKWIN. -/
def Sys2Proof.Claims.CheckedPlies : Prop :=
  ∀ (s : State) (q n k pos elem a b : Nat) (p : Inst),
    let marked := fun x => ∃ t, (s.bed x).mark = some t ∧ s.uptime < t + s.fld F.VOT_CHKWIN * 1000000000
    let holds := fun x l => x < 136 ∧ x ∈ s.setBeds n ∧ s.fld F.BED_CTRL_LPOS x = l ∧
      ∀ y, y ∈ s.setBeds n → s.fld F.BED_CTRL_LPOS y = l → y = x
    (∀ x, x < 136 → marked x → exec (.checkMarkExpiry x) s = .next s) ∧
    (∀ x, x < 136 → ¬ marked x → exec (.checkMarkExpiry x) s = .next (s.setBed x { s.bed x with mark := none })) ∧
    (q < 64 → k < 32 → pos < 64 → s.inst q false = some p → s.setOf q = some n → optChecked p.entry = true → p.st = .running →
      (s.plq q).younger = none → (∀ q', q' < 64 → s.setOf q' = some n → q' = q) → p.lives = [] → p.fault = none →
      holds a (2 * pos) → holds b (2 * pos + 1) →
      ∃ t, exec (.checkedMismatch q false k pos elem) s = .next t ∧
        t.fld F.VOT_CNT_16 = min (s.fld F.VOT_CNT_16 + 1) (2 ^ (F.VOT_CNT_16.hi + 1 - F.VOT_CNT_16.lo) - 1) ∧
        (s.vot.ds.length < 16 → t.vot.ds = s.vot.ds ++ [⟨BitVec.ofNat 32 (2 ^ 31 + a * 2 ^ 23 + b * 2 ^ 15 + q * 2 ^ 9 + k * 16),
          s.tb.time, BitVec.ofNat 64 elem⟩]) ∧
        (t.bed a).mark = some s.uptime ∧ (t.bed b).mark = some s.uptime ∧
        (¬ marked a → ¬ marked b → 2 ≤ p.b → pos < p.b → ∀ c, holds c (2 * ((pos + 1) % p.b) + 1) →
          t.fld F.BED_CTRL_LPOS b = 2 * ((pos + 1) % p.b) + 1 ∧ t.fld F.BED_CTRL_LPOS c = 2 * pos + 1) ∧
        (¬ marked a → ¬ marked b → p.b < 2 → ∀ sb, s.spareBed n = some sb → t.fld F.BED_CTRL_LPOS sb = 2 * pos + 1 ∧
          t.flag F.BED_CTRL_STANDBY sb = false ∧ t.flag F.BED_CTRL_STANDBY b = true) ∧
        (¬ marked a → ¬ marked b → p.b < 2 → s.spareBed n = none →
          ∃ p', t.inst q false = some p' ∧ p'.fault = some (⟨7, k, pos, elem, 0⟩ : SFault)) ∧
        (∀ x, x ∈ [a, b] → marked x → t.flag F.BED_STAT_RETIRED x = true ∧ t.flag F.BED_CTRL_EN x = false) ∧
        (marked a ∨ marked b → s.freeBed = none →
          ∃ p', t.inst q false = some p' ∧ p'.fault = some (⟨7, k, pos, elem, 0⟩ : SFault)))

/-- Cast-on (R71, R393, R395, R397, R399 to R401, R406, R408, R416 to R418, R426): each stage acts only in its turn, does its work and
starts the next, or ends in SAFE with its code and ARMED clear; the watchdog restarts cast-on once per stage and then ends it; firmware
ends stage 8 with DONE. -/
def Obligations.CastOn : Prop :=
  ∀ (s : State) (who : Who), memWf s.mem = true →
    let now := fun n => s.fld F.TMO_CASTON_STAGE = n ∧ s.flag F.TMO_CASTON_SAFE = false ∧ s.cast.hookOnly = false ∧
      s.flag F.TMO_CASTON_DONE = false
    let safe := fun (i : Instr) (code : Nat) => ∃ t, exec i s = .next t ∧ t.flag F.TMO_CASTON_SAFE = true ∧
      t.fld F.TMO_CASTON_CODE = code ∧ t.flag F.TIO_ARM_ARMED = false ∧ ∀ o, (t.out o).q = []
    let ends := fun (i : Instr) (n : Nat) (P : State → Prop) => ∃ t, exec i s = .next t ∧ t.fld F.TMO_CASTON_STAGE = n + 1 ∧
      t.flag F.TMO_CASTON_SAFE = false ∧ P t
    (∀ ok fail mode size erase image fails refused mask untrained dpc speed x4 capacity ms stash extra slack,
      let stages := [Instr.castOnStage0 ok, .castOnStage1 ok fail, .castOnStage2 mode size erase image, .castOnStage3,
        .castOnStage4 fails, .castOnStage5, .castOnStage6 refused mask untrained dpc speed x4 capacity,
        .castOnStage7 ms stash extra slack, .castOnStage8]
      ∀ n i, stages[n]? = some i → s.fld F.TMO_CASTON_STAGE ≠ n ∨ s.flag F.TMO_CASTON_SAFE = true → exec i s = .next s) ∧
    (now 0 → s.pwr.coreEn = true → s.pwr.porst = false → s.pwr.sysrst = false → s.tb.refLost = false →
      safe (.castOnStage0 false) 1 ∧ ends (.castOnStage0 true) 0 fun t => t.meas 0 = Config.sha256 ((List.range 0x20000).map Config.bootRom)) ∧
    (now 1 → ∀ fail, (∀ k, fail = some k → k < 18) → safe (.castOnStage1 false fail) 2 ∧ ends (.castOnStage1 true fail) 1 fun t =>
      (∀ k, k < 0xC0000 → cellsGet t.mem.cells (0x2000000 + k) = 0) ∧ (∀ k, k < 0x400000 → cellsGet t.mem.cells (0x100000 + k) = 0) ∧
      (∀ k ∈ t.mem.tags, ¬ (0x2000000 ≤ k ∧ k < 0x20C0000) ∧ ¬ (0x100000 ≤ k ∧ k < 0x500000)) ∧ t.flag F.VOT_STEST_DONE = true ∧
      (∀ k, fail = some k → t.flag F.VOT_STEST_FAIL = true ∧ t.flag F.TIO_ARM_ARMED = false ∧ t.cast.flags.testBit 2 = true)) ∧
    (now 2 → ∀ mode size erase image, let u := { s with cast := { s.cast with size := size, erase := erase, flash := image.getD s.cast.flash } }
      (mode = .none → safe (.castOnStage2 mode size erase image) 3) ∧
      (mode ≠ .none → u.flashHdr 0 = none → u.flashHdr 1 = none → safe (.castOnStage2 mode size erase image) 4) ∧
      (mode ≠ .none → (u.flashHdr 0).isSome = true ∨ (u.flashHdr 1).isSome = true →
        ends (.castOnStage2 mode size erase image) 2 fun t => t.cast = u.cast)) ∧
    (now 3 → ∀ h f rest e c, s.flashOrder = (h, f) :: rest → f.dir.find? (fun e => e.typ == 1) = some e →
      let image := s.flashBytes e.off e.len
      let fits := c.payload.length ≤ 0x300000 ∧ c.load % 16 = 0 ∧ 0x100000 ≤ c.load ∧ c.load + c.payload.length ≤ 0x500000
      (s.verify image 1 = .ok c → fits → (s.cast.restart = true → s.meas 1 = 0 ∨ s.meas 1 = Config.sha256 c.whole) →
        ends .castOnStage3 3 fun t => t.peekN c.load c.payload.length = c.payload ∧ t.meas 1 = Config.sha256 c.whole ∧
          t.flag F.KTH_POLICY = f.attest ∧ t.cast.used = some h ∧ t.cast.load = c.load ∧ t.cast.entry = c.entry) ∧
      (rest = [] → parseContainer image 1 = some c → ¬ fits → safe .castOnStage3 6) ∧
      (rest = [] → parseContainer image 1 = some c → fits → (∀ c', s.verify image 1 ≠ .ok c') → safe .castOnStage3 5)) ∧
    (now 4 → ∀ fails, (s.flag F.RPR_STAT_DONE = true → ends (.castOnStage4 fails) 4 fun t =>
        t = s.setFld F.TMO_CASTON_STAGE 5) ∧
      (s.flag F.RPR_STAT_DONE = false → ends (.castOnStage4 fails) 4 fun t => t.flag F.RPR_STAT_DONE = true ∧
        t.meas 4 = Config.sha256 t.rprBytes)) ∧
    (now 5 → s.flag F.BED_UC_STAT_LOCKED = false → ends .castOnStage5 5 fun t => t.flag F.BED_UC_STAT_LOCKED = true ∧
      ((s.flashImages 2).head? = none → t.cast.patch = s.cast.patch ∧ t.flag F.BED_UC_STAT_REJECT = s.flag F.BED_UC_STAT_REJECT) ∧
      (∀ image c p, (s.flashImages 2).head? = some image → s.verify image 2 = .ok c → Config.gcmOpen c.payload = some p →
        (patchOk p = true → t.cast.patch = p ∧ t.flag F.BED_UC_STAT_PATCHED = true ∧ t.meas 2 = Config.sha256 c.whole) ∧
        (patchOk p = false → t.cast.patch = s.cast.patch ∧ t.flag F.BED_UC_STAT_REJECT = true)) ∧
      (∀ image e, (s.flashImages 2).head? = some image → s.verify image 2 = .error e →
        t.cast.patch = s.cast.patch ∧ t.flag F.BED_UC_STAT_REJECT = true)) ∧
    (now 6 → ∀ mask untrained dpc speed x4 capacity, mask < 4096 → s.fld F.DDR_CFG_CHMASK = 0 → s.cast.warm = false →
      dpc < 2 → capacity ≤ 2 ^ 43 → let good := (List.range 12).filter fun c => mask.testBit c && !untrained.testBit c
      (ends (.castOnStage6 true mask untrained dpc speed x4 capacity) 6 fun t => t.fld F.DDR_CFG_CHMASK = 0 ∧
        t.pair F.DDR_TOP_LO F.DDR_TOP_HI = 0x10000000000) ∧
      ends (.castOnStage6 false mask untrained dpc speed x4 capacity) 6 fun t => t.ddrChans = good ∧
        t.pair F.DDR_TOP_LO F.DDR_TOP_HI = 0x10000000000 + good.length * (capacity / 128 * 127) ∧
        (∀ c, c ∈ good → t.flag F.DDR_CH_STAT_LOST c = true ∧ t.flag F.DDR_CH_STAT_ONLINE c = false) ∧
        ((∃ c, c < 12 ∧ mask.testBit c = true ∧ untrained.testBit c = true) → t.cast.flags.testBit 7 = true)) ∧
    (now 7 → ∀ ms stash extra slack, ends (.castOnStage7 ms stash extra slack) 7 fun t =>
      ∀ k, k < 0x8000000 → cellsGet t.mem.cells (0x20000000 + k) = 0) ∧
    (now 8 → s.cast.load % 16 = 0 → s.cast.load + s.cast.length ≤ 0x500000 → ∃ t, exec .castOnStage8 s = .next t ∧
      t.flag F.MTX_REMAP_REMAP = true ∧ t.fld F.MTX_FWBASE * 16 = s.cast.load ∧ t.fld F.MTX_FWLEN = s.cast.length ∧
      (t.th 0 0).pcap = capSetAddr capRoot (s.cast.load + s.cast.entry) ∧ t.fld F.TMO_CASTON_STAGE = 8) ∧
    (now 8 → s.flag F.MTX_REMAP_REMAP = true → s.reaches who ⟨.TMO_CASTON, 0, 0⟩ 1 = true → ∃ t, exec (.castonDone who) s = .next t ∧
      t.flag F.TMO_CASTON_DONE = true ∧ (s.flag F.KTH_POLICY = false → t.kth = s.kth)) ∧
    (∀ n, now n → n < 9 →
      (n ∉ s.cast.expired → ∃ t, exec .stageWatchdog s = .next t ∧ t.flag F.TMO_CASTON_EXPIRED = true ∧ n ∈ t.cast.expired ∧
        t.fld F.TMO_CASTON_RETRY = min (s.fld F.TMO_CASTON_RETRY + 1) (2 ^ (F.TMO_CASTON_RETRY.hi + 1 - F.TMO_CASTON_RETRY.lo) - 1) ∧
        t.fld F.TMO_CASTON_STAGE = 1 ∧ t.fld F.TMO_RCAUSE_TRIG = 7 ∧ t.cast.restart = true) ∧
      (n ∈ s.cast.expired → safe .stageWatchdog (if n = 8 then 8 else 7))) ∧
    (s.reaches who ⟨.BED_UC_CTRL, 0, 0⟩ 1 = true → exec (.ucLock who) s = .next (s.setFld F.BED_UC_STAT_LOCKED 1)) ∧
    (s.reaches who ⟨.MTX_REMAP, 0, 0⟩ 1 = true → who = .bootRom → s.flag F.MTX_REMAP_REMAP = false →
      ∃ t, exec (.remapSet who) s = .next t ∧ t.flag F.MTX_REMAP_REMAP = true ∧ t.mem = s.mem) ∧
    (∀ b uaddr, b < 136 → uaddr < 2 ^ 15 → ∃ t, exec (.microcodeFault b uaddr) s = .next t ∧ t.fld F.BED_UCFAULT_BED = b ∧
      t.fld F.BED_UCFAULT_UADDR = uaddr ∧ t.flag F.BED_UCFAULT_VALID = true ∧
      t.fld F.TMO_CNT0_24 = min (s.fld F.TMO_CNT0_24 + 1) (2 ^ (F.TMO_CNT0_24.hi + 1 - F.TMO_CNT0_24.lo) - 1)) ∧
    (∀ b, b < 136 → ∃ t, exec (.bedWake b) s = .next t ∧ t.flag F.BED_STAT_CLKGATED b = false ∧ t.flag F.BED_STAT_PWRGATED b = false ∧
      (s.flag F.BED_STAT_PWRGATED b = true → (t.bed b).patched = s.flag F.BED_UC_STAT_PATCHED)) ∧
    (∀ n, n < 64 → (s.setBusy n = true → exec (.clockGate n) s = .next s) ∧ (s.setBusy n = false → ∃ t, exec (.clockGate n) s = .next t ∧
      ∀ b, b < 136 → t.flag F.BED_STAT_CLKGATED b =
        (s.flag F.BED_STAT_CLKGATED b || ((s.bedsOf n).contains b && !s.flag F.BED_STAT_PWRGATED b))))

/-! ### The dictionary -/

/-- Firmware runs and a request of one subindex stands in front of it on a path: 1 upload, 2 download of `bs`. The host's bytes stand in
its mailbox as one segment. -/
def Sys2Proof.Claims.sdoAsks (s : State) (p : Path) (op idx sub : Nat) (bs : List Byte) : Prop :=
  s.fwUp = true ∧
  match p with
  | .plc => s.plcServed = true
  | .host => s.asked op idx sub false = true ∧ s.fld F.PCI_DMB_OFF = 0 ∧
    (op = 2 → s.fld F.PCI_DMB_LEN = bs.length ∧ bs.length ≤ 4096 ∧ s.dmbWindow bs.length = bs)

/-- The request has been answered with an abort code, 0 for success, and the bytes of an upload; the host's also in PCI_DMB. -/
def Sys2Proof.Claims.sdoAnswers (s t : State) (p : Path) (idx sub a : Nat) (data : List Byte) : Prop :=
  (∃ l, t.sent = l ++ s.sent ∧ Sent.sdo p idx sub a data ∈ l) ∧
  (p = .host → t.flag F.PCI_DMB_STAT_BUSY = false ∧ t.flag F.PCI_DMB_STAT_DONE = true ∧ t.fld F.PCI_DMB_ABORT = a)

/-- SDO downloads and uploads (R28, R444, R449, R452, R453, R456): the checks in the order of R453, the first that fails gives the abort and
nothing is written; PDO maps are written in PREOP with subindex 00 at 0; an object reads as it was written; a host segment that does not
follow is aborted with 0x05040000; GO submits the mailbox request, or sets REFUSED; another mailbox protocol is answered "not supported". -/
def Obligations.DictionaryRequests : Prop :=
  ∀ (s : State) (p : Path) (who : Who) (idx sub : Nat) (bs : List Byte) (v : Word),
    let stands := fun (t : State) => t.od = s.od ∧ t.mem = s.mem ∧ t.web = s.web ∧ t.ply = s.ply ∧ t.hook = s.hook ∧ t.ect.slots = s.ect.slots ∧
      ∀ r : Reg, r.kind ≠ .PCI_DMB_STAT → r.kind ≠ .PCI_DMB_ABORT → r.kind ≠ .HKC_IRQ_CFG → t.reg r = s.reg r
    let fails := fun (a : Nat) => ∃ t, exec (.sdoDownload p idx sub false bs) s = .next t ∧ sdoAnswers s t p idx sub a [] ∧ stands t
    (sdoAsks s p 2 idx sub bs →
      (odInfo idx sub = none → odExists idx = false → fails 0x06020000) ∧
      (odInfo idx sub = none → odExists idx = true → fails 0x06090011) ∧
      (∀ i, odInfo idx sub = some i → i.wr = false → fails 0x06010002) ∧
      (∀ i n, odInfo idx sub = some i → i.wr = true → i.len = some n →
        (bs.length ≠ n → fails 0x06070010) ∧
        (bs.length = n → n ≤ 8 → odRange idx sub (ofLeBytes bs) = false → fails 0x06090030) ∧
        (bs.length = n → odRange idx sub (ofLeBytes bs) = true → s.valueOk idx sub bs = true →
          (p = .host → fieldOnly idx = true → s.ect.leftInit = true → fails 0x08000021) ∧
          ((p = .plc ∨ fieldOnly idx = false ∨ s.ect.leftInit = false) → s.stateOk idx sub = false → fails 0x08000022))) ∧
      (inRange 0x7000 16 idx = true → 2 ≤ sub → sub ≤ 9 → bs.length = 4 → ∃ t, exec (.sdoDownload p idx sub false bs) s = .next t ∧
        sdoAnswers s t p idx sub 0 [] ∧ t.odv idx sub = ofLeBytes bs ∧ (∀ x, x ≠ idx * 256 + sub → t.od.get x 0 = s.od.get x 0) ∧
        t.mem = s.mem) ∧
      (isMap idx = true → s.ect.al = 2 →
        let isAssign := idx = 0x1C12 ∨ idx = 0x1C13
        let rx := inRange 0x1600 16 idx || decide (idx = 0x1C12)
        let e := ofLeBytes bs
        (1 ≤ sub → sub ≤ 32 → bs.length = 4 → ¬ isAssign → s.odv idx 0 = 0 →
          (mapEntryOk rx e = true → ∃ t, exec (.pdoMapWrite p idx sub false bs) s = .next t ∧ sdoAnswers s t p idx sub 0 [] ∧
            t.odv idx sub = e) ∧
          (mapEntryOk rx e = false → ∃ t, exec (.pdoMapWrite p idx sub false bs) s = .next t ∧ sdoAnswers s t p idx sub 0x06040041 [] ∧
            t.od = s.od)) ∧
        (sub = 0 → bs.length = 1 → e ≤ 32 → (¬ isAssign → ((s.setOd idx 0 e).odList idx).all (mapEntryOk rx) = true) →
          ((s.setOd idx 0 e).pdoBytes rx ≤ 1024 → ∃ t, exec (.pdoMapWrite p idx sub false bs) s = .next t ∧
            sdoAnswers s t p idx sub 0 [] ∧ t.odv idx 0 = e) ∧
          (1024 < (s.setOd idx 0 e).pdoBytes rx → ∃ t, exec (.pdoMapWrite p idx sub false bs) s = .next t ∧
            sdoAnswers s t p idx sub 0x06040042 [] ∧ t.od = s.od))) ∧
      (isMap idx = true → s.ect.al ≠ 2 → sub = 0 → bs = [0] → ∃ t, exec (.pdoMapWrite p idx sub false bs) s = .next t ∧
        sdoAnswers s t p idx sub 0x08000022 [] ∧ t.od = s.od)) ∧
    (sdoAsks s p 1 idx sub [] →
      let answers := fun (a : Nat) (data : List Byte) => ∃ t, exec (.sdoUpload p idx sub false) s = .next t ∧
        sdoAnswers s t p idx sub a data ∧ t.od = s.od ∧ t.mem = s.mem ∧
        (p = .host → t.fld F.PCI_DMB_STAT_SEGLEN = data.length ∧ t.dmbWindow data.length = data)
      (odInfo idx sub = none → odExists idx = false → answers 0x06020000 []) ∧
      (odInfo idx sub = none → odExists idx = true → answers 0x06090011 []) ∧
      (∀ i, odInfo idx sub = some i → i.rd = false → i.wr = true → answers 0x06010001 []) ∧
      (inRange 0x7000 16 idx = true → 1 ≤ sub → sub ≤ 9 → answers 0 (leBytes (if sub = 1 then 2 else 4) (s.odv idx sub))) ∧
      (idx = 0x2000 → sub = 1 → answers 0 [BitVec.ofNat 8 s.devState]) ∧
      (∀ r, odRecord idx = some r → isMap idx = false → sub = 0 → r.1 < 256 → answers 0 [BitVec.ofNat 8 r.1])) ∧
    (s.hostServed = true → s.asked 2 idx sub false = true → s.fld F.PCI_DMB_OFF ≠ 0 → s.ect.segs = [] →
      ∃ t, exec (.sdoDownload .host idx sub false bs) s = .next t ∧ sdoAnswers s t .host idx sub 0x05040000 [] ∧ stands t) ∧
    (s.reaches who ⟨.PCI_DMB_CMD, 0, 0⟩ v = true → setBit v 31 = true →
      (s.flag F.PCI_DMB_STAT_BUSY = true → exec (.hostMailboxGo who v) s = .next (s.setFld F.PCI_DMB_STAT_REFUSED 1)) ∧
      (s.flag F.PCI_DMB_STAT_BUSY = false → ∃ t, exec (.hostMailboxGo who v) s = .next t ∧ t.flag F.PCI_DMB_STAT_BUSY = true ∧
        t.flag F.PCI_DMB_STAT_DONE = false ∧ t.fld F.PCI_DMB_CMD_INDEX = bitsOf v.toNat 15 0 ∧ t.fld F.PCI_DMB_CMD_SUB = bitsOf v.toNat 23 16 ∧
        t.mem = s.mem)) ∧
    (s.plcServed = true → ∀ typ, typ ≠ 3 → typ ≠ 4 → exec (.mailboxProtocolUnsupported typ) s = .next ((s.raise 187).send (.mbxError 2)))

/-- The commands that are one write of an object, on either path (R434, R440, R441, R446, R447, R458 to R462, R484, R486, R493, R494,
R502): what each leaves beside the answer 0; and firmware's poll, which adds each count to 0x2900 and clears it. -/
def Obligations.DictionaryCommands : Prop :=
  ∀ (s : State) (p : Path) (n b q k v : Nat) (bs : List Byte),
    let does := fun (c : Instr) (idx sub : Nat) (w : List Byte) (P : State → Prop) => sdoAsks s p 2 idx sub w →
      ∃ t, exec c s = .next t ∧ sdoAnswers s t p idx sub 0 [] ∧ P t
    let keth := fun (t : State) (op : Nat) => t.flag F.KTH_STAT_BUSY = true ∧ t.fld F.KTH_STAT_LASTOP = op ∧ t.odv 0x2800 6 = 1 ∧
      t.mem = s.mem
    let field := p = .plc ∨ s.ect.leftInit = false
    let kfree := s.flag F.KTH_STAT_BUSY = false ∧ s.odv 0x2800 6 ≠ 1
    (kfree → s.odv 0x2800 1 ≠ 1 → does (.attestationCommand p) 0x2800 5 [1] fun t => keth t 3) ∧
    (kfree → s.odv 0x2800 1 ≠ 1 → s.kth.pend = none → does (.rekeyCommand p) 0x2800 5 [2] fun t => keth t 7) ∧
    (kfree → does (.challengeCommand p) 0x2800 5 [3] fun t => keth t 8) ∧
    (kfree → bs.length = 3348 → does (.unlockResponse p bs) 0x2800 0xA bs fun t => keth t 9 ∧ t.kth.op = some ⟨9, 0, 3348, 0, some bs, 4⟩) ∧
    (field →
      (s.mayOp = true → does (.armCommand p) 0x2000 2 [4] fun t => t.flag F.TIO_ARM_ARMED = true ∧ t.odv 0x2000 3 = 2) ∧
      (does (.disarmCommand p) 0x2000 2 [5] fun t => t.flag F.TIO_ARM_ARMED = false ∧ (∀ o, (t.out o).q = []) ∧ t.odv 0x2000 3 = 2) ∧
      (s.odv 0x2000 3 ≠ 1 → s.ect.bindoff = none → does (.deviceBindoffCommand p) 0x2000 2 [1] fun t => t.ect.bindoff = some 0 ∧
        t.odv 0x2000 3 = 1 ∧ t.ect.al = s.ect.al ∧ ∀ m, m < 16 → t.odv (0x2100 + m) 1 ≠ 1) ∧
      (sdoAsks s p 2 0x2000 2 [2] → ∃ t, exec (.coldResetCommand p) s = .next t ∧ t.fld F.TMO_RCAUSE_LEVEL = 1 ∧
        t.fld F.TMO_RCAUSE_TRIG = 2 ∧ t.mem = State.reset.mem ∧ t.ect.al = 1 ∧ t.flag F.TIO_ARM_ARMED = false) ∧
      (sdoAsks s p 2 0x2000 2 [3] → ∃ t, exec (.warmResetCommand p) s = .next t ∧ t.fld F.TMO_RCAUSE_LEVEL = 2 ∧
        t.fld F.TMO_RCAUSE_TRIG = 2 ∧ t.mem = s.warmMem ∧ t.ect.al = 1 ∧ t.flag F.TIO_ARM_ARMED = false) ∧
      (n < 16 → s.voted = true → s.leaderBusy n = false → (s.chan n).st = .idle →
        (s.odv (0x2100 + n) 1 ≠ 1 → s.odv (0x2100 + n) 2 ≠ 1 → s.runOk n = true → s.ect.al = 2 →
          does (.channelEnable p n 1) (0x2100 + n) 1 [1] fun t => t.odv (0x2100 + n) 1 = 1 ∧ t.odv (0x2100 + n) 2 = 1 ∧
            t.flag F.CXP_CH_ICTRL_EN n = true ∧ (t.chan n).st = .idle) ∧
        (s.odv (0x2100 + n) 1 = 1 → does (.channelEnable p n 0) (0x2100 + n) 1 [0] fun t => t.odv (0x2100 + n) 1 = 0 ∧
          t.odv (0x2100 + n) 2 = 2 ∧ t.flag F.CXP_CH_ICTRL_EN n = false ∧ (t.chan n).st = .idle) ∧
        (bs.length = 32 → s.camRecOk n (camRec bs) = true → does (.cameraMapWrite p n bs) (0x2100 + n) 0x1B bs fun t =>
          let r := camRec bs
          t.flag F.CXP_CAM_CTRL_EN r.k = true ∧ t.fld F.CXP_CAM_CTRL_CHAN r.k = n ∧ t.fld F.CXP_CAM_CTRL_FMT r.k = r.fmt ∧
            t.fld F.CXP_CAM_CTRL_MASTER r.k = r.master ∧ t.fld F.CXP_CAM_LINKS r.k = r.links ∧ t.camsOf n = [r.k])) ∧
      (b < 136 → v < 32768 → s.voted = true → s.bedRuns b = false → s.displaced b v = none →
        s.bedEntryOk b v = true → does (.bedMapWrite p b v) 0x2200 (b + 1) (leBytes 2 v) fun t => s.bedEntry b % 32768 ≠ v →
          t.flag F.BED_CTRL_EN b = v.testBit 0 ∧ t.flag F.BED_CTRL_STANDBY b = v.testBit 1 ∧ t.fld F.BED_CTRL_SET b = v / 4 % 64 ∧
            t.fld F.BED_CTRL_LPOS b = v / 256 % 128) ∧
      (q < 64 → v < 256 → s.voted = true → (s.plq q).entry = none → s.flag F.PLQ_CTRL_EN q = false →
        does (.queueEntryWrite p q v) 0x2240 (q + 1) (leBytes 2 v) fun t => t.setOf q = (if v.testBit 6 then some (v % 64) else none) ∧
          t.flag F.PLQ_CTRL_OWNER q = v.testBit 7 ∧ t.flag F.PLQ_CTRL_PINEN q = false ∧ t.flag F.PLQ_CTRL_EN q = v.testBit 6 ∧
          (s.flag F.PLQ_CTRL_OWNER q ≠ v.testBit 7 → t.fld F.PLQ_BIND_EPOCH q = (s.fld F.PLQ_BIND_EPOCH q + 1) % 65536))) ∧
    (s.odv 0x2300 5 ≠ 1 → does (.gaugeBedCommand p) 0x2300 3 [1] fun t => t.odv 0x2300 5 = 1 ∧ t.gau.next = some (s.odv 0x2300 4)) ∧
    (s.odv 0x2310 5 ≠ 1 →
      does (.replanBed p) 0x2310 4 [1] (fun t => t.odv 0x2310 5 = 1 ∧ s.odv 0x2310 1 ∈ t.gau.plan) ∧
      does (.replanAll p) 0x2310 4 [2] (fun t => t.odv 0x2310 5 = 1 ∧ ∀ x ∈ s.rotation, x ∈ t.gau.plan)) ∧
    (s.odv 0x2320 7 ≠ 1 →
      does (.recordFieldRepairs p) 0x2320 6 [1] (fun t => (t.odv 0x2320 7 = 2 ∨ t.odv 0x2320 7 = 3) ∧
        (s.fieldRepairs = [] → t.odv 0x2320 7 = 3 ∧ t.cast.flash = s.cast.flash) ∧
        (s.kth.tree = none → t.odv 0x2320 7 = 3 ∧ t.cast.flash = s.cast.flash) ∧
        (t.odv 0x2320 7 = 2 → t.flag F.RPR_STAT_UNSAVED = false ∧ t.fld F.KTH_TREE_Q = s.fld F.KTH_TREE_Q + 1)) ∧
      does (.discardFieldRecords p) 0x2320 6 [2] (fun t => t.odv 0x2320 7 = 2 ∨ t.odv 0x2320 7 = 3 ∧ t.cast.flash = s.cast.flash)) ∧
    (s.odv 0x2700 3 ≠ 1 →
      (s.devState = 1 → s.fld F.PWR_STAT_SLEEP ≠ 2 → does (.enterStandby p) 0x2700 2 [1] fun t => t.fld F.PWR_STAT_SLEEP = 2 ∧
        t.odv 0x2700 3 = 2 ∧ (∀ m, t.plq m = Plq.init) ∧ t.flag F.TIO_ARM_ARMED = false) ∧
      (s.fld F.PWR_STAT_SLEEP = 2 → does (.returnToService p) 0x2700 2 [2] fun t => t.flag F.PWR_STAT_WAKING = true ∧
        t.fld F.PWR_STAT_SLEEP = 2 ∧ t.odv 0x2700 3 = 1)) ∧
    (s.fwUp = true → ∃ t, exec .counterPoll s = .next t ∧ t.mem = s.mem ∧ t.web = s.web ∧
      t.tally.get 0x1B 0 = s.tally.get 0x1B 0 + s.fld F.VOT_TCMFIX ∧ t.fld F.VOT_TCMFIX = 0 ∧
      t.tally.get 0x05 0 = s.tally.get 0x05 0 + s.fld F.VOT_CNT_24 ∧ t.fld F.VOT_CNT_24 = 0 ∧
      t.tally.get 0x1F 0 = s.tally.get 0x1F 0 + s.fld F.VOT_CNT_0 ∧ t.fld F.VOT_CNT_0 = 0 ∧
      t.tally.get 0x02 0 = s.tally.get 0x02 0 + (let old := s.tally.get 0x82 0
        let now := s.pair F.BED_STALE_LO F.BED_STALE_HI
        if old ≤ now then now - old else now)) ∧
    (s.fwUp = false → exec .counterPoll s = .next s) ∧
    (does (.clearCounters p) 0x2900 0x20 [1] fun t => (∀ m, m < 0x80 → t.tally.get m 0 = 0) ∧ t.mem = s.mem) ∧
    (k < 63 →
      (512 * 1024 < bs.length → bs.length ≤ 0x1000000 → s.ddrReady = false →
        sdoAsks s p 2 (0x3000 + k) 1 bs → ∃ t, exec (.slotImageWrite p k bs) s = .next t ∧
          sdoAnswers s t p (0x3000 + k) 1 0x08000022 [] ∧ t.ect.slots = s.ect.slots) ∧
      (bs.length ≤ 512 * 1024 → ∀ c, s.verify bs (leAt bs 4 1) = .ok c → 1 ≤ leAt bs 4 1 → leAt bs 4 1 ≤ 5 →
        does (.slotImageWrite p k bs) (0x3000 + k) 1 bs fun t =>
          t.slot k = ⟨bs, leAt bs 4 1, c.version, 2, Config.sha256 c.whole⟩ ∧ (∀ j, j ≠ k → t.slot j = s.slot j)) ∧
      (bs.length ≤ 512 * 1024 → ∀ e, s.verify bs (leAt bs 4 1) = .error e → does (.slotImageWrite p k bs) (0x3000 + k) 1 bs fun t =>
        (t.slot k).image = [] ∧ (t.slot k).status = 3) ∧
      ((s.slot k).image ≠ [] →
        (∀ c, let x := s.slot k
          s.verify x.image (leAt x.image 4 1) = .ok c → 1 ≤ leAt x.image 4 1 → leAt x.image 4 1 ≤ 5 →
            does (.verifyAgain p k) (0x3000 + k) 5 [1] fun t => (t.slot k).status = 2 ∧ (t.slot k).image = x.image ∧
              ∀ m, m < 8 → t.meas m = s.meas m) ∧
        does (.storeToFlash p k) (0x3000 + k) 5 [2] (fun t => (t.slot k).image = (s.slot k).image ∧
          ((t.slot k).status = 2 ∨ (t.slot k).status = 3 ∧ t.cast.flash = s.cast.flash))) ∧
      does (.clearSlot p k) (0x3000 + k) 5 [3] (fun t => t.slot k = ⟨[], 0, 0, 2, 0⟩ ∧ t.cast.flash = s.cast.flash))


/-- KTH_CMD.GO by its eleven operations (R419, R434, R443): it starts the operation with the operands of KTH_SRC, KTH_LEN and KTH_DST; while
BUSY, and where R434 does not accept it, it changes nothing but REFUSED; an unlock response over JTAG starts UNLOCK with its bytes. An
operation that reaches its timeout ends with TIMEOUT, its consumed leaves and bits standing. -/
def Obligations.KetharCommands : Prop :=
  ∀ (s : State) (who : Who) (bs : List Byte),
    let busy := s.flag F.KTH_STAT_BUSY
    let starts := fun (t : State) (o : KOp) => t.flag F.KTH_STAT_BUSY = true ∧ t.flag F.KTH_STAT_DONE = false ∧
      t.fld F.KTH_STAT_ERR = 0 ∧ t.fld F.KTH_STAT_LASTOP = o.op ∧ t.kth.op = some o ∧ t.mem = s.mem ∧ t.kth.tree = s.kth.tree ∧
      t.kth.burned = s.kth.burned
    let failed := fun (t : State) (err : Nat) => t.flag F.KTH_STAT_DONE = true ∧ t.fld F.KTH_STAT_ERR = err ∧ t.kth.op = none ∧
      t.kth.tree = s.kth.tree ∧ t.kth.burned = s.kth.burned ∧ t.fld F.KTH_TREE_Q = s.fld F.KTH_TREE_Q ∧
      (s.voted = true → t.flag F.HKC_IRQ_CFG_PEND 0 184 = true)
    (∀ c ∈ [(Instr.verifyPly, 1), (.verifyDomain, 2), (.attest, 3), (.sign, 4), (.signRepair, 5), (.kthOpen, 6), (.rekey, 7),
        (.challenge, 8), (.unlock, 9), (.keyop, 10), (.pathDone, 11)],
      s.reaches who ⟨.KTH_CMD, 0, 0⟩ (BitVec.ofNat 32 (2 ^ 31 + c.2)) = true →
      let accepted := (c.2 = 6 → s.flag F.KTH_POLICY = true ∧ s.flag F.KTH_TREE_OPEN = false ∧ s.kth.opened = false) ∧
        (c.2 = 7 → s.kth.pend = none)
      (busy = true → exec (c.1 who) s = .next (s.setFld F.KTH_STAT_REFUSED 1)) ∧
      (busy = false → accepted → ∃ t, exec (c.1 who) s = .next t ∧ t.fld F.KTH_CMD_OP = c.2 ∧
        starts t ⟨c.2, s.pair F.KTH_SRC_LO F.KTH_SRC_HI, s.fld F.KTH_LEN, s.pair F.KTH_DST_LO F.KTH_DST_HI, none, 0⟩) ∧
      (busy = false → ¬ accepted → ∃ t, exec (c.1 who) s = .next t ∧ t.flag F.KTH_STAT_REFUSED = true ∧ t.kth = s.kth ∧ t.mem = s.mem ∧
        t.flag F.KTH_STAT_BUSY = false)) ∧
    (s.castOnDone = true → busy = false → ∃ t, exec (.jtagKunlock bs) s = .next t ∧ starts t ⟨9, 0, bs.length, 0, some bs, 0⟩) ∧
    (s.castOnDone = true → busy = true → exec (.jtagKunlock bs) s = .next (s.setFld F.KTH_STAT_REFUSED 1)) ∧
    (s.castOnDone = false → exec (.jtagKunlock bs) s = .next s) ∧
    (∀ o, s.kth.op = some o → ∃ t, exec .ketharTimeout s = .next t ∧ failed t 11 ∧ t.flag F.KTH_STAT_BUSY = false) ∧
    (∀ p, s.kth.op = none → s.kth.pend = some p → ∃ t, exec .ketharTimeout s = .next t ∧ failed t 11 ∧ t.kth.pend = none ∧
      t.kth.fresh = none ∧ t.flag F.KTH_STAT_GEN = false ∧ t.flag F.KTH_STAT_PATHREQ = false) ∧
    (s.kth.op = none → s.kth.pend = none → exec .ketharTimeout s = .next s)

/-- How the Kethar operations end (R401, R420, R423 to R426, R428 to R443): operands and results in their ranges or error ADDR; an accepted
container extends its register; a signature advances Q first and needs an open tree with leaves left; a challenge is consumed by every
UNLOCK; a fuse shows its read-back; OPEN and REKEY burn one new bit for their leaf, and the tree opens once generation has ended and the
path has been checked. -/
def Obligations.KetharOperations : Prop :=
  ∀ (s : State) (o : KOp) (rs : List (Bool × Bool)) (ok : Bool), s.kth.op = some o → o.od = 0 → memWf s.mem = true →
    let bytes := match o.bytes with | some b => b | none => s.peekN o.src o.len
    let ends := fun (err : Nat) (P : State → Prop) => ∃ t, exec (.ketharOperationEnd rs ok) s = .next t ∧ t.flag F.KTH_STAT_BUSY = false ∧
      t.flag F.KTH_STAT_DONE = true ∧ t.fld F.KTH_STAT_ERR = err ∧ t.fld F.KTH_STAT_LASTOP = o.op ∧ t.kth.op = none ∧
      (s.voted = true → t.flag F.HKC_IRQ_CFG_PEND 0 (if err = 0 then 183 else 184) = true) ∧ P t
    let same := fun (t : State) => t.mem = s.mem ∧ t.fld F.KTH_TREE_Q = s.fld F.KTH_TREE_Q ∧ (∀ m, m < 8 → t.meas m = s.meas m) ∧
      t.kth.burned = s.kth.burned ∧ t.kth.prog = s.kth.prog ∧ t.kth.revoke = s.kth.revoke ∧ t.kth.tree = s.kth.tree
    let addr := s.kthAddrOk o
    let q := s.fld F.KTH_TREE_Q
    let signs := fun (pre : State) (msg : List Byte) (result : List Byte → List Byte) =>
      (s.kth.tree = none → ends 6 fun t => t.mem = s.mem ∧ t.fld F.KTH_TREE_Q = q) ∧
      (∀ tr, s.kth.tree = some tr → 32768 ≤ q → ends 8 fun t => t.mem = s.mem ∧ t.fld F.KTH_TREE_Q = q) ∧
      (∀ tr, s.kth.tree = some tr → q < 32768 → s.regionOf o.dst = .sram → ends 0 fun t => t.fld F.KTH_TREE_Q = q + 1 ∧
        (let out := result (slice (Config.hssSign tr s.kth.leaf q msg) 0 3284)
         t.peekN o.dst out.length = out) ∧ (∀ m, m < 8 → t.meas m = pre.meas m) ∧
        (q + 1 = 31744 → t.flag F.KTH_STAT_LOW = true))
    let extends' := fun (typ m : Nat) => addr = true →
      (∀ c, s.verify bytes typ = .ok c → ends 0 fun t => t.mem = s.mem ∧
        t.meas m = Config.sha256 (leBytes 32 (s.meas m).toNat ++ leBytes 32 (Config.sha256 c.whole).toNat) ∧
        ∀ k, k < 8 → k ≠ m → t.meas k = s.meas k) ∧
      (∀ e, e < 256 → s.verify bytes typ = .error e → ends e fun t => same t ∧
        t.fld F.KTH_CNT_24 = min (s.fld F.KTH_CNT_24 + 1) (2 ^ (F.KTH_CNT_24.hi + 1 - F.KTH_CNT_24.lo) - 1))
    let n := s.bootN
    let r0 := rs.headD (false, false)
    let burns := r0.2 = true → n < 32768 → ∃ t, exec (.ketharOperationEnd rs ok) s = .next t ∧ t.flag F.KTH_STAT_BUSY = false ∧
      n ∈ t.kth.burned ∧ (∀ b, b ∈ t.kth.burned ↔ b ∈ s.kth.burned ∨ b = n) ∧ t.fld F.KTH_TREE_J = n ∧
      t.flag F.KTH_STAT_PATHREQ = true ∧ t.flag F.KTH_STAT_GEN = true ∧ t.kth.fresh = some n ∧
      t.kth.pend = some ⟨o.op, n, false, none, 0⟩ ∧ t.kth.tree = s.kth.tree
    let exhausted := n = 32768 → ends 7 fun t => t.kth.burned = s.kth.burned
    (o.op ∈ [1, 2, 3, 4, 5, 8, 9, 10] → addr = false → ends 5 same) ∧
    (o.op = 1 → extends' 4 3) ∧ (o.op = 2 → extends' 5 6) ∧
    (o.op = 3 → addr = true → let u := s.setMeas 5 (Config.sha256 s.gauBytes)
      signs u u.reportBody fun g => u.reportBody ++ g) ∧
    (o.op = 4 → addr = true → (bytes.length = 32 → signs s (leBytes 4 0x47534755 ++ bytes) id) ∧ (bytes.length ≠ 32 → ends 1 same)) ∧
    (o.op = 5 → addr = true → (parseContainer bytes 3 = none → ends 1 same) ∧ (∀ c, parseContainer bytes 3 = some c →
      (c.signer ≠ 2 ∨ (∃ b ∈ c.pub ++ c.sig, b ≠ 0) → ends 1 same) ∧
      (c.signer = 2 → (∀ b ∈ c.pub ++ c.sig, b = 0) → signs s (signRepair c []) (signRepair c)))) ∧
    (o.op = 8 → addr = true → ends 0 fun t => t.kth.chal = true ∧ t.mem = s.mem ∧
      t.fld F.KTH_CHAL 8 + 2 ^ 32 * t.fld F.KTH_CHAL 9 = Config.serial.toNat ∧ t.fld F.KTH_CHAL 10 = n % 2 ^ 32 ∧ t.fld F.KTH_CHAL 11 = 0) ∧
    (o.op = 9 → addr = true → let scope := leAt bytes 0 4
      let pub := slice bytes 4 60
      let g := slice bytes 64 3284
      let formed := bytes.length = 3348 ∧ scope < 4
      let fails := fun err => ends err fun t => t.kth.chal = false ∧ t.flag F.KTH_STAT_DBG = s.flag F.KTH_STAT_DBG ∧ t.kth.scope = s.kth.scope
      (¬ formed → fails 1) ∧ (formed → s.kth.chal = false → fails 12) ∧
      (formed → s.kth.chal = true → s.keyIn [2, 3] pub = false → fails 2) ∧
      (formed → s.kth.chal = true → s.keyIn [2, 3] pub = true → pubOk pub = true → sigOk g = true →
        (Config.hssVerify pub (leBytes 4 0x544A4755 ++ s.chalBytes ++ leBytes 4 scope) g = true →
          ends 0 fun t => t.kth.chal = false ∧ t.flag F.KTH_STAT_DBG = true ∧ t.kth.scope = scope ∧ t.kth.dbgEver = true) ∧
        (Config.hssVerify pub (leBytes 4 0x544A4755 ++ s.chalBytes ++ leBytes 4 scope) g = false → fails 3))) ∧
    (o.op = 10 → addr = true → ∀ c, parseContainer bytes 5 = some c → c.payload.length = 40 → leAt c.payload 0 4 = 0x594B4755 →
      leAt c.payload 6 2 = 0 → let op := leAt c.payload 4 1
      let slot := leAt c.payload 5 1
      let other := if slot % 2 = 0 then slot + 1 else slot - 1
      let valid := s.verify bytes 5 = .ok c
      (op = 1 → slot = 2 → 2 ∉ s.kth.prog → (ok = true → ends 0 fun t => t.kth.prog = s.kth.prog ++ [2] ∧
        t.slotHash 2 = BitVec.ofNat 256 (leAt c.payload 8 32)) ∧ (ok = false → ends 9 fun t => t.kth.prog = s.kth.prog)) ∧
      (op = 1 → slot = 3 → valid → 3 ∉ s.kth.prog → c.signer = 1 → Config.sha256 c.pub = s.slotHash 2 → ok = true →
        ends 0 fun t => t.kth.prog = s.kth.prog ++ [3] ∧ t.slotHash 3 = BitVec.ofNat 256 (leAt c.payload 8 32)) ∧
      (op = 2 → slot < 4 → valid → s.slotUsable other = true → Config.sha256 c.pub = s.slotHash other → ok = true →
        ends 0 fun t => t.kth.revoke = s.kth.revoke ++ [slot] ∧ t.slotUsable slot = false) ∧
      (op = 2 → slot < 4 → valid → s.slotUsable other = false ∨ Config.sha256 c.pub ≠ s.slotHash other → ends 2 same)) ∧
    (o.op = 6 → burns ∧ exhausted) ∧ (o.op = 7 → s.flag F.KTH_TREE_OPEN = true → burns ∧ exhausted) ∧
    (o.op = 7 → s.flag F.KTH_TREE_OPEN = false → ends 6 same) ∧ (o.op = 11 → s.kth.pend = none → ends 10 same) ∧
    (∀ p, o.op = 11 → s.kth.pend = some p → let path := (List.range 120).flatMap fun k => leBytes 4 (s.fld F.KTH_PATH k)
      let P := fun (t : State) => t.kth.pend = none ∧ t.kth.fresh = none ∧ t.flag F.KTH_STAT_PATHREQ = false
      (p.gen = true → Config.pathOk p.j path = true → ∃ t, exec (.ketharOperationEnd rs ok) s = .next t ∧ P t ∧
        t.flag F.KTH_TREE_OPEN = true ∧ (p.j < 32768 → t.fld F.KTH_TREE_J = p.j) ∧ t.fld F.KTH_TREE_Q = 0 ∧ t.kth.tree = some s.kth.trees ∧
        t.kth.leaf = p.j ∧ t.fld F.KTH_STAT_ERR = 0) ∧
      (p.gen = true → Config.pathOk p.j path = false → ∃ t, exec (.ketharOperationEnd rs ok) s = .next t ∧ P t ∧
        t.kth.tree = s.kth.tree ∧ t.fld F.KTH_STAT_ERR = 10) ∧
      (p.gen = false → ∃ t, exec (.ketharOperationEnd rs ok) s = .next t ∧ t.kth.pend = some { p with path := some path } ∧
        t.kth.tree = s.kth.tree)) ∧
    (s.kth.pend = none → exec .treeGenerationEnd s = .next s) ∧
    (∀ p, s.kth.pend = some p → (p.path = none → ∃ t, exec .treeGenerationEnd s = .next t ∧ t.flag F.KTH_STAT_GEN = false ∧
        t.kth.pend = some { p with gen := true }) ∧
      (∀ path, p.path = some path → Config.pathOk p.j path = true → ∃ t, exec .treeGenerationEnd s = .next t ∧
        t.flag F.KTH_STAT_GEN = false ∧ t.kth.pend = none ∧ t.flag F.KTH_TREE_OPEN = true ∧ t.kth.leaf = p.j))

/-! ### The EtherCAT state machine, process data, FoE -/

/-- The ESM (R407, R446 to R448, R458): each transition with its conditions and the AL status code of a refusal; a channel with its enable
enters RUN at SAFEOP, or fails its checks; the SM2 watchdog and the falls to PREOP and INIT with their device bind-off. -/
def Obligations.EsmTransitions : Prop :=
  ∀ (s : State) (ok : Bool) (to_ : Nat),
    let al := s.ect.al
    let enters := fun (c : Instr) (a code : Nat) (P : State → Prop) => ∃ t, exec c s = .next t ∧ t.ect.al = a ∧ t.ect.alCode = code ∧
      Sent.alStatus a code ∈ t.sent ∧ (s.voted = true → t.flag F.HKC_IRQ_CFG_PEND 0 188 = true) ∧ P t
    let refused := fun (c : Instr) (code : Nat) => enters c al code fun t => t.web = s.web ∧ t.od = s.od ∧ t.mem = s.mem
    let enabled := fun n => s.odv (0x2100 + n) 1 = 1
    (al = 1 →
      (s.inSafe = true → refused (.initToPreop ok) 0x0011) ∧
      (s.esmFree = true → s.inSafe = false →
        (ok = false → refused (.initToPreop ok) 0x0016) ∧
        (ok = true → enters (.initToPreop ok) 2 0 fun t => t.ect.leftInit = true ∧ t.web = s.web ∧ t.od = s.od ∧ t.mem = s.mem)) ∧
      (s.inSafe = true → enters .initToBoot 3 0 fun t => t.web = s.web ∧ t.od = s.od ∧ t.mem = s.mem) ∧
      (s.inSafe = false → s.fwUp = true → refused .initToBoot 0x0011)) ∧
    (al ≠ 1 → exec (.initToPreop ok) s = .next s ∧ exec .initToBoot s = .next s) ∧
    (al = 2 → s.esmFree = true →
      (s.mapsOk true = false → refused (.preopToSafeop ok) 0x001D) ∧
      (s.mapsOk true = true → s.mapsOk false = false → refused (.preopToSafeop ok) 0x001E) ∧
      (s.mapsOk true = true → s.mapsOk false = true → ok = false → refused (.preopToSafeop ok) 0x0030) ∧
      (s.mapsOk true = true → s.mapsOk false = true → ok = true → (∀ n, (s.chan n).st = .idle) →
        ((∀ n, n < 16 → ¬ enabled n) → enters (.preopToSafeop ok) 4 0 fun t => t.web = s.web ∧ t.mem = s.mem) ∧
        (∀ n, n < 16 → enabled n → (∀ m, m < 16 → m ≠ n → ¬ enabled m) → s.locked n = false → s.runRequest n = true →
          (s.runOk n = true → enters (.preopToSafeop ok) 4 0 fun t => (t.chan n).st = .run ∧ t.odv (0x2100 + n) 2 = 2 ∧
            ∀ m, m < 16 → m ≠ n → (t.chan m).st = .idle) ∧
          (s.runOk n = false → enters (.preopToSafeop ok) 4 0 fun t => t.web = s.web ∧ t.odv (0x2100 + n) 2 = 3)))) ∧
    (al ≠ 2 → exec (.preopToSafeop ok) s = .next s) ∧
    (al = 4 → s.esmFree = true →
      (s.mayOp = false → refused .safeopToOp 0x8001) ∧
      (s.mayOp = true → enters .safeopToOp 8 0 fun t => (∀ n, n < 16 → (n ∈ t.ect.runSeen ↔ enabled n)) ∧ t.od = s.od ∧ t.mem = s.mem ∧
        (s.odv 0x2000 6 = 1 → t.flag F.TIO_ARM_ARMED = true) ∧
        (s.odv 0x2000 6 ≠ 1 → t.flag F.TIO_ARM_ARMED = s.flag F.TIO_ARM_ARMED))) ∧
    (al ≠ 4 → exec .safeopToOp s = .next s) ∧
    (al = 8 → s.esmFree = true →
      (∀ c ∈ [(Instr.opToSafeop, 0), (.sm2Watchdog, 0x001B)], enters c.1 4 c.2 fun t =>
        (s.odv 0x2000 7 = 1 → t.flag F.TIO_ARM_ARMED = false) ∧
        (s.odv 0x2000 7 ≠ 1 → t.flag F.TIO_ARM_ARMED = s.flag F.TIO_ARM_ARMED) ∧
        (∀ n k, n < 16 → k < 10 → t.odv (0x7000 + n) k = s.odv (0x7000 + n) k) ∧
        (c.2 = 0x001B → t.tally.get 0x13 0 = s.tally.get 0x13 0 + 1 ∧
          ∀ n, n < 16 → enabled n → s.odv (0x2100 + n) 0x18 = 1 → t.odv (0x2100 + n) 1 = 0))) ∧
    (al ≠ 8 → exec .opToSafeop s = .next s ∧ exec .sm2Watchdog s = .next s) ∧
    (to_ = 1 ∨ to_ = 2 → al = 4 ∨ al = 8 → s.esmFree = true → s.ect.bindoff = none → ∃ t, exec (.deviceBindoff to_) s = .next t ∧
      t.ect.bindoff = some to_ ∧ t.ect.al = al ∧ (∀ n, n < 16 → t.odv (0x2100 + n) 1 ≠ 1) ∧
      (∀ o, o < 64 → s.flag F.TIO_OUT_CTRL_EN o = true → (s.out o).bindoff = false → (t.out o).bindoff = true)) ∧
    (al = 3 → enters (.deviceBindoff 1) 1 0 fun t => t.web = s.web ∧ t.od = s.od ∧ t.mem = s.mem) ∧
    (∀ x, s.ect.bindoff = some x → s.allIdle = true → s.fwUp = true → (∀ o, (s.out o).bindoff = false) →
      (x ≠ 0 → enters .deviceBindoffEnd x (if s.ect.cut then 0x8003 else 0) fun t => t.ect.bindoff = none ∧
        t.flag F.TIO_ARM_ARMED = false ∧ ∀ o, (t.out o).q = []) ∧
      (x = 0 → ∃ t, exec .deviceBindoffEnd s = .next t ∧ t.ect.al = al ∧ t.ect.bindoff = none ∧ t.flag F.TIO_ARM_ARMED = false ∧
        (s.odv 0x2000 3 = 1 → t.odv 0x2000 3 = 2))) ∧
    (s.ect.bindoff = none ∨ s.allIdle = false → exec .deviceBindoffEnd s = .next s)

/-- Process data and the distributed clock (R29, R444, R450, R451, R455): an input latch copies the result words and sends the mapped
values; an SM2 event in OP takes the outputs and writes the command block in one store; missed events count up to the emergency; a port
without link closes. -/
def Sys2Proof.Claims.ProcessData : Prop :=
  ∀ (s : State) (n k : Nat) (bs : List Byte) (missed up : Bool), n < 16 →
    (s.ect.al = 4 ∨ s.ect.al = 8 → s.fwUp = true → ∃ t, exec .inputLatch s = .next t ∧ .txpdo t.ect.tx ∈ t.sent ∧ t.mem = s.mem ∧
      (s.odv (0x2100 + n) 0x1E ≠ 0 → ∀ j, j < 16 → t.odv (0x6000 + n) (5 + j) = s.peekNat (s.odv (0x2100 + n) 0x1E + 4 * j) 4) ∧
      (s.txMap = [(0x6000 + n) * 65536 + 0x0520] → s.odv (0x2100 + n) 0x1E ≠ 0 →
        t.ect.tx = leBytes 4 (s.peekNat (s.odv (0x2100 + n) 0x1E) 4))) ∧
    (s.ect.al ≠ 4 → s.ect.al ≠ 8 → exec .inputLatch s = .next s) ∧
    (s.ect.al = 8 → s.fwUp = true → (∀ m, (s.chan m).st = .idle) → (∀ m, m < 16 → s.odv (0x2100 + m) 1 ≠ 1) →
      s.rxMap = [(0x7000 + n) * 65536 + 0x0110, (0x7000 + n) * 65536 + 0x0220] →
      ∃ t, exec (.sm2Event bs) s = .next t ∧ t.ect.rx = bs ∧ t.odv (0x7000 + n) 1 = ofLeBytes (bs.take 2) ∧
        t.odv (0x7000 + n) 2 = ofLeBytes ((bs.drop 2).take 4) ∧
        (let a := s.odv (0x2100 + n) 0x1F
         blockOk 32 a = true → memWf s.mem = true → (∀ m, m < 16 → m ≠ n → s.odv (0x2100 + m) 0x1F = 0) →
          t.peekN a 32 = leBytes 4 (ofLeBytes ((bs.drop 2).take 4)) ++
            ((List.range 7).flatMap fun j => leBytes 4 (s.odv (0x7000 + n) (3 + j))) ∧
          ∀ x, x < a ∨ a + 32 ≤ x → s.regionOf x = .stash → t.peek x = s.peek x)) ∧
    (s.ect.al ≠ 8 → exec (.sm2Event bs) s = .next s) ∧
    (k < 2 → ∃ t, exec (.dcSyncEvent k missed) s = .next t ∧ (s.voted = true → t.flag F.HKC_IRQ_CFG_PEND 0 (189 + k) = true) ∧
      (k = 0 → s.ect.al = 8 → s.odv 0x1C32 1 = 2 → s.fwUp = true →
        (missed = true → t.ect.syncMiss = s.ect.syncMiss + 1 ∧ t.odv 0x1C32 0x20 = 1 ∧
          t.odv 0x1C32 0xB = min 65535 (s.odv 0x1C32 0xB + 1) ∧
          (s.odv 0x10F1 2 ≤ s.ect.syncMiss + 1 → s.emLast = [] → .emergency 0x8700 ∈ t.sent)) ∧
        (missed = false → t.ect.syncMiss = 0 ∧ t.odv 0x1C32 0x20 = 0 ∧ t.sent = s.sent)) ∧
      (k = 1 ∨ s.ect.al ≠ 8 → t = s.raise (189 + k))) ∧
    (k < 2 → ∃ t, exec (.ectPortLinkChange k up) s = .next t ∧ (k ∈ t.ect.portUp ↔ up = true) ∧
      (∀ j, j ≠ k → (j ∈ t.ect.portUp ↔ j ∈ s.ect.portUp)) ∧ t.sent = .portLoop k (!up) :: s.sent ∧ t.regs = s.regs ∧ t.mem = s.mem)

/-- FoE (R404, R407, R462): a file that is no slot is not found, the identity slot is denied, an image too long while DDR is not ready is
refused; a verified image stands in its slot, a failed one leaves it empty with status 3; in SAFE an image goes to flash unverified; a read
gives the slot's image. -/
def Sys2Proof.Claims.FileTransfer : Prop :=
  ∀ (s : State) (f : Nat) (bs : List Byte),
    let k := f - 0x3000
    let typ := leAt bs 4 1
    let answers := fun (c : Instr) (e : Nat) (data : List Byte) (P : State → Prop) => ∃ t, exec c s = .next t ∧
      (∃ l, t.sent = .foe f e data :: l) ∧ P t
    (s.plcServed = true →
      (inRange 0x3000 64 f = false → answers (.foeWrite f bs) 0x8001 [] (fun t => t.ect = s.ect ∧ t.cast = s.cast) ∧
        answers (.foeRead f) 0x8001 [] fun t => t.ect = s.ect ∧ t.regs = s.regs) ∧
      (f = 0x303F → answers (.foeWrite f bs) 0x8002 [] fun t => t.ect = s.ect ∧ t.cast = s.cast) ∧
      (inRange 0x3000 63 f = true →
        (0x1000000 < bs.length ∨ (512 * 1024 < bs.length ∧ s.ddrReady = false) →
          answers (.foeWrite f bs) 0x8003 [] fun t => t.ect = s.ect ∧ t.cast = s.cast) ∧
        (bs.length ≤ 512 * 1024 →
          (∀ c, 1 ≤ typ → typ ≤ 5 → s.verify bs typ = .ok c → answers (.foeWrite f bs) 0 [] fun t =>
            t.slot k = ⟨bs, typ, c.version, 2, Config.sha256 c.whole⟩ ∧ (∀ j, j ≠ k → t.slot j = s.slot j) ∧ t.cast.flash = s.cast.flash) ∧
          (∀ e, s.verify bs typ = .error e → answers (.foeWrite f bs) 0 [] fun t => (t.slot k).image = [] ∧ (t.slot k).status = 3)) ∧
        ((s.slot k).image ≠ [] → answers (.foeRead f) 0 (s.slot k).image fun t => t.ect = s.ect ∧ t.regs = s.regs) ∧
        ((s.slot k).image = [] → answers (.foeRead f) 0x8001 [] fun t => t.ect = s.ect ∧ t.regs = s.regs))) ∧
    (s.inSafe = true → s.ect.al = 3 → s.fwUp = false → inRange 0x3000 64 f = true →
      (∀ u, s.slotStore k typ bs = some u → answers (.foeWrite f bs) 0 [] fun t => t.cast = u.cast ∧ t.ect.slots = s.ect.slots) ∧
      (s.slotStore k typ bs = none → answers (.foeWrite f bs) 0x8003 [] fun t => t.cast = s.cast)) ∧
    (s.plcServed = false → s.inSafe = false → exec (.foeWrite f bs) s = .next s ∧ exec (.foeRead f) s = .next s)

/-! ### The host -/

/-- Host accesses through the BARs (R469 to R473): one aligned whole DWORD or BADSZ; what lies outside the write set is discarded and
counted; a register with a read side effect reads 0 and stands; a virtual function's empty space reads 0; BAR2 and BAR4 reach what their
handle allows, a failure reads all ones, is discarded on a write and is counted; unmasking a pending vector signals it. -/
def Obligations.HostAccesses : Prop :=
  ∀ (s : State) (fn off n k : Nat) (v : Word) (bs : List Byte),
    let a := 0x10000000 + off
    let pf := fn = 0 ∨ 8 < fn
    let wr := exec (.hostBar0Write fn off v true) s
    let rd := exec (.hostBar0Read fn off true) s
    (s.fnLive fn = false → wr = .next s ∧ rd = .next s) ∧
    (s.fnLive fn = true →
      (∀ full, full = false ∨ off % 4 ≠ 0 → exec (.hostBar0Write fn off v full) s = .next (s.bump F.PCI_ERR_BADSZ) ∧
        exec (.hostBar0Read fn off full) s = .next { s.bump F.PCI_ERR_BADSZ with rd := List.replicate 4 0xFF }) ∧
      (off % 4 = 0 → pf → ∀ r, Reg.ofAddr a = some r →
        (s.hostSet fn r = false → wr = .next (s.bump F.PCI_ERR_WPERM)) ∧
        (s.hostSet fn r = false → readActs r = true → rd = .next { s with rd := leBytes 4 0 }) ∧
        (s.hostSet fn r = true → s.heldInReset .PCI = false →
          r.kind ∈ [.PCI_BAR2_H, .PCI_BAR4_H, .PCI_LNK_BAR4_H, .PCI_DMA_TAIL, .PCI_DMB_LEN, .PCI_DMB_OFF] → ∃ t, wr = .next t ∧
            (∀ f ∈ r.kind.info.fields, t.fld ⟨r.kind, f.hi, f.lo⟩ r.i r.j = bitsOf v.toNat f.hi f.lo) ∧
            (∀ q, q ≠ r → t.reg q = s.reg q) ∧ t = { s with regs := t.regs }) ∧
        (r.kind = .PCI_BAR2_H → s.heldInReset .PCI = false → ∃ t, rd = .next t ∧ t.rd = leBytes 4 (s.readReg (.host fn) r).toNat ∧
          t.regs = s.regs ∧ t.mem = s.mem)) ∧
      (off % 4 = 0 → pf → Reg.ofAddr a = none →
        ((Block.ofAddr a).isSome = true → wr = .next (s.bump F.PCI_ERR_WPERM) ∧ rd = .next { s with rd := leBytes 4 0 }) ∧
        (Block.ofAddr a = none → wr = .next (s.bump F.PCI_ERR_HOLE) ∧
          rd = .next { s.bump F.PCI_ERR_HOLE with rd := leBytes 4 0xFFFFFFFF })) ∧
      (off % 4 = 0 → 1 ≤ fn → fn ≤ 8 →
        (0x8400 ≤ off → off < 0x9000 → wr = .next s ∧ rd = .next { s with rd := leBytes 4 0 }) ∧
        (0x8000 ≤ off → off < 0x8400 → rd = .next { s with rd := leBytes 4 (s.msixWord fn ((off - 0x8000) / 4)).toNat } ∧
          ∃ t, wr = .next t ∧ t.msixWord fn ((off - 0x8000) / 4) = v ∧ t.regs = s.regs ∧ t.mem = s.mem))) ∧
    (s.fnLive 0 = true → ∀ r u b, b = stashBase + off → s.resolveHandle (s.fld F.PCI_BAR2_H) 0 = (r, u) →
      (∀ c, r = .ok c → windowOk c pStore stashBase (stashBase + stashSize) b bs.length = true →
        exec (.hostBar2Access off n true bs) s = .next (u.store b bs)) ∧
      (∀ c, r = .ok c → windowOk c pLoad stashBase (stashBase + stashSize) b n = true → ∃ t,
        exec (.hostBar2Access off n false bs) s = .next t ∧ t.rd = s.peekN b n ∧ t.mem = s.mem) ∧
      ((∀ c, r ≠ .ok c) → exec (.hostBar2Access off n true bs) s = .next (u.bump F.PCI_ERR_WINDOW) ∧
        exec (.hostBar2Access off n false bs) s = .next { u.bump F.PCI_ERR_WINDOW with rd := List.replicate n 0xFF })) ∧
    (s.fnLive fn = true → pf → ∀ r u b, b = (s.bar4Of fn).2 + off → s.resolveHandle (s.bar4Of fn).1 fn = (r, u) →
      (∀ c, r = .ok c → windowOk c pStore ddrBase s.ddrTop b bs.length = true →
        exec (.hostBar4Access fn off n true bs) s = .next (u.store b bs)) ∧
      (∀ c, r = .ok c → windowOk c pLoad ddrBase s.ddrTop b n = true → ∃ t,
        exec (.hostBar4Access fn off n false bs) s = .next t ∧ t.rd = s.peekN b n ∧ t.mem = s.mem) ∧
      (∀ c, r = .ok c → windowOk c pStore ddrBase s.ddrTop b bs.length = false →
        exec (.hostBar4Access fn off n true bs) s = .next (u.bump F.PCI_ERR_WINDOW))) ∧
    (k < 1536 → k < s.vectorCount fn → s.heldInReset .PCI = false → ∃ t, exec (.msixUnmask (.host fn) k) s = .next t ∧
      t.msixOpen fn k = true ∧ fn * 2048 + k ∉ t.host.pba ∧ t.regs = s.regs ∧ t.mem = s.mem ∧
      (fn * 2048 + k ∉ s.host.pba → t.sent = s.sent) ∧
      (fn * 2048 + k ∈ s.host.pba → t.sent =
        .msix (fn * 2048 + k) (s.msixWord fn (4 * k + 1) ++ s.msixWord fn (4 * k)) (s.msixWord fn (4 * k + 2)) :: s.sent))

/-- DMA channels, the handle fence and result rings (R14, R474 to R478): TAIL, CONS and HALT by their registers; a descriptor that fails its
handle, bounds or permission moves no byte; the data moves whole; its status and HEAD go to the host, and any status but 0 halts; a fence
drops every cached entry and is done when no descriptor from before it runs; a row's record is copied, held, or counted STALE or LOST. -/
def Obligations.HostEngines : Prop :=
  ∀ (s : State) (who : Who) (c r row : Nat) (v : Word) (d data : List Byte) (ok : Bool), c < 8 → r < 16 →
    let fn := s.fld F.PCI_DMA_CTRL_FN c
    let head := s.fld F.PCI_DMA_HEAD c
    let next := (head + 1) % s.fld F.PCI_DMA_SIZE c
    let live := s.dmaActive c = true ∧ s.fnLinked fn = true ∧ d.length = 32 ∧ (1 ≤ s.fld F.PCI_DMA_SIZE c ∧ s.fld F.PCI_DMA_SIZE c ≤ 65536)
    let ended := fun (t : State) (st : Nat) => t.fld F.PCI_DMA_HEAD c = next ∧
      Sent.hostWrite (BitVec.ofNat 64 (s.pair F.PCI_DMA_RING_LO F.PCI_DMA_RING_HI c + 32 * head + 3)) [BitVec.ofNat 8 st] false ∈ t.sent ∧
      Sent.hostWrite (BitVec.ofNat 64 (s.pair F.PCI_DMA_WB_LO F.PCI_DMA_WB_HI c)) (leBytes 4 next) false ∈ t.sent ∧
      t.flag F.PCI_DMA_STAT_1 c = decide (st ≠ 0)
    let done := exec (.dmaDescriptorDone c d data ok) s
    let rows := s.host.rows.get r []
    let size := 2 ^ s.fld F.PCI_RR_CTRL_ELOG r
    (s.reaches who ⟨.PCI_DMA_TAIL, c, 0⟩ v = true → ∃ t, exec (.dmaTailWrite who c v) s = .next t ∧
      t.fld F.PCI_DMA_TAIL c = bitsOf v.toNat 15 0 ∧ t = { s with regs := t.regs }) ∧
    (s.reaches who ⟨.PCI_DMA_STAT, c, 0⟩ 2 = true → ∃ t, exec (.dmaHaltClear who c) s = .next t ∧ t.flag F.PCI_DMA_STAT_1 c = false ∧
      t = { s with regs := t.regs }) ∧
    (s.reaches who ⟨.PCI_RR_CONS, r, 0⟩ v = true → ∃ t, exec (.resultRingConsWrite who r v) s = .next t ∧
      t.fld F.PCI_RR_CONS r = v.toNat ∧ t = { s with regs := t.regs }) ∧
    (live → c ∉ s.host.busy → (ok = true → leAt d 2 1 % 2 = 1 → data.length = leAt d 4 4) →
      ∀ h u, s.resolveHandle (leAt d 0 2) fn = (h, u) →
        (h = .invalid → ∃ t, done = .next t ∧ ended t 1 ∧ t.mem = s.mem) ∧
        (∀ a, h = .poison a → ∃ t, done = .next t ∧ ended t 3 ∧ t.mem = s.mem) ∧
        (∀ cap, h = .ok cap →
          let a := capBase cap + leAt d 8 8
          let n := leAt d 4 4
          let h2d := leAt d 2 1 % 2 = 1
          let good := 1 ≤ n ∧ n ≤ 2 ^ 24 ∧ capCovers cap a n = true ∧ s.dmaReach a n = true
          (¬ good → ∃ t, done = .next t ∧ ended t 2 ∧ t.mem = s.mem) ∧
          (good → h2d → capHas cap pStore = false → ∃ t, done = .next t ∧ ended t 2 ∧ t.mem = s.mem) ∧
          (good → ¬ h2d → capHas cap pLoad = false → ∃ t, done = .next t ∧ ended t 2 ∧ t.mem = s.mem) ∧
          (good → h2d → capHas cap pStore = true → ∃ t, done = .next t ∧ ended t (if ok then 0 else 4) ∧
            t.mem = (u.store a (data.take n)).mem) ∧
          (good → ¬ h2d → capHas cap pLoad = true → ∃ t, done = .next t ∧ t.mem = s.mem ∧
            Sent.hostWrite (BitVec.ofNat 64 (leAt d 16 8)) (s.peekN a n) (s.poisoned a n) ∈ t.sent ∧
            ended t (if s.poisoned a n then 3 else if ok then 0 else 4)))) ∧
    (s.dmaActive c = false → done = .next s ∧ exec (.pcieCompletionTimeout c d data) s = .next s) ∧
    (live → ∃ t, exec (.pcieCompletionTimeout c [] []) s = .next t ∧ ended t 4 ∧ t.mem = s.mem ∧
      t.tally.get 0x13 0 = s.tally.get 0x13 0 + 1) ∧
    (s.mayPut who F.PCI_HFENCE_31 1 0 0 = true → ∃ t, exec (.handleFence who) s = .next t ∧ t.hcache = [] ∧ t.flag F.PCI_HFENCE_0 = false ∧
      t.host.busy = (List.range 8).filter s.dmaActive ∧ t.mem = s.mem) ∧
    ((∀ x ∈ s.host.busy, s.dmaActive x = false) → ∃ t, exec .handleFenceDone s = .next t ∧ t.flag F.PCI_HFENCE_0 = true ∧
      t.host.busy = [] ∧ t.hcache = s.hcache ∧ t.mem = s.mem) ∧
    (∀ x ∈ s.host.busy, s.dmaActive x = true → exec .handleFenceDone s = .next s) ∧
    (s.flag F.PCI_RR_CTRL_EN r = false ∨ rows = [] → exec (.resultRecordCopy r) s = .next s) ∧
    (s.flag F.PCI_RR_CTRL_EN r = true → ∀ rest, rows = row :: rest →
      ∀ h u, s.resolveHandle (s.fld F.PCI_RR_H r) (s.fld F.PCI_RR_CTRL_FN r) = (h, u) →
        let copy := exec (.resultRecordCopy r) s
        let counts := fun (t : State) (f : Fld) => t.fld f r = min (s.fld f r + 1) 65535
        (h = .invalid → ∃ t, copy = .next t ∧ counts t F.PCI_RR_CNT_0 ∧ t.host.rows.get r [] = rest ∧ t.sent = s.sent) ∧
        (∀ cap, h = .ok cap →
          let a := capBase cap + row % 2 ^ s.fld F.PCI_RR_CTRL_DLOG r * size
          capHas cap pLoad = true → capCovers cap a size = true → s.dmaReach a size = true → s.poisoned a 8 = false → 3 ≤ s.fld F.PCI_RR_CTRL_ELOG r →
            let first := s.peekNat a 8
            (first = row → s.rrFull r = false → ∃ t, copy = .next t ∧ t.host.rows.get r [] = rest ∧
              t.fld F.PCI_RR_PROD r = (s.fld F.PCI_RR_PROD r + 1) % 2 ^ 32 ∧ t.mem = s.mem ∧
              Sent.hostWrite (BitVec.ofNat 64 (s.pair F.PCI_RR_HOST_LO F.PCI_RR_HOST_HI r +
                s.fld F.PCI_RR_PROD r % s.fld F.PCI_RR_HSIZE r * size)) (s.peekN a size) (s.poisoned a size) ∈ t.sent) ∧
            (first = row → s.rrFull r = true → s.flag F.PCI_RR_CTRL_POL r = false → ∃ t, copy = .next t ∧ counts t F.PCI_RR_CNT_16 ∧
              t.host.rows.get r [] = rest ∧ t.sent = s.sent) ∧
            (first = row → s.rrFull r = true → s.flag F.PCI_RR_CTRL_POL r = true → ∃ t, copy = .next t ∧ t.host.rows.get r [] = rows ∧
              t.sent = s.sent) ∧
            (row < first → s.flag F.PCI_RR_CTRL_POL r = true → ∃ t, copy = .next t ∧ counts t F.PCI_RR_CNT_16 ∧
              t.host.rows.get r [] = rest ∧ t.sent = s.sent) ∧
            (first ≠ row → s.flag F.PCI_RR_CTRL_POL r = false → ∃ t, copy = .next t ∧ counts t F.PCI_RR_CNT_0 ∧
              t.host.rows.get r [] = rest ∧ t.sent = s.sent)))

/-- The link, its resets, and accesses of other masters (R14, R442, R466, R467, R480, R503, R536): the function-level reset returns its
function's resources to reset values and leaves the web, the outputs and memory; PCIE_PERST_L holds every function; before EN a
configuration request is retried; JTAG needs its unlock; a control-bus timeout reads all ones, drops the write, or faults the hook. -/
def Obligations.HostLinkAndMatrix : Prop :=
  ∀ (s : State) (fn c r w a n rate width : Nat) (q : Nat) (v : Word) (bs : List Byte),
    let mine := fun x => s.flag F.PLQ_CTRL_OWNER x = true ∧ s.queueFn x = fn
    (s.fnLinked fn = true → q < 64 → mine q → (∀ x, x < 64 → mine x → x = q) → (s.plq q).older = none → (s.plq q).younger = none →
      (s.plq q).entry = none → (s.plq q).newOwner = none → s.flag F.PLQ_CTRL_EN q = true → s.qBindoff q = false →
      ∃ t, exec (.functionLevelReset fn) s = .next t ∧ t.flag F.PCI_STAT_FLR = true ∧ (t.plq q).cpl = [] ∧ (t.plq q).wait = [] ∧
        t.flag F.PLQ_CTRL_EN q = false ∧ t.flag F.PLQ_CTRL_OWNER q = true) ∧
    (s.fnLinked fn = true → (∀ x, x < 64 → ¬ mine x) →
      ∃ t, exec (.functionLevelReset fn) s = .next t ∧ t.flag F.PCI_STAT_FLR = true ∧ t.web = s.web ∧ t.ply = s.ply ∧ t.mem = s.mem ∧
        (c < 8 → s.fld F.PCI_DMA_CTRL_FN c = fn → ∀ k ∈ [RegKind.PCI_DMA_CTRL, .PCI_DMA_TAIL, .PCI_DMA_HEAD, .PCI_DMA_STAT, .PCI_DMA_SIZE],
          t.reg ⟨k, c, 0⟩ = k.resetWord) ∧
        (c < 8 → s.fld F.PCI_DMA_CTRL_FN c ≠ fn → t.reg ⟨.PCI_DMA_TAIL, c, 0⟩ = s.reg ⟨.PCI_DMA_TAIL, c, 0⟩) ∧
        (r < 16 → s.fld F.PCI_RR_CTRL_FN r = fn → t.host.rows.get r [] = [] ∧ t.reg ⟨.PCI_RR_CTRL, r, 0⟩ = RegKind.PCI_RR_CTRL.resetWord ∧
          t.fld F.PCI_RR_CNT_16 r = min (s.fld F.PCI_RR_CNT_16 r + (s.host.rows.get r []).length) 65535) ∧
        (fn = 0 → t.fld F.PCI_BAR2_H = 0 ∧ t.fld F.PCI_BAR4_H = 0 ∧ (s.voted = true → t.flag F.HKC_IRQ_CFG_PEND 0 186 = true) ∧
          (s.flag F.PCI_DMB_STAT_BUSY = true → t.flag F.PCI_DMB_STAT_BUSY = false ∧ t.fld F.PCI_DMB_ABORT = 0x08000000)) ∧
        ∀ k, k / 2048 = fn → k ∉ t.host.pba) ∧
    (s.fnLinked fn = false → exec (.functionLevelReset fn) s = .next s ∧ exec (.configurationRequest fn w true v) s = .next s) ∧
    (s.flag F.PCI_STAT_UP = true → exec .pcieLinkDown s =
      .next (((s.setFld F.PCI_STAT_UP 0).setFld F.PCI_STAT_LINKDOWN 1).raise 186)) ∧
    (s.flag F.PCI_STAT_UP = false → exec .pcieLinkDown s = .next s) ∧
    (s.host.perst = false → s.fld F.PCI_STAT_BIF ≠ 3 → 1 ≤ rate → rate ≤ 5 → width ∈ [1, 2, 4, 8, 16] → ∃ t,
      exec (.pcieLinkUp rate width) s = .next t ∧ t.flag F.PCI_STAT_UP = true ∧ t.fld F.PCI_STAT_RATE = rate ∧
      t.fld F.PCI_STAT_WIDTH = width ∧ (s.voted = true → t.flag F.HKC_IRQ_CFG_PEND 0 186 = true) ∧ t.mem = s.mem) ∧
    (s.host.perst = true ∨ s.fld F.PCI_STAT_BIF = 3 → exec (.pcieLinkUp rate width) s = .next s) ∧
    (s.host.perst = false → (∀ q, q < 64 → s.flag F.PLQ_CTRL_OWNER q = false) → ∃ t, exec .pciePerst s = .next t ∧ t.host.perst = true ∧
      t.flag F.PCI_STAT_UP = false ∧ (∀ k, k / 2048 < 12 → k ∉ t.host.pba) ∧ t.ply.q = s.ply.q ∧ t.mem = s.mem) ∧
    (s.host.perst = true → exec .pciePerst s = .next s ∧
      exec .pciePerstRelease s = .next { s.setFld F.PCI_CTRL_EN 0 with host := { s.host with perst := false } }) ∧
    (s.host.perst = false → exec .pciePerstRelease s = .next s) ∧
    (s.fnLinked fn = true → w < 1024 →
      (s.flag F.PCI_CTRL_EN = false → exec (.configurationRequest fn w true v) s = .next (s.send (.pcieRetry fn))) ∧
      (s.flag F.PCI_CTRL_EN = true →
        (∃ t, exec (.configurationRequest fn w true v) s = .next t ∧ t.host.cfg.get (fn * 1024 + w) 0 = v ∧ t.regs = s.regs ∧ t.mem = s.mem) ∧
        exec (.configurationRequest fn w false v) s =
          .next { s with rd := leBytes 4 (Config.cfgRead fn w (s.host.cfg.get (fn * 1024 + w) 0)).toNat })) ∧
    (1 ≤ n →
      (s.flag F.KTH_STAT_DBG = false → exec (.jtagDebugAccess a n false bs) s = .next (s.bump F.MTX_CNT_0)) ∧
      (s.flag F.KTH_STAT_DBG = true →
        (s.regionOfRange a n = .stash → s.kth.scope.testBit 1 = true → ∃ t, exec (.jtagDebugAccess a n false bs) s = .next t ∧
          t.rd = s.peekN a n ∧ t.mem = s.mem) ∧
        (s.regionOfRange a n = .stash → s.kth.scope.testBit 1 = false →
          exec (.jtagDebugAccess a n false bs) s = .next (s.bump F.MTX_CNT_0)) ∧
        (bs ≠ [] → s.regionOfRange a bs.length = .sram → s.kth.scope.testBit 0 = true → s.inFwWindow a bs.length = false →
          exec (.jtagDebugAccess a n true bs) s = .next (s.store a bs)) ∧
        (bs ≠ [] → s.regionOfRange a bs.length = .sram → s.kth.scope.testBit 0 = true → s.inFwWindow a bs.length = true →
          exec (.jtagDebugAccess a n true bs) s = .next s))) ∧
    (let counted := fun (t : State) (m : Nat) => t.fld F.MTX_CNT_16 = min (s.fld F.MTX_CNT_16 + 1) 65535 ∧
        t.tally.get 0x13 0 = s.tally.get 0x13 0 + 1 ∧ t.fld F.MTX_LASTTO_29 = m ∧ t.fld F.MTX_LASTTO_0 = a % 2 ^ 28 ∧ t.mem = s.mem
     (inCtrl a = true →
       (∃ t, exec (.controlBusTimeout (.host fn) a false) s = .next t ∧ counted t (masterCode (.host fn)) ∧ t.rd = List.replicate 4 0xFF) ∧
       (∃ t, exec (.controlBusTimeout (.host fn) a true) s = .next t ∧ counted t (masterCode (.host fn)) ∧ t.rd = s.rd)) ∧
     (∀ core thr p, s.coreLive core = true → thr < 4 →
       (∀ l rest, (s.th core thr).loads = l :: rest → l.ctrl = true → l.addr = a → l.fault = 0 → ∃ t,
         exec (.controlBusTimeout (.hook core thr p) a false) s = .next t ∧ counted t (masterCode (.hook core thr p)) ∧
         (t.th core thr).loads = { l with fault := 14 } :: rest) ∧
       (∀ e rest, (s.th core thr).sb = e :: rest → e.ctrl = true → e.addr = a → ∃ t,
         exec (.controlBusTimeout (.hook core thr p) a true) s = .next t ∧ counted t (masterCode (.hook core thr p)) ∧
         (t.th core thr).sb = rest ∧ (s.voted = true → t.flag F.HKC_IRQ_CFG_PEND 0 191 = true))))

/-! ### Gauge, power cap, sleep -/

/-- Junction readings, the rail and the gauge (R487 to R495, R499, R522): a reading sets its band with the hysteresis of R491, and no bed of
a set runs above its limit; 160 °C trips the device; the rail is what the beds need, or stays while AVSBus is lost; a measurement searches
each F_k down and puts the bed back or retires it. -/
def Obligations.GaugeAndRail : Prop :=
  ∀ (s : State) (who : Who) (b : Nat) (tm : Int) (ts : List (Nat × Int)) (lows needles : List Nat) (ring : Nat) (ok : Bool), b < 136 →
    let tuned := fun (t : State) => (t.pwr.avsLost = false → t.pwr.rail = t.railWanted) ∧
      (t.pwr.avsLost = true → t.pwr.rail = s.pwr.rail) ∧ (∀ n, ∀ x ∈ t.clockedBeds n, t.fset n ≤ t.limitNow x ∧ t.fset n ≤ t.stashLimit)
    let old := s.pwr.band.get b 0
    let junction := fun (band : Nat) => ∃ t, exec (.junctionRead [(b, tm)]) s = .next t ∧ t.pwr.band.get b 0 = band ∧
      t.capOf b = [1600, 1400, 1200].getD band 0 ∧ t.fld F.GAU_B_TJ_0 b = (tm % 65536).toNat ∧ t.pwr.hottest = tm ∧ tuned t ∧
      t.mem = s.mem ∧ t.web = s.web
    (tm < 1600 → (1230 ≤ tm → junction 2) ∧ (1200 ≤ tm → tm < 1230 → old = 2 → junction 2) ∧
      (1030 ≤ tm → tm < 1230 → old ≠ 2 → junction 1) ∧ (1030 ≤ tm → tm < 1200 → junction 1) ∧
      (1000 ≤ tm → tm < 1030 → 1 ≤ old → junction 1) ∧ (tm < 1030 → old = 0 → junction 0) ∧ (tm < 1000 → junction 0)) ∧
    ((∃ e ∈ ts, 1600 ≤ e.2) → ∃ t, exec (.junctionRead ts) s = .next t ∧ t.flag F.PWR_STAT_TRIP = true ∧ t.pwr.coreEn = false ∧
      .coreEn false ∈ t.sent ∧ t.flag F.TIO_ARM_ARMED = false ∧ ∀ n, (t.chan n).st = .idle) ∧
    (∃ t, exec .avsTransactionFail s = .next t ∧ t.flag F.PWR_SUPMON_AVSFAIL = true ∧ t.pwr.avsLost = true ∧ tuned t ∧ t.mem = s.mem ∧
      (s.voted = true → t.flag F.HKC_IRQ_CFG_PEND 0 180 = true)) ∧
    (s.pwr.avsLost = true →
      (ok = true → ∃ t, exec (.avsRetry ok) s = .next t ∧ t.pwr.avsLost = false ∧ .avs s.railWanted ∈ t.sent ∧ tuned t ∧ t.mem = s.mem) ∧
      (ok = false → exec (.avsRetry ok) s = .next (s.send (.avs s.railWanted)))) ∧
    (s.pwr.avsLost = false → exec (.avsRetry ok) s = .next s) ∧
    (s.reaches who ⟨.GAU_CTRL, 0, 0⟩ (BitVec.ofNat 32 (putBits (putBits (s.restWord ⟨.GAU_CTRL, 0, 0⟩) 8 8 1) 31 24 b)) = true →
      ∃ t, exec (.gaugeGo who b) s = .next t ∧ t.gau.next = some b ∧ t.fld F.GAU_CTRL_BED = b ∧
        t = { s with regs := t.regs, gau := { s.gau with next := some b } }) ∧
    (s.gau.bed = none → s.castOnDone = true → s.gau.take = [] → (∀ x, (s.bed x).swapped = false) → s.gau.next = some b →
      b ∉ s.setBeds (s.fld F.BED_CTRL_SET b) → s.flag F.BED_STAT_FENCED b = false → ∃ t, exec (.gaugeMeasurement []) s = .next t ∧
        t.gau.bed = some b ∧ t.gau.next = none ∧ t.flag F.GAU_STAT_BUSY = true ∧ t.fld F.GAU_STAT_BED = b ∧ t.web = s.web ∧ t.mem = s.mem) ∧
    (∀ x, s.gau.bed = some x ∨ s.castOnDone = false → exec (.gaugeMeasurement []) s = .next s) ∧
    (s.gau.bed = none → exec (.gaugeMeasurementEnd lows tm needles ring) s = .next s) ∧
    (s.gau.bed = some b → (∀ k, k < 16 → s.fld F.GAU_B_VF_0 b k = 0) → ∃ t,
      exec (.gaugeMeasurementEnd lows tm needles ring) s = .next t ∧ t.gau.bed = none ∧ t.flag F.GAU_STAT_BUSY = false ∧
      t.fld F.GAU_B_TJ_16 b = (tm % 65536).toNat ∧ t.gau.ring.get b 0 = ring ∧ tuned t ∧ t.mem = s.mem ∧
      (∀ k, k < 16 → t.fld F.GAU_B_VF_0 b k = 400 + 80 * k ∧
        ((∃ j, j ≤ k ∧ 835 < lows.getD j 0xFFFF) → t.fld F.GAU_B_VF_16 b k = 0xFFFF) ∧
        ((∀ j, j ≤ k → lows.getD j 0xFFFF ≤ 835) →
          t.fld F.GAU_B_VF_16 b k = min 835 (max 650 ((lows.getD k 0xFFFF + 4) / 5 * 5) + s.fld F.GAU_MARGIN))) ∧
      (needles = [] → s.gau.take = [] → (s.bed b).swapped = false → s.gau.back = none → s.flag F.BED_CTRL_EN b = false →
        (lows.getD 0 0xFFFF ≤ 835 → s.pwr.avsLost = false → t.flag F.BED_STAT_RETIRED b = s.flag F.BED_STAT_RETIRED b) ∧
        (835 < lows.getD 0 0xFFFF → t.flag F.BED_STAT_RETIRED b = true ∧ t.flag F.BED_CTRL_EN b = false ∧
          t.flag F.RPR_STAT_UNSAVED = true))) ∧
    (b ∈ s.setBeds (s.fld F.BED_CTRL_SET b) →
      let counted := fun (t : State) => t.fld F.TMO_CNT0_24 = min (s.fld F.TMO_CNT0_24 + 1) 255 ∧
        t.tally.get 0x13 0 = s.tally.get 0x13 0 + 1
      (s.flag F.BED_STAT_FENCED b = true ∨ (s.bed b).toWait ≠ none → ∃ t, exec (.bedRequestTimeout b) s = .next t ∧ counted t ∧
        t.ply = s.ply ∧ t.gau = s.gau) ∧
      (s.flag F.BED_STAT_FENCED b = false → (s.bed b).toWait = none → ∃ t, exec (.bedRequestTimeout b) s = .next t ∧ counted t ∧
        (t.bed b).lastTo = some s.uptime ∧ (s.voted = true → t.flag F.HKC_IRQ_CFG_PEND 0 178 = true) ∧
        ((s.bset (s.fld F.BED_CTRL_SET b)).mig ≠ none → (t.bed b).toWait ≠ none) ∧
        ((s.bset (s.fld F.BED_CTRL_SET b)).mig = none → (s.bset (s.fld F.BED_CTRL_SET b)).run = none →
          (∀ x ∈ s.setBeds (s.fld F.BED_CTRL_SET b), s.fld F.BED_CTRL_LPOS x = s.fld F.BED_CTRL_LPOS b → x = b) →
          t.flag F.BED_CTRL_EN b = false ∧
          ((s.bed b).lastTo = none → b ∈ t.gau.plan ∧ t.flag F.BED_STAT_RETIRED b = s.flag F.BED_STAT_RETIRED b) ∧
          (∀ x, (s.bed b).lastTo = some x → s.uptime < x + 3600000000000 → t.flag F.BED_STAT_RETIRED b = true)))) ∧
    (b ∉ s.setBeds (s.fld F.BED_CTRL_SET b) → exec (.bedRequestTimeout b) s = .next s)

/-- The power cap (R496): above 320 W the set that is not latency-qualified and runs fastest gives up 10 MHz; it is raised again once the
average has stayed below 310 W for 10 ms; between the two nothing moves. -/
def Sys2Proof.Claims.PowerCap : Prop :=
  ∀ (s : State) (p n : Nat),
    let l := (p :: s.pwr.samples).take 10
    let avg := l.foldl (· + ·) 0 / l.length
    let steps := fun (cap : Nat) => ∃ t, exec (.powerCapStep p) s = .next t ∧ t.pwr.samples = l ∧ t.fld F.PWR_PKG_0 = avg % 65536 ∧
      t.pwr.cap.get n 0 = cap ∧ (∀ m, m ≠ n → t.pwr.cap.get m 0 = s.pwr.cap.get m 0) ∧ t.mem = s.mem ∧ t.web = s.web ∧
      (∀ m ∈ t.liveSets, 0 < t.pwr.cap.get m 0 → t.flag F.PWR_STAT_CAPACT = true)
    let fmin := s.fld F.GAU_FMIN
    (3200 < avg → n ∈ s.liveSets → s.latq n = false → fmin + 10 ≤ s.fset n →
      (∀ m ∈ s.liveSets, s.latq m = false → m ≠ n → s.fset m < s.fset n ∨ (s.fset m = s.fset n ∧ n < m)) → steps (s.pwr.cap.get n 0 + 10)) ∧
    (3100 ≤ avg → avg ≤ 3200 → steps (s.pwr.cap.get n 0)) ∧
    (avg < 3100 → s.pwr.low < 100 → steps (s.pwr.cap.get n 0)) ∧
    (avg < 3100 → 100 ≤ s.pwr.low → n ∈ s.liveSets → s.latq n = false → 0 < s.pwr.cap.get n 0 → s.fset n < 1600 →
      (∀ m ∈ s.liveSets, m ≠ n → s.pwr.cap.get m 0 = 0) → steps (s.pwr.cap.get n 0 - 10))

/-- Sleep states (R483 to R486): web-stopped is entered while the web stands and no ply runs, and every bed is gated; the exit powers the
enabled beds; standby is entered from IDLE and loses stash, queues and output queues; the return ends with the device in service. -/
def Sys2Proof.Claims.SleepStates : Prop :=
  ∀ (s : State) (who : Who) (stash extra : Nat),
    let sleep := s.fld F.PWR_STAT_SLEEP
    let may := s.flag F.PWR_CTRL_WSDEN = true ∧ sleep = 0 ∧ s.castOnDone = true ∧ s.webIdle = true ∧ ∀ n, n < 64 → s.setBusy n = false
    let irq := fun (t : State) => s.voted = true → t.flag F.HKC_IRQ_CFG_PEND 0 180 = true
    (may → ∃ t, exec .webStoppedEntry s = .next t ∧ t.fld F.PWR_STAT_SLEEP = 1 ∧ t.flag F.PWR_STAT_WAKING = false ∧ irq t ∧
      t.fld F.PWR_CNT_16 = min (s.fld F.PWR_CNT_16 + 1) 65535 ∧
      (∀ b, b < 136 → t.flag F.BED_STAT_PWRGATED b = true ∧ (t.bed b).patched = false) ∧ t.mem = s.mem ∧ t.web = s.web) ∧
    (¬ may → exec .webStoppedEntry s = .next s) ∧
    (sleep = 1 → exec .webStoppedExit s = .next (s.setFld F.PWR_STAT_WAKING 1)) ∧
    (sleep ≠ 1 → exec .webStoppedExit s = .next s ∧ exec .wakeComplete s = .next s) ∧
    (sleep = 1 → s.flag F.PWR_STAT_WAKING = true → ∃ t, exec .wakeComplete s = .next t ∧ t.fld F.PWR_STAT_SLEEP = 0 ∧
      t.flag F.PWR_STAT_WAKING = false ∧ irq t ∧ (∀ b, b < 136 → s.flag F.BED_CTRL_EN b = true → t.flag F.BED_STAT_PWRGATED b = false) ∧
      (∀ b, b < 136 → s.flag F.BED_CTRL_EN b = false → t.flag F.BED_STAT_PWRGATED b = s.flag F.BED_STAT_PWRGATED b) ∧
      t.mem = s.mem ∧ t.web = s.web) ∧
    (s.mayPut who F.PWR_CTRL_STBY 1 0 0 = true →
      (s.devState = 1 → sleep ≠ 2 → ∃ t, exec (.stby who) s = .next t ∧ t.fld F.PWR_STAT_SLEEP = 2 ∧ irq t ∧
        t.flag F.TIO_ARM_ARMED = false ∧ (∀ q, t.plq q = Plq.init) ∧ (∀ o, (t.out o).q = []) ∧
        (∀ a, s.regionOf a = .stash → t.peek a = 0) ∧ (∀ a, s.regionOf a = .ddr → t.peek a = s.peek a)) ∧
      (s.devState ≠ 1 → ∃ t, exec (.stby who) s = .next t ∧ t.ply = s.ply ∧ t.mem = s.mem ∧ t.fld F.PWR_STAT_SLEEP = sleep)) ∧
    (s.mayPut who F.PWR_CTRL_WAKE 1 0 0 = true →
      (sleep = 2 → ∃ t, exec (.wake who) s = .next t ∧ t.flag F.PWR_STAT_WAKING = true ∧ t.fld F.PWR_STAT_SLEEP = 2 ∧ t.mem = s.mem) ∧
      (sleep ≠ 2 → ∃ t, exec (.wake who) s = .next t ∧ t.flag F.PWR_STAT_WAKING = s.flag F.PWR_STAT_WAKING ∧ t.mem = s.mem)) ∧
    (sleep = 2 → s.flag F.PWR_STAT_WAKING = true → ∃ t, exec (.standbyExitDone [] stash extra []) s = .next t ∧
      t.fld F.PWR_STAT_SLEEP = 0 ∧ t.flag F.PWR_STAT_WAKING = false ∧ irq t ∧ t.pwr.leaving = false ∧
      (s.odv 0x2700 3 = 1 → t.odv 0x2700 3 = 2) ∧ (∀ b, b < 136 → s.flag F.BED_CTRL_EN b = true → t.flag F.BED_STAT_PWRGATED b = false) ∧
      t.mem = s.mem) ∧
    (sleep ≠ 2 ∨ s.flag F.PWR_STAT_WAKING = false → exec (.standbyExitDone [] stash extra []) s = .next s)

/-! ### Resets, supplies, clocks -/

/-- The reset levels (R8, R25, R392, R509 to R513, R515): a cold or warm reset disarms, takes every register that it does not keep to its
reset value, every channel to IDLE with its row counter, and leaves the always-on island, the time base, the encoder counts, the fuses, the
flash and the queue of commands; a warm reset keeps DDR; a power-on reset keeps nothing of the registers; a hook reset restarts the complex
alone; TMO_RESET performs the highest level written; channel and bed resets act on theirs. -/
def Obligations.ResetLevels : Prop :=
  ∀ (s : State) (who : Who) (tr : Trig) (n b : Nat),
    let lasts := fun (t : State) => t.pending = s.pending ∧ t.kth.burned = s.kth.burned ∧ t.kth.prog = s.kth.prog ∧
      t.kth.revoke = s.kth.revoke ∧ t.cast.flash = s.cast.flash ∧ t.uptime = s.uptime ∧ t.free = s.free
    let system := fun (t : State) (lv tc : Nat) => lasts t ∧ t.fld F.TMO_RCAUSE_LEVEL = lv ∧ t.fld F.TMO_RCAUSE_TRIG = tc ∧
      t.fld F.TMO_RCAUSE_COUNT = min (s.fld F.TMO_RCAUSE_COUNT + 1) (2 ^ (F.TMO_RCAUSE_COUNT.hi + 1 - F.TMO_RCAUSE_COUNT.lo) - 1) ∧
      t.pair F.TMO_RTIME_LO F.TMO_RTIME_HI = s.now ∧ t.tb = s.tb ∧ (∀ e, (t.enc e).count = (s.enc e).count) ∧
      (∀ m, (t.chan m).st = .idle ∧ (t.chan m).row = (s.chan m).row) ∧ t.flag F.TIO_ARM_ARMED = false ∧
      (∀ o, o < 64 → (t.out o).q = [] ∧ (t.out o).pin = t.pinTarget o) ∧ t.ect.al = 1 ∧ (∀ q, t.plq q = Plq.init) ∧
      (∀ r : Reg, keepMask (lv == 2) r.kind = 0 → t.reg r = r.kind.resetWord) ∧ t.mem = (if lv = 2 then s.warmMem else State.reset.mem)
    let hooked := fun (t : State) (tc : Nat) => t.pending = s.pending ∧ t.fld F.TMO_RCAUSE_LEVEL = 3 ∧ t.fld F.TMO_RCAUSE_TRIG = tc ∧
      t.flag F.TIO_ARM_ARMED = false ∧ (∀ m, t.chan m = s.chan m) ∧ t.ply = s.ply ∧ t.fld F.TMO_CASTON_STAGE = 1 ∧
      t.fld F.TMO_CNT0_0 = min (s.fld F.TMO_CNT0_0 + 1) 255 ∧ t.voted = true ∧
      (s.castOnDone = true → t.cast.hookOnly = true) ∧ (∀ o, (t.out o).q = [])
    let channel := fun (t : State) => (t.chan n).st = .bindoff ∧ (∀ m, m ≠ n → t.chan m = s.chan m) ∧
      (∀ q ∈ s.pinnedQueues n, q < 64 → t.fld F.PLQ_BIND_EPOCH q = (s.fld F.PLQ_BIND_EPOCH q + 1) % 65536) ∧ t.mem = s.mem
    (coldTrig tr = true → ∃ t, exec (.coldReset tr) s = .next t ∧ system t 1 tr.code) ∧
    (coldTrig tr = false → exec (.coldReset tr) s = .next s) ∧
    (warmTrig tr = true → ∃ t, exec (.warmReset tr) s = .next t ∧ system t 2 tr.code) ∧
    (warmTrig tr = false → exec (.warmReset tr) s = .next s) ∧
    (hookTrig tr = true → ∃ t, exec (.hookComplexReset tr) s = .next t ∧ hooked t tr.code) ∧
    (hookTrig tr = false → exec (.hookComplexReset tr) s = .next s) ∧
    (∃ t, exec .powerOnReset s = .next t ∧ lasts t ∧ (∀ r : Reg, t.reg r = r.kind.resetWord) ∧ t.mem = State.reset.mem ∧
      t.tb.time = 0 ∧ (∀ m, t.chan m = State.reset.chan m) ∧ t.ect.al = 1 ∧ (∀ q, t.plq q = Plq.init)) ∧
    (s.mayPut who F.TMO_RESET_COLD 1 0 0 = true → ∃ t, exec (.cold who) s = .next t ∧ system t 1 3) ∧
    (s.mayPut who F.TMO_RESET_WARM 1 0 0 = true → ∃ t, exec (.warm who) s = .next t ∧ system t 2 3) ∧
    (s.mayPut who F.TMO_RESET_HOOK 1 0 0 = true → ∃ t, exec (.hook who) s = .next t ∧ hooked t 3) ∧
    (n < 16 → s.leaderBusy n = false → (s.chan n).st = .run → (s.ich n).feed = [] → s.flag F.CXP_CH_ISTAT_RUN n = true →
      (∃ t, exec (.channelReset n) s = .next t ∧ channel t) ∧
      (s.reaches who ⟨.TMO_RESET, 0, 0⟩ (BitVec.ofNat 32 (2 ^ 16 + n)) = true → ∃ t, exec (.chgo who n) s = .next t ∧ channel t)) ∧
    (n < 16 → s.leaderBusy n = false → (s.chan n).st ≠ .run → s.pinnedQueues n = [] → exec (.channelReset n) s = .next s) ∧
    (b < 136 → s.mayPut who F.BED_CTRL_RESET 1 b 0 = true →
      let st := s.fld F.BED_CTRL_SET b
      (b ∉ s.setBeds st → s.flag F.BED_CTRL_EN b = false → ∃ t, exec (.bedReset who b) s = .next t ∧ t.fld F.BED_STAT_OUTST b = 0 ∧
        t.flag F.BED_STAT_FENCED b = false ∧ t.mem = s.mem ∧ t.web = s.web ∧ (∀ x, x ≠ b → t.bed x = s.bed x)) ∧
      (b ∈ s.setBeds st → s.queuesOf st ≠ [] → (s.bset st).mig ≠ none → ∃ t, exec (.bedReset who b) s = .next t ∧
        (t.bed b).toWait = some false ∧ t.mem = s.mem ∧ t.web = s.web)) ∧
    (∀ c th p v, s.reaches (.hook c th p) ⟨.TMO_KICK, 0, 0⟩ v = true → ∃ t, exec (.watchdogKick (.hook c th p) v) s = .next t ∧
      t.th c th = { s.th c th with kicked := s.uptime } ∧ t = { s with hook := t.hook }) ∧
    (s.pwr.coreEn = false → s.flag F.PWR_STAT_TRIP = true → ∃ t, exec .thermalRestart s = .next t ∧ t.fld F.TMO_RCAUSE_LEVEL = 1 ∧
      t.fld F.TMO_RCAUSE_TRIG = 4 ∧ t.pwr.coreEn = true ∧ .coreEn true ∈ t.sent ∧ t.mem = State.reset.mem) ∧
    (s.pwr.coreEn = true ∨ s.flag F.PWR_STAT_TRIP = false → exec .thermalRestart s = .next s)

/-- Reset inputs, supplies, REFCK and CORE_EN (R523 to R527, R536): each event with the reset that it causes, what it records, and what it
does where its condition does not hold. -/
def Obligations.SuppliesAndClocks : Prop :=
  ∀ (s : State) (x : Supply) (xs : List Supply) (por : Bool) (straps : Nat),
    let cold := fun (t : State) (tc : Nat) => t.fld F.TMO_RCAUSE_LEVEL = 1 ∧ t.fld F.TMO_RCAUSE_TRIG = tc ∧ t.mem = State.reset.mem ∧
      t.flag F.TIO_ARM_ARMED = false ∧ t.ect.al = 1 ∧ t.pending = s.pending
    let power := fun (t : State) => t.mem = State.reset.mem ∧ t.tb.time = 0 ∧ t.ect.al = 1 ∧ t.pending = s.pending
    let core := fun (t : State) (on : Bool) => t.pwr.coreEn = on ∧ .coreEn on ∈ t.sent
    (s.pwr.porst = false → ∃ t, exec .porstL s = .next t ∧ power t ∧ core t false ∧ t.pwr.porst = true ∧
      ∀ r : Reg, t.reg r = r.kind.resetWord) ∧
    (s.pwr.porst = true → exec .porstL s = .next s) ∧
    (s.pwr.sysrst = false → s.pwr.porst = false → ∃ t, exec .sysrstL s = .next t ∧ cold t 1 ∧ t.pwr.sysrst = true) ∧
    (s.pwr.sysrst = false → s.pwr.porst = true → exec .sysrstL s = .next { s with pwr := { s.pwr with sysrst := true } }) ∧
    (s.pwr.sysrst = true → exec .sysrstL s = .next s) ∧
    (straps < 4 →
      (por = true → s.pwr.porst = true → exec (.resetInputRelease por straps) s =
        .next { s.setFld F.PCI_STAT_BIF straps with pwr := { s.pwr with porst := false } }) ∧
      (por = false → s.pwr.sysrst = true → exec (.resetInputRelease por straps) s =
        .next { s.setFld F.PCI_STAT_BIF straps with pwr := { s.pwr with sysrst := false } }) ∧
      (por = false → s.pwr.sysrst = false → exec (.resetInputRelease por straps) s = .next s)) ∧
    (supplyBit x = none → ∃ t, exec (.supplyBelowThreshold x) s = .next t ∧ power t) ∧
    (∀ f, supplyBit x = some f →
      (s.pwr.coreEn = true ∨ afterCoreEn x = false → ∃ t, exec (.supplyBelowThreshold x) s = .next t ∧ cold t 1 ∧ t.flag f = true) ∧
      (s.pwr.coreEn = false → afterCoreEn x = true → exec (.supplyBelowThreshold x) s = .next s)) ∧
    (let up := s.pwr.porst = false ∧ s.pwr.coreEn = false ∧ s.flag F.PWR_STAT_TRIP = false
     let on := { s.send (.coreEn true) with pwr := { s.pwr with coreEn := true } }
     (up → exec .coreEnRise s = .next on ∧ exec .coreEnRetry s = .next on) ∧
     (¬ up → exec .coreEnRise s = .next s ∧ exec .coreEnRetry s = .next s)) ∧
    (s.pwr.coreEn = true → s.fld F.TMO_CASTON_STAGE = 0 → xs ≠ [] → (∀ y ∈ xs, afterCoreEn y = true) → ∃ t,
      exec (.supplyTimeout xs) s = .next t ∧ core t false ∧ (∀ y ∈ xs, ∀ f, supplyBit y = some f → t.flag f = true) ∧ t.mem = s.mem) ∧
    (s.pwr.coreEn = false ∨ s.fld F.TMO_CASTON_STAGE ≠ 0 → exec (.supplyTimeout xs) s = .next s) ∧
    (s.pwr.coreEn = true → ∃ t, exec .coreOvervoltage s = .next t ∧ cold t 1 ∧ core t false ∧ t.flag F.PWR_SUPMON_COREOV = true) ∧
    (s.pwr.coreEn = false → exec .coreOvervoltage s = .next s) ∧
    (s.tb.refLost = false → ∃ t, exec .refckLoss s = .next t ∧ cold t 10 ∧ t.tb = { s.tb with refLost := true, phase := 0 } ∧
      t.flag F.TBS_STAT_HOLDOVER = true) ∧
    (s.tb.refLost = true → exec .refckLoss s = .next s ∧ ∃ t, exec .refckReturn s = .next t ∧ t.tb = { s.tb with refLost := false } ∧
      t = { s with tb := t.tb, regs := t.regs } ∧
      (s.fld F.TBS_CTRL_SRC = 0 → t.flag F.TBS_STAT_HOLDOVER = false) ∧
      (s.fld F.TBS_CTRL_SRC = 1 ∨ s.fld F.TBS_CTRL_SRC = 2 → t.regs = s.regs)) ∧
    (s.tb.refLost = false → exec .refckReturn s = .next s)

/-! ### Rules as the spec states them -/

/-- R36 and R110 whole: a write of TBS_SET while a channel is in RUN changes neither the time base nor what is owed to it and sets
SET_REFUSED; a write of a mailbox's CMD with GO while its BUSY is 1 sets REFUSED and changes nothing else. -/
def Obligations.RefusedWrites : Prop :=
  ∀ (s : State) (who : Who) (k : Nat) (v : Word), k < 32 →
    (s.reaches who ⟨.TBS_SET_HI, 0, 0⟩ v = true → s.anyRun = true → ∃ t, exec (.tbsSetWrite who v) s = .next t ∧ t.tb = s.tb ∧
      t.flag F.TBS_STAT_SETREFUSED = true ∧ t.mem = s.mem ∧ t.web = s.web) ∧
    (s.reaches who ⟨.CXP_MBX_CMD, k, 0⟩ v = true → setBit v 31 = true → s.flag F.CXP_MBX_STAT_BUSY k = true →
      exec (.mailboxGo who k v) s = .next (s.setFld F.CXP_MBX_STAT_REFUSED 1 k))

/-- R113: the stash holds no tags: a capability stored there leaves its 16 bytes, and what is read back as a capability is untagged. -/
def Obligations.StashHoldsNoTags : Prop :=
  ∀ (s : State) (a : Nat) (bits : Quad) (tag : Bool), a % 16 = 0 → s.regionOf a = .stash → memWf s.mem = true →
    (s.storeCap a bits tag).peekN a 16 = leBytes 16 bits.toNat ∧ (s.storeCap a bits tag).tagAt a = false ∧ (s.peekCap a).tag = false

/-! ### Statements made of the claims above -/

/-- The state after reset, and the invariant there: ResetState and ResetHasInvariant. -/
def Obligations.StateAfterReset : Prop := ResetState ∧ ResetHasInvariant

/-- Register writes field by field, LO/HI pairs and clearing reads: RegisterWrite and PairsAndClearingReads. -/
def Obligations.RegisterWritesAndPairs : Prop := RegisterWrite ∧ PairsAndClearingReads

/-- The time base's sources, TBS_SET and the encoders: TimeBaseSources and EncodersCount. -/
def Obligations.TimeBaseAndEncoders : Prop := TimeBaseSources ∧ EncodersCount

/-- Course boundaries and the entry of a channel into RUN: CourseBoundary and ChannelEntersRun. -/
def Obligations.BoundariesAndEntryToRun : Prop := CourseBoundary ∧ ChannelEntersRun

/-- The output scheduler and the event window: SchedulerPerforms and EventWindow. -/
def Obligations.SchedulerAndEventWindow : Prop := SchedulerPerforms ∧ EventWindow

/-- Ends of pulses, windows and holds; the bind-off of an output: OutputEnds and OutputBindoff. -/
def Obligations.OutputEndsAndBindoff : Prop := OutputEnds ∧ OutputBindoff

/-- CoaXPress links and the pairing of line headers: LinkStates and LineHeadersPair. -/
def Obligations.LinksAndLineHeaders : Prop := LinkStates ∧ LineHeadersPair

/-- Ends of courses, release rows, drop logs and ingest bind-off: CourseEnds and ReleaseAndIngestBindoff. -/
def Obligations.CourseEndsAndReleases : Prop := CourseEnds ∧ ReleaseAndIngestBindoff

/-- The stash map and the transparent bank test: StashMap and BankTest. -/
def Obligations.StashMapAndBankTest : Prop := StashMap ∧ BankTest

/-- Stash requests at the banks and their grants: StashRequests and StashGrants. -/
def Obligations.StashRequestsAndGrants : Prop := StashRequests ∧ StashGrants

/-- DDR requests, errors, scrub and the recovery of a channel: DdrRequests and DdrRecovery. -/
def Obligations.DdrRequestsAndRecovery : Prop := DdrRequests ∧ DdrRecovery

/-- Migration of positions; bind-off of queues and channels: Migration and QueueAndChannelBindoff. -/
def Obligations.MigrationAndBindoff : Prop := Migration ∧ QueueAndChannelBindoff

/-- Integer and floating-point results of beds and hook cores: IntegerResults and FloatingResults. -/
def Obligations.ArithmeticResults : Prop := IntegerResults ∧ FloatingResults

/-- Hook integer, move and packed-decimal instructions: HookIntegers and HookMovesAndDecimal. -/
def Obligations.HookIntegersMovesAndDecimal : Prop := HookIntegers ∧ HookMovesAndDecimal

/-- Hook loads and the load delay: HookLoads and LoadDelay. -/
def Obligations.HookLoadsAndDelay : Prop := HookLoads ∧ LoadDelay

/-- RETX, BRK, WAIT, and the control of threads: ReturnAndWait and ThreadControl. -/
def Obligations.ReturnsAndThreads : Prop := ReturnAndWait ∧ ThreadControl

/-- The voter and checked plies: Voting and CheckedPlies. -/
def Obligations.VotingAndCheckedPlies : Prop := Voting ∧ CheckedPlies

/-- Process data, distributed clock events and FoE: ProcessData and FileTransfer. -/
def Obligations.ProcessDataAndFiles : Prop := ProcessData ∧ FileTransfer

/-- The power cap and the sleep states: PowerCap and SleepStates. -/
def Obligations.PowerAndSleep : Prop := PowerCap ∧ SleepStates

end
end

