-- ==== Sys2Proof/Laws/Addr.lean ====
section
/-!
SUPPORT. Sys2Proof/Laws/Addr.lean: the address map: every register of every table has an address of its own, and reading the address
gives that register back (R463, R465).
-/
namespace Sys2Proof

/-- First address and extent of a table, for the comparison of two tables. -/
def RegInfo.start (n : RegInfo) : Nat := n.block.base + n.off
def RegInfo.inner (n : RegInfo) : Nat := n.stride2 * (n.count2 - 1)
def RegInfo.extent (n : RegInfo) : Nat := n.stride * (n.count - 1) + n.inner

/-- Two tables share no address: one ends before the other begins; or their instances lie in separate parts of one stride; or their
addresses differ in a common divisor of all strides. -/
def RegInfo.apart (n m : RegInfo) : Bool :=
  decide (n.start + n.extent < m.start) || decide (m.start + m.extent < n.start)
  || (decide (0 < n.stride) && decide (n.stride = m.stride) && decide (n.start % n.stride + n.inner < n.stride)
      && decide (m.start % n.stride + m.inner < n.stride)
      && (decide (n.start % n.stride + n.inner < m.start % n.stride) || decide (m.start % n.stride + m.inner < n.start % n.stride)))
  || (let g := Nat.gcd (Nat.gcd n.stride n.stride2) (Nat.gcd m.stride m.stride2)
      decide (n.start % g ≠ m.start % g))

/-- A table's own instances do not meet. -/
def RegInfo.selfApart (n : RegInfo) : Bool :=
  decide (0 < n.count2) &&
  (if n.stride = 0 then decide (n.count = 1) && (decide (n.count2 = 1) && decide (n.stride2 = 0))
   else decide (n.inner < n.stride) && (decide (n.stride2 ≠ 0) || decide (n.count2 = 1)))

def pairwiseApart : List RegInfo → Bool
  | [] => true
  | n :: t => (t.all fun m => n.apart m) && pairwiseApart t

theorem tables_apart : pairwiseApart (RegKind.all.map RegKind.info) = true := by decide +kernel

theorem tables_self : (RegKind.all.all fun k => k.info.selfApart) = true := by decide +kernel

theorem RegKind.mem_all (k : RegKind) : k ∈ RegKind.all := by
  have h : RegKind.all.contains k = true := by cases k <;> decide +kernel
  exact List.contains_iff_mem.mp h

theorem Reg.bounds {r : Reg} (h : r.ok = true) : r.i < r.kind.info.count ∧ r.j < r.kind.info.count2 := by
  simp only [Reg.ok, Bool.and_eq_true, decide_eq_true_eq] at h
  exact h.1

theorem RegInfo.inner_le {n : RegInfo} {j : Nat} (h : j < n.count2) : n.stride2 * j ≤ n.inner :=
  Nat.mul_le_mul_left _ (by omega)

theorem RegInfo.extent_le {n : RegInfo} {i j : Nat} (hi : i < n.count) (hj : j < n.count2) :
    n.stride * i + n.stride2 * j ≤ n.extent :=
  Nat.add_le_add (Nat.mul_le_mul_left _ (by omega)) (RegInfo.inner_le hj)

/-- Tables that are apart share no address. -/
theorem RegInfo.apart_ne {n m : RegInfo} (h : n.apart m = true) {i j i' j' : Nat} (hi : i < n.count) (hj : j < n.count2)
    (hi' : i' < m.count) (hj' : j' < m.count2) :
    n.start + n.stride * i + n.stride2 * j ≠ m.start + m.stride * i' + m.stride2 * j' := by
  have e := RegInfo.extent_le hi hj
  have e' := RegInfo.extent_le hi' hj'
  have f := RegInfo.inner_le hj
  have f' := RegInfo.inner_le hj'
  simp only [RegInfo.apart, Bool.or_eq_true, Bool.and_eq_true, decide_eq_true_eq] at h
  rcases h with ((h | h) | ⟨⟨⟨⟨h0, hs⟩, ha⟩, hb⟩, hc⟩) | h
  · omega
  · omega
  · intro hh
    have a1 : (n.start + n.stride * i + n.stride2 * j) % n.stride = n.start % n.stride + n.stride2 * j := by
      rw [show n.start + n.stride * i + n.stride2 * j = (n.start + n.stride2 * j) + n.stride * i by omega, Nat.add_mul_mod_self_left,
        Nat.add_mod, Nat.mod_eq_of_lt (a := n.stride2 * j) (by omega), Nat.mod_eq_of_lt (by omega)]
    have a2 : (m.start + m.stride * i' + m.stride2 * j') % n.stride = m.start % n.stride + m.stride2 * j' := by
      rw [← hs, show m.start + n.stride * i' + m.stride2 * j' = (m.start + m.stride2 * j') + n.stride * i' by omega,
        Nat.add_mul_mod_self_left, Nat.add_mod, Nat.mod_eq_of_lt (a := m.stride2 * j') (by omega), Nat.mod_eq_of_lt (by omega)]
    rw [hh, a2] at a1
    omega
  · intro hh
    generalize hg : Nat.gcd (Nat.gcd n.stride n.stride2) (Nat.gcd m.stride m.stride2) = g at h
    have d1 : g ∣ n.stride := hg ▸ Nat.dvd_trans (Nat.gcd_dvd_left _ _) (Nat.gcd_dvd_left _ _)
    have d2 : g ∣ n.stride2 := hg ▸ Nat.dvd_trans (Nat.gcd_dvd_left _ _) (Nat.gcd_dvd_right _ _)
    have d3 : g ∣ m.stride := hg ▸ Nat.dvd_trans (Nat.gcd_dvd_right _ _) (Nat.gcd_dvd_left _ _)
    have d4 : g ∣ m.stride2 := hg ▸ Nat.dvd_trans (Nat.gcd_dvd_right _ _) (Nat.gcd_dvd_right _ _)
    obtain ⟨w1, d1⟩ := d1
    obtain ⟨w2, d2⟩ := d2
    obtain ⟨w3, d3⟩ := d3
    obtain ⟨w4, d4⟩ := d4
    apply h
    have := congrArg (· % g) hh
    simpa [d1, d2, d3, d4, Nat.mul_assoc, Nat.add_mul_mod_self_left] using this

theorem RegInfo.apart_comm {n m : RegInfo} (h : n.apart m = true) {i j i' j' : Nat} (hi : i < m.count) (hj : j < m.count2)
    (hi' : i' < n.count) (hj' : j' < n.count2) :
    m.start + m.stride * i + m.stride2 * j ≠ n.start + n.stride * i' + n.stride2 * j' :=
  fun e => RegInfo.apart_ne h hi' hj' hi hj e.symm

theorem pairwise_mem {l : List RegKind} (h : pairwiseApart (l.map RegKind.info) = true) {k k' : RegKind} (hk : k ∈ l) (hk' : k' ∈ l)
    (ne : k ≠ k') : k.info.apart k'.info = true ∨ k'.info.apart k.info = true := by
  induction l with
  | nil => cases hk
  | cons x t ih =>
    simp only [List.map_cons, pairwiseApart, Bool.and_eq_true, List.all_eq_true, List.mem_map] at h
    rcases List.mem_cons.mp hk with e | a <;> rcases List.mem_cons.mp hk' with e' | a'
    · exact absurd (e.trans e'.symm) ne
    · exact .inl (e ▸ h.1 _ ⟨_, a', rfl⟩)
    · exact .inr (e' ▸ h.1 _ ⟨_, a, rfl⟩)
    · exact ih h.2 a a'

/-- What `RegKind.at` finds is a register of the table, at that offset. -/
theorem RegKind.at_some {k : RegKind} {d : Nat} {r : Reg} (h : k.at d = some r) :
    r.kind = k ∧ r.ok = true ∧ k.info.off + k.info.stride * r.i + k.info.stride2 * r.j = d := by
  unfold RegKind.at at h
  dsimp only at h
  rw [Option.ite_none_right_eq_some] at h
  obtain ⟨c, e⟩ := h
  injection e with e
  subst e
  refine ⟨?_, ?_, c.2.2.2.2⟩
  · split <;> rfl
  · have hk : ∀ r : Reg, r.kind = k → r.i < k.info.count → r.j < k.info.count2 →
        k.info.first ≤ (if k.info.count2 = 1 then r.i else r.j) → r.ok = true := by
      rintro ⟨_, i, j⟩ rfl a b c
      simp only [Reg.ok, Bool.and_eq_true, decide_eq_true_eq]
      exact ⟨⟨a, b⟩, c⟩
    exact hk _ (by split <;> rfl) c.2.1 c.2.2.1 c.2.2.2.1

/-- A table gives back each of its registers. -/
theorem RegKind.at_addr {r : Reg} (h : r.ok = true) :
    r.kind.at (r.kind.info.off + r.kind.info.stride * r.i + r.kind.info.stride2 * r.j) = some r := by
  have s := List.all_eq_true.mp tables_self r.kind (RegKind.mem_all _)
  obtain ⟨k, i, j⟩ := r
  have b := Reg.bounds h
  have f := RegInfo.inner_le b.2
  simp only [Reg.ok, Bool.and_eq_true, decide_eq_true_eq] at h
  dsimp only at *
  unfold RegKind.at
  dsimp only
  generalize k.info = n at *
  simp only [RegInfo.selfApart, Bool.and_eq_true, decide_eq_true_eq] at s
  obtain ⟨s0, s⟩ := s
  by_cases hs : n.stride = 0
  · simp only [hs, if_true, Bool.and_eq_true, decide_eq_true_eq] at s
    have hi : i = 0 := by omega
    have hj : j = 0 := by omega
    subst hi hj
    simp [hs, s.2.2, s.1, s.2.1] at h ⊢
    exact h
  · simp only [hs, if_false, Bool.and_eq_true, Bool.or_eq_true, decide_eq_true_eq] at s
    have hp : 0 < n.stride := Nat.pos_of_ne_zero hs
    have q : (n.off + n.stride * i + n.stride2 * j - n.off) / n.stride = i := by
      rw [show n.off + n.stride * i + n.stride2 * j - n.off = n.stride2 * j + n.stride * i by omega, Nat.add_mul_div_left _ _ hp,
        Nat.div_eq_of_lt (by omega), Nat.zero_add]
    have m : (n.off + n.stride * i + n.stride2 * j - n.off) % n.stride = n.stride2 * j := by
      rw [show n.off + n.stride * i + n.stride2 * j - n.off = n.stride2 * j + n.stride * i by omega, Nat.add_mul_mod_self_left,
        Nat.mod_eq_of_lt (by omega)]
    have z : (if n.stride2 = 0 then 0 else (n.off + n.stride * i + n.stride2 * j - n.off) % n.stride / n.stride2) = j := by
      rw [m]
      split
      · rename_i c
        have := s.2.resolve_left (fun x => x c)
        omega
      · rename_i c
        rw [Nat.mul_div_cancel_left _ (Nat.pos_of_ne_zero c)]
    simp only [hs, if_false, q, z]
    rw [if_pos ⟨by omega, b.1, b.2, h.2, trivial⟩]

/-- Every register's address reads back as that register: no two registers share an address. -/
theorem Reg.ofAddr_addr {r : Reg} (h : r.ok = true) : Reg.ofAddr r.addr = some r := by
  have key : ∀ k ∈ RegKind.all, ∀ x, (if k.info.block.base ≤ r.addr then k.at (r.addr - k.info.block.base) else none) = some x → x = r := by
    intro k hk x e
    split at e
    · rename_i hb
      obtain ⟨rfl, xo, xe⟩ := RegKind.at_some e
      have xa : x.kind.info.start + x.kind.info.stride * x.i + x.kind.info.stride2 * x.j = r.addr := by
        unfold RegInfo.start; omega
      by_cases ke : x.kind = r.kind
      · have : x.kind.at (r.addr - x.kind.info.block.base) = some r := by
          rw [ke]
          have := RegKind.at_addr h
          rwa [show r.kind.info.off + r.kind.info.stride * r.i + r.kind.info.stride2 * r.j = r.addr - r.kind.info.block.base by
            unfold Reg.addr; dsimp only; omega] at this
        rw [this] at e
        cases e; rfl
      · have bx := Reg.bounds xo
        have br := Reg.bounds h
        have ra : r.addr = r.kind.info.start + r.kind.info.stride * r.i + r.kind.info.stride2 * r.j := by
          unfold Reg.addr RegInfo.start; rfl
        rw [ra] at xa
        rcases pairwise_mem tables_apart hk (RegKind.mem_all r.kind) ke with a | a
        · exact absurd xa (RegInfo.apart_ne a bx.1 bx.2 br.1 br.2)
        · exact absurd xa (RegInfo.apart_comm a bx.1 bx.2 br.1 br.2)
    · cases e
  unfold Reg.ofAddr
  cases hf : RegKind.all.findSome? _ with
  | none =>
    have n := List.findSome?_eq_none_iff.mp hf r.kind (RegKind.mem_all _)
    have a := RegKind.at_addr h
    dsimp only at n
    have hb : r.kind.info.block.base ≤ r.addr := by unfold Reg.addr; dsimp only; omega
    rw [if_pos hb, show r.addr - r.kind.info.block.base = r.kind.info.off + r.kind.info.stride * r.i + r.kind.info.stride2 * r.j by
      unfold Reg.addr; dsimp only; omega, a] at n
    cases n
  | some x =>
    obtain ⟨k, hk, e⟩ := List.exists_of_findSome?_eq_some hf
    rw [key k hk x e]

end Sys2Proof
end

