-- ==== Sys2Proof/Laws/Mem.lean ====
section
/-!
SUPPORT. Sys2Proof/Laws/Mem.lean: what the operations on memory cells do: a read after a write, and that each keeps the canonical
form.
-/
namespace Sys2Proof.Machine

/-- Every address of the list is at least `a`. -/
def cellsFrom (a : Nat) (l : List (Nat × Byte)) : Prop := ∀ e ∈ l, a ≤ e.1

theorem cellsWf_cons {a : Nat} {b : Byte} {t : List (Nat × Byte)} :
    cellsWf ((a, b) :: t) = true ↔ b ≠ 0 ∧ cellsFrom (a + 1) t ∧ cellsWf t = true := by
  induction t generalizing a b with
  | nil => simp [cellsWf, cellsFrom]
  | cons e t ih =>
    obtain ⟨a', b'⟩ := e
    have h := ih (a := a') (b := b')
    simp only [cellsWf, Bool.and_eq_true, decide_eq_true_eq]
    constructor
    · rintro ⟨⟨hb, ha⟩, hw⟩
      refine ⟨hb, ?_, hw⟩
      obtain ⟨_, hf, _⟩ := h.1 hw
      intro e he
      rcases List.mem_cons.1 he with rfl | he
      · exact ha
      · have := hf e he; omega
    · rintro ⟨hb, hf, hw⟩
      exact ⟨⟨hb, hf (a', b') (by simp)⟩, hw⟩

/-- Read after write: the byte written. -/
theorem cellsGet_put_same {l : List (Nat × Byte)} (h : cellsWf l = true) (a : Nat) (b : Byte) :
    cellsGet (cellsPut l a b) a = b := by
  induction l with
  | nil => unfold cellsPut; split <;> simp_all [cellsGet]
  | cons e t ih =>
    obtain ⟨a', b'⟩ := e
    obtain ⟨_, hf, hw⟩ := cellsWf_cons.1 h
    unfold cellsPut
    split
    · split
      · subst_vars; simp only [cellsGet]; split <;> first | omega | rfl | (split <;> first | rfl | omega)
      · simp [cellsGet]
    · split
      · subst_vars
        split
        · subst_vars
          cases t with
          | nil => rfl
          | cons e t =>
            have := hf e (by simp)
            obtain ⟨x, y⟩ := e
            simp only [cellsGet]
            split
            · simp_all <;> omega
            · split
              · rfl
              · simp_all <;> omega
        · simp [cellsGet]
      · simp only [cellsGet]
        (repeat' split) <;> first | omega | exact ih hw

/-- A write leaves every other byte alone. -/
theorem cellsGet_put_other {l : List (Nat × Byte)} (h : cellsWf l = true) {a x : Nat} (b : Byte) (hx : x ≠ a) :
    cellsGet (cellsPut l a b) x = cellsGet l x := by
  induction l with
  | nil => unfold cellsPut; split <;> simp [cellsGet]; omega
  | cons e t ih =>
    obtain ⟨a', b'⟩ := e
    obtain ⟨_, hf, hw⟩ := cellsWf_cons.1 h
    unfold cellsPut
    split
    · split
      · rfl
      · simp only [cellsGet]; (repeat' split) <;> first | rfl | omega
    · split
      · rename_i _ heq
        subst heq
        have hz : cellsGet t x = if a < x then cellsGet t x else 0 := by
          split
          · rfl
          · cases t with
            | nil => rfl
            | cons e t =>
              have := hf e (by simp)
              obtain ⟨u, v⟩ := e
              simp only [cellsGet] at *
              (repeat' split) <;> first | rfl | omega
        split
        · simp only [cellsGet]
          rw [hz]
          (repeat' split) <;> first | rfl | omega
        · simp only [cellsGet]; (repeat' split) <;> first | rfl | omega
      · simp only [cellsGet]
        (repeat' split) <;> first | rfl | exact ih hw

/-- A write puts its address in the list, if it changes which are listed. -/
theorem cellsPut_from {l : List (Nat × Byte)} {a m : Nat} {b : Byte} (ha : m ≤ a) (hl : cellsFrom m l) :
    cellsFrom m (cellsPut l a b) := by
  induction l with
  | nil => unfold cellsPut; split <;> simp_all [cellsFrom]
  | cons e t ih =>
    obtain ⟨a', b'⟩ := e
    have ht : cellsFrom m t := fun e he => hl e (by simp [he])
    have h0 : m ≤ a' := hl (a', b') (by simp)
    unfold cellsPut
    (repeat' split) <;> intro e he <;> (try simp only [List.mem_cons] at he)
    · rcases he with rfl | he
      · exact h0
      · exact ht e he
    · rcases he with rfl | rfl | he
      · exact ha
      · exact h0
      · exact ht e he
    · exact ht e he
    · rcases he with rfl | he
      · exact ha
      · exact ht e he
    · rcases he with rfl | he
      · exact h0
      · exact ih ht e he

/-- A write keeps the canonical form. -/
theorem cellsPut_wf {l : List (Nat × Byte)} (h : cellsWf l = true) (a : Nat) (b : Byte) : cellsWf (cellsPut l a b) = true := by
  induction l with
  | nil => unfold cellsPut; split <;> simp_all [cellsWf]
  | cons e t ih =>
    obtain ⟨a', b'⟩ := e
    obtain ⟨hb, hf, hw⟩ := cellsWf_cons.1 h
    unfold cellsPut
    split
    · split
      · exact h
      · refine cellsWf_cons.2 ⟨by assumption, ?_, h⟩
        intro e he
        rcases List.mem_cons.1 he with rfl | he
        · simp; omega
        · have := hf e he; omega
    · split
      · subst_vars
        split
        · exact hw
        · exact cellsWf_cons.2 ⟨by assumption, hf, hw⟩
      · exact cellsWf_cons.2 ⟨hb, cellsPut_from (by omega) hf, ih hw⟩

theorem cellsPutAll_wf {l : List (Nat × Byte)} (h : cellsWf l = true) (a : Nat) (bs : List Byte) :
    cellsWf (cellsPutAll l a bs) = true := by
  induction bs generalizing l a with
  | nil => exact h
  | cons b t ih => exact ih (cellsPut_wf h a b) (a + 1)

/-- Dropping cells keeps the canonical form. -/
theorem cellsFilter_wf {l : List (Nat × Byte)} (h : cellsWf l = true) (p : Nat × Byte → Bool) : cellsWf (l.filter p) = true := by
  induction l with
  | nil => rfl
  | cons e t ih =>
    obtain ⟨a, b⟩ := e
    obtain ⟨hb, hf, hw⟩ := cellsWf_cons.1 h
    simp only [List.filter]
    split
    · exact cellsWf_cons.2 ⟨hb, fun e he => hf e ((List.mem_filter.1 he).1), ih hw⟩
    · exact ih hw

/-- Two canonical lists, every address of the first below `m` and of the second from `m` on. -/
theorem cellsAppend_wf {l r : List (Nat × Byte)} (hl : cellsWf l = true) (hr : cellsWf r = true) {m : Nat}
    (h1 : ∀ e ∈ l, e.1 < m) (h2 : cellsFrom m r) : cellsWf (l ++ r) = true := by
  induction l with
  | nil => exact hr
  | cons e t ih =>
    obtain ⟨a, b⟩ := e
    obtain ⟨hb, hf, hw⟩ := cellsWf_cons.1 hl
    refine cellsWf_cons.2 ⟨hb, ?_, ih hw fun e he => h1 e (by simp [he])⟩
    intro e he
    rcases List.mem_append.1 he with he | he
    · exact hf e he
    · have := h2 e he; have := h1 (a, b) (by simp); omega

/-- Moving every cell by the same distance keeps the canonical form. -/
theorem cellsMove_wf {l : List (Nat × Byte)} (h : cellsWf l = true) (d : Nat) :
    cellsWf (l.map fun e => (e.1 + d, e.2)) = true := by
  induction l with
  | nil => rfl
  | cons e t ih =>
    obtain ⟨a, b⟩ := e
    obtain ⟨hb, hf, hw⟩ := cellsWf_cons.1 h
    refine cellsWf_cons.2 ⟨hb, ?_, ih hw⟩
    intro e he
    obtain ⟨x, hx, rfl⟩ := List.mem_map.1 he
    have := hf x hx
    simp; omega

/-- R386, R387: the copies of core 0's TCM keep the canonical form. -/
theorem tcmCopies_wf {l : List (Nat × Byte)} (h : cellsWf l = true) :
    cellsWf (tcmCopies (·.1) (fun d e => (e.1 + d, e.2)) l) = true := by
  unfold tcmCopies
  have own := cellsFilter_wf h fun e => decide (0x2000000 ≤ e.1 ∧ e.1 < 0x2040000)
  have ownB : ∀ e ∈ l.filter (fun e => decide (0x2000000 ≤ e.1 ∧ e.1 < 0x2040000)), 0x2000000 ≤ e.1 ∧ e.1 < 0x2040000 := by
    intro e he; simpa using (List.mem_filter.1 he).2
  refine cellsAppend_wf (m := 0x20C0000) (cellsAppend_wf (m := 0x2080000) (cellsAppend_wf (m := 0x2040000)
    (cellsAppend_wf (m := 0x2000000) (cellsFilter_wf h _) own ?_ ?_) (cellsMove_wf own _) ?_ ?_) (cellsMove_wf own _) ?_ ?_)
    (cellsFilter_wf h _) ?_ ?_
  · intro e he; simpa using (List.mem_filter.1 he).2
  · intro e he; exact (ownB e he).1
  · intro e he
    rcases List.mem_append.1 he with he | he
    · have : e.1 < 0x2000000 := by simpa using (List.mem_filter.1 he).2
      omega
    · exact (ownB e he).2
  · intro e he
    obtain ⟨x, hx, rfl⟩ := List.mem_map.1 he
    have := ownB x hx; simp; omega
  · intro e he
    rcases List.mem_append.1 he with he | he
    · rcases List.mem_append.1 he with he | he
      · have : e.1 < 0x2000000 := by simpa using (List.mem_filter.1 he).2
        omega
      · have := ownB e he; omega
    · obtain ⟨x, hx, rfl⟩ := List.mem_map.1 he
      have := ownB x hx; simp; omega
  · intro e he
    obtain ⟨x, hx, rfl⟩ := List.mem_map.1 he
    have := ownB x hx; simp; omega
  · intro e he
    rcases List.mem_append.1 he with he | he
    · rcases List.mem_append.1 he with he | he
      · rcases List.mem_append.1 he with he | he
        · have : e.1 < 0x2000000 := by simpa using (List.mem_filter.1 he).2
          omega
        · have := ownB e he; omega
      · obtain ⟨x, hx, rfl⟩ := List.mem_map.1 he
        have := ownB x hx; simp; omega
    · obtain ⟨x, hx, rfl⟩ := List.mem_map.1 he
      have := ownB x hx; simp; omega
  · intro e he; simpa using (List.mem_filter.1 he).2

end Sys2Proof.Machine
end

