-- ==== Sys2Proof/Laws/State.lean ====
section
/-!
SUPPORT. Sys2Proof/Laws/State.lean: the named updates of the state, field by field: what each leaves alone, and that reading back
what it wrote gives what was written.
-/
namespace Sys2Proof

theorem KV.get_set_same {κ α : Type} [DecidableEq κ] (t : KV κ α) (k : κ) (v d : α) : (t.set k v).get k d = v := by
  induction t with
  | nil => simp [KV.set, KV.get]
  | cons e t ih =>
    obtain ⟨k', v'⟩ := e
    unfold KV.set
    split
    · simp [KV.get]
    · rename_i h
      simp [KV.get, h, ih]

theorem KV.get_set_other {κ α : Type} [DecidableEq κ] (t : KV κ α) {k k' : κ} (v d : α) (h : k ≠ k') :
    (t.set k v).get k' d = t.get k' d := by
  induction t with
  | nil => simp [KV.set, KV.get, h]
  | cons e t ih =>
    obtain ⟨a, v'⟩ := e
    unfold KV.set
    split
    · rename_i e
      subst e
      simp [KV.get, h]
    · simp [KV.get, ih]

theorem KV.get_set {κ α : Type} [DecidableEq κ] (t : KV κ α) (k k' : κ) (v d : α) :
    (t.set k v).get k' d = if k = k' then v else t.get k' d := by
  split
  · rename_i h; subst h; exact KV.get_set_same ..
  · rename_i h; exact KV.get_set_other _ _ _ h

theorem KV.set_set {κ α : Type} [DecidableEq κ] (t : KV κ α) (k : κ) (v w : α) : (t.set k v).set k w = t.set k w := by
  induction t with
  | nil => simp [KV.set]
  | cons e t ih =>
    obtain ⟨k', v'⟩ := e
    simp only [KV.set]
    split
    · simp [KV.set]
    · rename_i h
      simp [KV.set, h, ih]

namespace Machine

@[simp] theorem State.setReg_pending (s : State) (r : Reg) (v : Word) : (s.setReg r v).pending = s.pending := rfl
@[simp] theorem State.setReg_held (s : State) (r : Reg) (v : Word) : (s.setReg r v).held = s.held := rfl
@[simp] theorem State.setReg_latched (s : State) (r : Reg) (v : Word) : (s.setReg r v).latched = s.latched := rfl
@[simp] theorem State.setReg_uptime (s : State) (r : Reg) (v : Word) : (s.setReg r v).uptime = s.uptime := rfl
@[simp] theorem State.setReg_free (s : State) (r : Reg) (v : Word) : (s.setReg r v).free = s.free := rfl
@[simp] theorem State.setReg_sent (s : State) (r : Reg) (v : Word) : (s.setReg r v).sent = s.sent := rfl
@[simp] theorem State.setReg_rd (s : State) (r : Reg) (v : Word) : (s.setReg r v).rd = s.rd := rfl
@[simp] theorem State.setReg_emLast (s : State) (r : Reg) (v : Word) : (s.setReg r v).emLast = s.emLast := rfl
@[simp] theorem State.setReg_tally (s : State) (r : Reg) (v : Word) : (s.setReg r v).tally = s.tally := rfl
@[simp] theorem State.setReg_tb (s : State) (r : Reg) (v : Word) : (s.setReg r v).tb = s.tb := rfl
@[simp] theorem State.setReg_web (s : State) (r : Reg) (v : Word) : (s.setReg r v).web = s.web := rfl
@[simp] theorem State.setReg_mem (s : State) (r : Reg) (v : Word) : (s.setReg r v).mem = s.mem := rfl
@[simp] theorem State.setReg_stash (s : State) (r : Reg) (v : Word) : (s.setReg r v).stash = s.stash := rfl
@[simp] theorem State.setReg_ddr (s : State) (r : Reg) (v : Word) : (s.setReg r v).ddr = s.ddr := rfl
@[simp] theorem State.setReg_ing (s : State) (r : Reg) (v : Word) : (s.setReg r v).ing = s.ing := rfl
@[simp] theorem State.setReg_ply (s : State) (r : Reg) (v : Word) : (s.setReg r v).ply = s.ply := rfl
@[simp] theorem State.setReg_host (s : State) (r : Reg) (v : Word) : (s.setReg r v).host = s.host := rfl
@[simp] theorem State.setReg_ect (s : State) (r : Reg) (v : Word) : (s.setReg r v).ect = s.ect := rfl
@[simp] theorem State.setReg_hook (s : State) (r : Reg) (v : Word) : (s.setReg r v).hook = s.hook := rfl
@[simp] theorem State.setReg_vot (s : State) (r : Reg) (v : Word) : (s.setReg r v).vot = s.vot := rfl
@[simp] theorem State.setReg_cast (s : State) (r : Reg) (v : Word) : (s.setReg r v).cast = s.cast := rfl
@[simp] theorem State.setReg_kth (s : State) (r : Reg) (v : Word) : (s.setReg r v).kth = s.kth := rfl
@[simp] theorem State.setReg_pwr (s : State) (r : Reg) (v : Word) : (s.setReg r v).pwr = s.pwr := rfl
@[simp] theorem State.setReg_gau (s : State) (r : Reg) (v : Word) : (s.setReg r v).gau = s.gau := rfl
@[simp] theorem State.setReg_hcache (s : State) (r : Reg) (v : Word) : (s.setReg r v).hcache = s.hcache := rfl
@[simp] theorem State.setReg_od (s : State) (r : Reg) (v : Word) : (s.setReg r v).od = s.od := rfl

@[simp] theorem State.setFld_pending (s : State) (f : Fld) (v i j : Nat) : (s.setFld f v i j).pending = s.pending := rfl
@[simp] theorem State.setFld_held (s : State) (f : Fld) (v i j : Nat) : (s.setFld f v i j).held = s.held := rfl
@[simp] theorem State.setFld_latched (s : State) (f : Fld) (v i j : Nat) : (s.setFld f v i j).latched = s.latched := rfl
@[simp] theorem State.setFld_uptime (s : State) (f : Fld) (v i j : Nat) : (s.setFld f v i j).uptime = s.uptime := rfl
@[simp] theorem State.setFld_free (s : State) (f : Fld) (v i j : Nat) : (s.setFld f v i j).free = s.free := rfl
@[simp] theorem State.setFld_sent (s : State) (f : Fld) (v i j : Nat) : (s.setFld f v i j).sent = s.sent := rfl
@[simp] theorem State.setFld_rd (s : State) (f : Fld) (v i j : Nat) : (s.setFld f v i j).rd = s.rd := rfl
@[simp] theorem State.setFld_emLast (s : State) (f : Fld) (v i j : Nat) : (s.setFld f v i j).emLast = s.emLast := rfl
@[simp] theorem State.setFld_tally (s : State) (f : Fld) (v i j : Nat) : (s.setFld f v i j).tally = s.tally := rfl
@[simp] theorem State.setFld_tb (s : State) (f : Fld) (v i j : Nat) : (s.setFld f v i j).tb = s.tb := rfl
@[simp] theorem State.setFld_web (s : State) (f : Fld) (v i j : Nat) : (s.setFld f v i j).web = s.web := rfl
@[simp] theorem State.setFld_mem (s : State) (f : Fld) (v i j : Nat) : (s.setFld f v i j).mem = s.mem := rfl
@[simp] theorem State.setFld_stash (s : State) (f : Fld) (v i j : Nat) : (s.setFld f v i j).stash = s.stash := rfl
@[simp] theorem State.setFld_ddr (s : State) (f : Fld) (v i j : Nat) : (s.setFld f v i j).ddr = s.ddr := rfl
@[simp] theorem State.setFld_ing (s : State) (f : Fld) (v i j : Nat) : (s.setFld f v i j).ing = s.ing := rfl
@[simp] theorem State.setFld_ply (s : State) (f : Fld) (v i j : Nat) : (s.setFld f v i j).ply = s.ply := rfl
@[simp] theorem State.setFld_host (s : State) (f : Fld) (v i j : Nat) : (s.setFld f v i j).host = s.host := rfl
@[simp] theorem State.setFld_ect (s : State) (f : Fld) (v i j : Nat) : (s.setFld f v i j).ect = s.ect := rfl
@[simp] theorem State.setFld_hook (s : State) (f : Fld) (v i j : Nat) : (s.setFld f v i j).hook = s.hook := rfl
@[simp] theorem State.setFld_vot (s : State) (f : Fld) (v i j : Nat) : (s.setFld f v i j).vot = s.vot := rfl
@[simp] theorem State.setFld_cast (s : State) (f : Fld) (v i j : Nat) : (s.setFld f v i j).cast = s.cast := rfl
@[simp] theorem State.setFld_kth (s : State) (f : Fld) (v i j : Nat) : (s.setFld f v i j).kth = s.kth := rfl
@[simp] theorem State.setFld_pwr (s : State) (f : Fld) (v i j : Nat) : (s.setFld f v i j).pwr = s.pwr := rfl
@[simp] theorem State.setFld_gau (s : State) (f : Fld) (v i j : Nat) : (s.setFld f v i j).gau = s.gau := rfl
@[simp] theorem State.setFld_hcache (s : State) (f : Fld) (v i j : Nat) : (s.setFld f v i j).hcache = s.hcache := rfl
@[simp] theorem State.setFld_od (s : State) (f : Fld) (v i j : Nat) : (s.setFld f v i j).od = s.od := rfl

@[simp] theorem State.bump_pending (s : State) (f : Fld) (i n j : Nat) : (s.bump f i n j).pending = s.pending := rfl
@[simp] theorem State.bump_held (s : State) (f : Fld) (i n j : Nat) : (s.bump f i n j).held = s.held := rfl
@[simp] theorem State.bump_latched (s : State) (f : Fld) (i n j : Nat) : (s.bump f i n j).latched = s.latched := rfl
@[simp] theorem State.bump_uptime (s : State) (f : Fld) (i n j : Nat) : (s.bump f i n j).uptime = s.uptime := rfl
@[simp] theorem State.bump_free (s : State) (f : Fld) (i n j : Nat) : (s.bump f i n j).free = s.free := rfl
@[simp] theorem State.bump_sent (s : State) (f : Fld) (i n j : Nat) : (s.bump f i n j).sent = s.sent := rfl
@[simp] theorem State.bump_rd (s : State) (f : Fld) (i n j : Nat) : (s.bump f i n j).rd = s.rd := rfl
@[simp] theorem State.bump_emLast (s : State) (f : Fld) (i n j : Nat) : (s.bump f i n j).emLast = s.emLast := rfl
@[simp] theorem State.bump_tally (s : State) (f : Fld) (i n j : Nat) : (s.bump f i n j).tally = s.tally := rfl
@[simp] theorem State.bump_tb (s : State) (f : Fld) (i n j : Nat) : (s.bump f i n j).tb = s.tb := rfl
@[simp] theorem State.bump_web (s : State) (f : Fld) (i n j : Nat) : (s.bump f i n j).web = s.web := rfl
@[simp] theorem State.bump_mem (s : State) (f : Fld) (i n j : Nat) : (s.bump f i n j).mem = s.mem := rfl
@[simp] theorem State.bump_stash (s : State) (f : Fld) (i n j : Nat) : (s.bump f i n j).stash = s.stash := rfl
@[simp] theorem State.bump_ddr (s : State) (f : Fld) (i n j : Nat) : (s.bump f i n j).ddr = s.ddr := rfl
@[simp] theorem State.bump_ing (s : State) (f : Fld) (i n j : Nat) : (s.bump f i n j).ing = s.ing := rfl
@[simp] theorem State.bump_ply (s : State) (f : Fld) (i n j : Nat) : (s.bump f i n j).ply = s.ply := rfl
@[simp] theorem State.bump_host (s : State) (f : Fld) (i n j : Nat) : (s.bump f i n j).host = s.host := rfl
@[simp] theorem State.bump_ect (s : State) (f : Fld) (i n j : Nat) : (s.bump f i n j).ect = s.ect := rfl
@[simp] theorem State.bump_hook (s : State) (f : Fld) (i n j : Nat) : (s.bump f i n j).hook = s.hook := rfl
@[simp] theorem State.bump_vot (s : State) (f : Fld) (i n j : Nat) : (s.bump f i n j).vot = s.vot := rfl
@[simp] theorem State.bump_cast (s : State) (f : Fld) (i n j : Nat) : (s.bump f i n j).cast = s.cast := rfl
@[simp] theorem State.bump_kth (s : State) (f : Fld) (i n j : Nat) : (s.bump f i n j).kth = s.kth := rfl
@[simp] theorem State.bump_pwr (s : State) (f : Fld) (i n j : Nat) : (s.bump f i n j).pwr = s.pwr := rfl
@[simp] theorem State.bump_gau (s : State) (f : Fld) (i n j : Nat) : (s.bump f i n j).gau = s.gau := rfl
@[simp] theorem State.bump_hcache (s : State) (f : Fld) (i n j : Nat) : (s.bump f i n j).hcache = s.hcache := rfl
@[simp] theorem State.bump_od (s : State) (f : Fld) (i n j : Nat) : (s.bump f i n j).od = s.od := rfl

@[simp] theorem State.setPair_pending (s : State) (lo hi : Fld) (v i j : Nat) : (s.setPair lo hi v i j).pending = s.pending := rfl
@[simp] theorem State.setPair_held (s : State) (lo hi : Fld) (v i j : Nat) : (s.setPair lo hi v i j).held = s.held := rfl
@[simp] theorem State.setPair_latched (s : State) (lo hi : Fld) (v i j : Nat) : (s.setPair lo hi v i j).latched = s.latched := rfl
@[simp] theorem State.setPair_uptime (s : State) (lo hi : Fld) (v i j : Nat) : (s.setPair lo hi v i j).uptime = s.uptime := rfl
@[simp] theorem State.setPair_free (s : State) (lo hi : Fld) (v i j : Nat) : (s.setPair lo hi v i j).free = s.free := rfl
@[simp] theorem State.setPair_sent (s : State) (lo hi : Fld) (v i j : Nat) : (s.setPair lo hi v i j).sent = s.sent := rfl
@[simp] theorem State.setPair_rd (s : State) (lo hi : Fld) (v i j : Nat) : (s.setPair lo hi v i j).rd = s.rd := rfl
@[simp] theorem State.setPair_emLast (s : State) (lo hi : Fld) (v i j : Nat) : (s.setPair lo hi v i j).emLast = s.emLast := rfl
@[simp] theorem State.setPair_tally (s : State) (lo hi : Fld) (v i j : Nat) : (s.setPair lo hi v i j).tally = s.tally := rfl
@[simp] theorem State.setPair_tb (s : State) (lo hi : Fld) (v i j : Nat) : (s.setPair lo hi v i j).tb = s.tb := rfl
@[simp] theorem State.setPair_web (s : State) (lo hi : Fld) (v i j : Nat) : (s.setPair lo hi v i j).web = s.web := rfl
@[simp] theorem State.setPair_mem (s : State) (lo hi : Fld) (v i j : Nat) : (s.setPair lo hi v i j).mem = s.mem := rfl
@[simp] theorem State.setPair_stash (s : State) (lo hi : Fld) (v i j : Nat) : (s.setPair lo hi v i j).stash = s.stash := rfl
@[simp] theorem State.setPair_ddr (s : State) (lo hi : Fld) (v i j : Nat) : (s.setPair lo hi v i j).ddr = s.ddr := rfl
@[simp] theorem State.setPair_ing (s : State) (lo hi : Fld) (v i j : Nat) : (s.setPair lo hi v i j).ing = s.ing := rfl
@[simp] theorem State.setPair_ply (s : State) (lo hi : Fld) (v i j : Nat) : (s.setPair lo hi v i j).ply = s.ply := rfl
@[simp] theorem State.setPair_host (s : State) (lo hi : Fld) (v i j : Nat) : (s.setPair lo hi v i j).host = s.host := rfl
@[simp] theorem State.setPair_ect (s : State) (lo hi : Fld) (v i j : Nat) : (s.setPair lo hi v i j).ect = s.ect := rfl
@[simp] theorem State.setPair_hook (s : State) (lo hi : Fld) (v i j : Nat) : (s.setPair lo hi v i j).hook = s.hook := rfl
@[simp] theorem State.setPair_vot (s : State) (lo hi : Fld) (v i j : Nat) : (s.setPair lo hi v i j).vot = s.vot := rfl
@[simp] theorem State.setPair_cast (s : State) (lo hi : Fld) (v i j : Nat) : (s.setPair lo hi v i j).cast = s.cast := rfl
@[simp] theorem State.setPair_kth (s : State) (lo hi : Fld) (v i j : Nat) : (s.setPair lo hi v i j).kth = s.kth := rfl
@[simp] theorem State.setPair_pwr (s : State) (lo hi : Fld) (v i j : Nat) : (s.setPair lo hi v i j).pwr = s.pwr := rfl
@[simp] theorem State.setPair_gau (s : State) (lo hi : Fld) (v i j : Nat) : (s.setPair lo hi v i j).gau = s.gau := rfl
@[simp] theorem State.setPair_hcache (s : State) (lo hi : Fld) (v i j : Nat) : (s.setPair lo hi v i j).hcache = s.hcache := rfl
@[simp] theorem State.setPair_od (s : State) (lo hi : Fld) (v i j : Nat) : (s.setPair lo hi v i j).od = s.od := rfl

@[simp] theorem State.send_pending (s : State) (x : Sent) : (s.send x).pending = s.pending := rfl
@[simp] theorem State.send_regs (s : State) (x : Sent) : (s.send x).regs = s.regs := rfl
@[simp] theorem State.send_held (s : State) (x : Sent) : (s.send x).held = s.held := rfl
@[simp] theorem State.send_latched (s : State) (x : Sent) : (s.send x).latched = s.latched := rfl
@[simp] theorem State.send_uptime (s : State) (x : Sent) : (s.send x).uptime = s.uptime := rfl
@[simp] theorem State.send_free (s : State) (x : Sent) : (s.send x).free = s.free := rfl
@[simp] theorem State.send_rd (s : State) (x : Sent) : (s.send x).rd = s.rd := rfl
@[simp] theorem State.send_emLast (s : State) (x : Sent) : (s.send x).emLast = s.emLast := rfl
@[simp] theorem State.send_tally (s : State) (x : Sent) : (s.send x).tally = s.tally := rfl
@[simp] theorem State.send_tb (s : State) (x : Sent) : (s.send x).tb = s.tb := rfl
@[simp] theorem State.send_web (s : State) (x : Sent) : (s.send x).web = s.web := rfl
@[simp] theorem State.send_mem (s : State) (x : Sent) : (s.send x).mem = s.mem := rfl
@[simp] theorem State.send_stash (s : State) (x : Sent) : (s.send x).stash = s.stash := rfl
@[simp] theorem State.send_ddr (s : State) (x : Sent) : (s.send x).ddr = s.ddr := rfl
@[simp] theorem State.send_ing (s : State) (x : Sent) : (s.send x).ing = s.ing := rfl
@[simp] theorem State.send_ply (s : State) (x : Sent) : (s.send x).ply = s.ply := rfl
@[simp] theorem State.send_host (s : State) (x : Sent) : (s.send x).host = s.host := rfl
@[simp] theorem State.send_ect (s : State) (x : Sent) : (s.send x).ect = s.ect := rfl
@[simp] theorem State.send_hook (s : State) (x : Sent) : (s.send x).hook = s.hook := rfl
@[simp] theorem State.send_vot (s : State) (x : Sent) : (s.send x).vot = s.vot := rfl
@[simp] theorem State.send_cast (s : State) (x : Sent) : (s.send x).cast = s.cast := rfl
@[simp] theorem State.send_kth (s : State) (x : Sent) : (s.send x).kth = s.kth := rfl
@[simp] theorem State.send_pwr (s : State) (x : Sent) : (s.send x).pwr = s.pwr := rfl
@[simp] theorem State.send_gau (s : State) (x : Sent) : (s.send x).gau = s.gau := rfl
@[simp] theorem State.send_hcache (s : State) (x : Sent) : (s.send x).hcache = s.hcache := rfl
@[simp] theorem State.send_od (s : State) (x : Sent) : (s.send x).od = s.od := rfl

@[simp] theorem State.count_pending (s : State) (sub n : Nat) : (s.count sub n).pending = s.pending := rfl
@[simp] theorem State.count_regs (s : State) (sub n : Nat) : (s.count sub n).regs = s.regs := rfl
@[simp] theorem State.count_held (s : State) (sub n : Nat) : (s.count sub n).held = s.held := rfl
@[simp] theorem State.count_latched (s : State) (sub n : Nat) : (s.count sub n).latched = s.latched := rfl
@[simp] theorem State.count_uptime (s : State) (sub n : Nat) : (s.count sub n).uptime = s.uptime := rfl
@[simp] theorem State.count_free (s : State) (sub n : Nat) : (s.count sub n).free = s.free := rfl
@[simp] theorem State.count_sent (s : State) (sub n : Nat) : (s.count sub n).sent = s.sent := rfl
@[simp] theorem State.count_rd (s : State) (sub n : Nat) : (s.count sub n).rd = s.rd := rfl
@[simp] theorem State.count_emLast (s : State) (sub n : Nat) : (s.count sub n).emLast = s.emLast := rfl
@[simp] theorem State.count_tb (s : State) (sub n : Nat) : (s.count sub n).tb = s.tb := rfl
@[simp] theorem State.count_web (s : State) (sub n : Nat) : (s.count sub n).web = s.web := rfl
@[simp] theorem State.count_mem (s : State) (sub n : Nat) : (s.count sub n).mem = s.mem := rfl
@[simp] theorem State.count_stash (s : State) (sub n : Nat) : (s.count sub n).stash = s.stash := rfl
@[simp] theorem State.count_ddr (s : State) (sub n : Nat) : (s.count sub n).ddr = s.ddr := rfl
@[simp] theorem State.count_ing (s : State) (sub n : Nat) : (s.count sub n).ing = s.ing := rfl
@[simp] theorem State.count_ply (s : State) (sub n : Nat) : (s.count sub n).ply = s.ply := rfl
@[simp] theorem State.count_host (s : State) (sub n : Nat) : (s.count sub n).host = s.host := rfl
@[simp] theorem State.count_ect (s : State) (sub n : Nat) : (s.count sub n).ect = s.ect := rfl
@[simp] theorem State.count_hook (s : State) (sub n : Nat) : (s.count sub n).hook = s.hook := rfl
@[simp] theorem State.count_vot (s : State) (sub n : Nat) : (s.count sub n).vot = s.vot := rfl
@[simp] theorem State.count_cast (s : State) (sub n : Nat) : (s.count sub n).cast = s.cast := rfl
@[simp] theorem State.count_kth (s : State) (sub n : Nat) : (s.count sub n).kth = s.kth := rfl
@[simp] theorem State.count_pwr (s : State) (sub n : Nat) : (s.count sub n).pwr = s.pwr := rfl
@[simp] theorem State.count_gau (s : State) (sub n : Nat) : (s.count sub n).gau = s.gau := rfl
@[simp] theorem State.count_hcache (s : State) (sub n : Nat) : (s.count sub n).hcache = s.hcache := rfl
@[simp] theorem State.count_od (s : State) (sub n : Nat) : (s.count sub n).od = s.od := rfl

@[simp] theorem State.setOd_pending (s : State) (idx sub v : Nat) : (s.setOd idx sub v).pending = s.pending := rfl
@[simp] theorem State.setOd_regs (s : State) (idx sub v : Nat) : (s.setOd idx sub v).regs = s.regs := rfl
@[simp] theorem State.setOd_held (s : State) (idx sub v : Nat) : (s.setOd idx sub v).held = s.held := rfl
@[simp] theorem State.setOd_latched (s : State) (idx sub v : Nat) : (s.setOd idx sub v).latched = s.latched := rfl
@[simp] theorem State.setOd_uptime (s : State) (idx sub v : Nat) : (s.setOd idx sub v).uptime = s.uptime := rfl
@[simp] theorem State.setOd_free (s : State) (idx sub v : Nat) : (s.setOd idx sub v).free = s.free := rfl
@[simp] theorem State.setOd_sent (s : State) (idx sub v : Nat) : (s.setOd idx sub v).sent = s.sent := rfl
@[simp] theorem State.setOd_rd (s : State) (idx sub v : Nat) : (s.setOd idx sub v).rd = s.rd := rfl
@[simp] theorem State.setOd_emLast (s : State) (idx sub v : Nat) : (s.setOd idx sub v).emLast = s.emLast := rfl
@[simp] theorem State.setOd_tally (s : State) (idx sub v : Nat) : (s.setOd idx sub v).tally = s.tally := rfl
@[simp] theorem State.setOd_tb (s : State) (idx sub v : Nat) : (s.setOd idx sub v).tb = s.tb := rfl
@[simp] theorem State.setOd_web (s : State) (idx sub v : Nat) : (s.setOd idx sub v).web = s.web := rfl
@[simp] theorem State.setOd_mem (s : State) (idx sub v : Nat) : (s.setOd idx sub v).mem = s.mem := rfl
@[simp] theorem State.setOd_stash (s : State) (idx sub v : Nat) : (s.setOd idx sub v).stash = s.stash := rfl
@[simp] theorem State.setOd_ddr (s : State) (idx sub v : Nat) : (s.setOd idx sub v).ddr = s.ddr := rfl
@[simp] theorem State.setOd_ing (s : State) (idx sub v : Nat) : (s.setOd idx sub v).ing = s.ing := rfl
@[simp] theorem State.setOd_ply (s : State) (idx sub v : Nat) : (s.setOd idx sub v).ply = s.ply := rfl
@[simp] theorem State.setOd_host (s : State) (idx sub v : Nat) : (s.setOd idx sub v).host = s.host := rfl
@[simp] theorem State.setOd_ect (s : State) (idx sub v : Nat) : (s.setOd idx sub v).ect = s.ect := rfl
@[simp] theorem State.setOd_hook (s : State) (idx sub v : Nat) : (s.setOd idx sub v).hook = s.hook := rfl
@[simp] theorem State.setOd_vot (s : State) (idx sub v : Nat) : (s.setOd idx sub v).vot = s.vot := rfl
@[simp] theorem State.setOd_cast (s : State) (idx sub v : Nat) : (s.setOd idx sub v).cast = s.cast := rfl
@[simp] theorem State.setOd_kth (s : State) (idx sub v : Nat) : (s.setOd idx sub v).kth = s.kth := rfl
@[simp] theorem State.setOd_pwr (s : State) (idx sub v : Nat) : (s.setOd idx sub v).pwr = s.pwr := rfl
@[simp] theorem State.setOd_gau (s : State) (idx sub v : Nat) : (s.setOd idx sub v).gau = s.gau := rfl
@[simp] theorem State.setOd_hcache (s : State) (idx sub v : Nat) : (s.setOd idx sub v).hcache = s.hcache := rfl

@[simp] theorem State.setTh_pending (s : State) (c t : Nat) (x : Thread) : (s.setTh c t x).pending = s.pending := rfl
@[simp] theorem State.setTh_regs (s : State) (c t : Nat) (x : Thread) : (s.setTh c t x).regs = s.regs := rfl
@[simp] theorem State.setTh_held (s : State) (c t : Nat) (x : Thread) : (s.setTh c t x).held = s.held := rfl
@[simp] theorem State.setTh_latched (s : State) (c t : Nat) (x : Thread) : (s.setTh c t x).latched = s.latched := rfl
@[simp] theorem State.setTh_uptime (s : State) (c t : Nat) (x : Thread) : (s.setTh c t x).uptime = s.uptime := rfl
@[simp] theorem State.setTh_free (s : State) (c t : Nat) (x : Thread) : (s.setTh c t x).free = s.free := rfl
@[simp] theorem State.setTh_sent (s : State) (c t : Nat) (x : Thread) : (s.setTh c t x).sent = s.sent := rfl
@[simp] theorem State.setTh_rd (s : State) (c t : Nat) (x : Thread) : (s.setTh c t x).rd = s.rd := rfl
@[simp] theorem State.setTh_emLast (s : State) (c t : Nat) (x : Thread) : (s.setTh c t x).emLast = s.emLast := rfl
@[simp] theorem State.setTh_tally (s : State) (c t : Nat) (x : Thread) : (s.setTh c t x).tally = s.tally := rfl
@[simp] theorem State.setTh_tb (s : State) (c t : Nat) (x : Thread) : (s.setTh c t x).tb = s.tb := rfl
@[simp] theorem State.setTh_web (s : State) (c t : Nat) (x : Thread) : (s.setTh c t x).web = s.web := rfl
@[simp] theorem State.setTh_mem (s : State) (c t : Nat) (x : Thread) : (s.setTh c t x).mem = s.mem := rfl
@[simp] theorem State.setTh_stash (s : State) (c t : Nat) (x : Thread) : (s.setTh c t x).stash = s.stash := rfl
@[simp] theorem State.setTh_ddr (s : State) (c t : Nat) (x : Thread) : (s.setTh c t x).ddr = s.ddr := rfl
@[simp] theorem State.setTh_ing (s : State) (c t : Nat) (x : Thread) : (s.setTh c t x).ing = s.ing := rfl
@[simp] theorem State.setTh_ply (s : State) (c t : Nat) (x : Thread) : (s.setTh c t x).ply = s.ply := rfl
@[simp] theorem State.setTh_host (s : State) (c t : Nat) (x : Thread) : (s.setTh c t x).host = s.host := rfl
@[simp] theorem State.setTh_ect (s : State) (c t : Nat) (x : Thread) : (s.setTh c t x).ect = s.ect := rfl
@[simp] theorem State.setTh_vot (s : State) (c t : Nat) (x : Thread) : (s.setTh c t x).vot = s.vot := rfl
@[simp] theorem State.setTh_cast (s : State) (c t : Nat) (x : Thread) : (s.setTh c t x).cast = s.cast := rfl
@[simp] theorem State.setTh_kth (s : State) (c t : Nat) (x : Thread) : (s.setTh c t x).kth = s.kth := rfl
@[simp] theorem State.setTh_pwr (s : State) (c t : Nat) (x : Thread) : (s.setTh c t x).pwr = s.pwr := rfl
@[simp] theorem State.setTh_gau (s : State) (c t : Nat) (x : Thread) : (s.setTh c t x).gau = s.gau := rfl
@[simp] theorem State.setTh_hcache (s : State) (c t : Nat) (x : Thread) : (s.setTh c t x).hcache = s.hcache := rfl
@[simp] theorem State.setTh_od (s : State) (c t : Nat) (x : Thread) : (s.setTh c t x).od = s.od := rfl

@[simp] theorem State.setEnc_pending (s : State) (e : Nat) (x : Enc) : (s.setEnc e x).pending = s.pending := rfl
@[simp] theorem State.setEnc_regs (s : State) (e : Nat) (x : Enc) : (s.setEnc e x).regs = s.regs := rfl
@[simp] theorem State.setEnc_held (s : State) (e : Nat) (x : Enc) : (s.setEnc e x).held = s.held := rfl
@[simp] theorem State.setEnc_latched (s : State) (e : Nat) (x : Enc) : (s.setEnc e x).latched = s.latched := rfl
@[simp] theorem State.setEnc_uptime (s : State) (e : Nat) (x : Enc) : (s.setEnc e x).uptime = s.uptime := rfl
@[simp] theorem State.setEnc_free (s : State) (e : Nat) (x : Enc) : (s.setEnc e x).free = s.free := rfl
@[simp] theorem State.setEnc_sent (s : State) (e : Nat) (x : Enc) : (s.setEnc e x).sent = s.sent := rfl
@[simp] theorem State.setEnc_rd (s : State) (e : Nat) (x : Enc) : (s.setEnc e x).rd = s.rd := rfl
@[simp] theorem State.setEnc_emLast (s : State) (e : Nat) (x : Enc) : (s.setEnc e x).emLast = s.emLast := rfl
@[simp] theorem State.setEnc_tally (s : State) (e : Nat) (x : Enc) : (s.setEnc e x).tally = s.tally := rfl
@[simp] theorem State.setEnc_tb (s : State) (e : Nat) (x : Enc) : (s.setEnc e x).tb = s.tb := rfl
@[simp] theorem State.setEnc_mem (s : State) (e : Nat) (x : Enc) : (s.setEnc e x).mem = s.mem := rfl
@[simp] theorem State.setEnc_stash (s : State) (e : Nat) (x : Enc) : (s.setEnc e x).stash = s.stash := rfl
@[simp] theorem State.setEnc_ddr (s : State) (e : Nat) (x : Enc) : (s.setEnc e x).ddr = s.ddr := rfl
@[simp] theorem State.setEnc_ing (s : State) (e : Nat) (x : Enc) : (s.setEnc e x).ing = s.ing := rfl
@[simp] theorem State.setEnc_ply (s : State) (e : Nat) (x : Enc) : (s.setEnc e x).ply = s.ply := rfl
@[simp] theorem State.setEnc_host (s : State) (e : Nat) (x : Enc) : (s.setEnc e x).host = s.host := rfl
@[simp] theorem State.setEnc_ect (s : State) (e : Nat) (x : Enc) : (s.setEnc e x).ect = s.ect := rfl
@[simp] theorem State.setEnc_hook (s : State) (e : Nat) (x : Enc) : (s.setEnc e x).hook = s.hook := rfl
@[simp] theorem State.setEnc_vot (s : State) (e : Nat) (x : Enc) : (s.setEnc e x).vot = s.vot := rfl
@[simp] theorem State.setEnc_cast (s : State) (e : Nat) (x : Enc) : (s.setEnc e x).cast = s.cast := rfl
@[simp] theorem State.setEnc_kth (s : State) (e : Nat) (x : Enc) : (s.setEnc e x).kth = s.kth := rfl
@[simp] theorem State.setEnc_pwr (s : State) (e : Nat) (x : Enc) : (s.setEnc e x).pwr = s.pwr := rfl
@[simp] theorem State.setEnc_gau (s : State) (e : Nat) (x : Enc) : (s.setEnc e x).gau = s.gau := rfl
@[simp] theorem State.setEnc_hcache (s : State) (e : Nat) (x : Enc) : (s.setEnc e x).hcache = s.hcache := rfl
@[simp] theorem State.setEnc_od (s : State) (e : Nat) (x : Enc) : (s.setEnc e x).od = s.od := rfl

@[simp] theorem State.setChan_pending (s : State) (n : Nat) (x : Chan) : (s.setChan n x).pending = s.pending := rfl
@[simp] theorem State.setChan_regs (s : State) (n : Nat) (x : Chan) : (s.setChan n x).regs = s.regs := rfl
@[simp] theorem State.setChan_held (s : State) (n : Nat) (x : Chan) : (s.setChan n x).held = s.held := rfl
@[simp] theorem State.setChan_latched (s : State) (n : Nat) (x : Chan) : (s.setChan n x).latched = s.latched := rfl
@[simp] theorem State.setChan_uptime (s : State) (n : Nat) (x : Chan) : (s.setChan n x).uptime = s.uptime := rfl
@[simp] theorem State.setChan_free (s : State) (n : Nat) (x : Chan) : (s.setChan n x).free = s.free := rfl
@[simp] theorem State.setChan_sent (s : State) (n : Nat) (x : Chan) : (s.setChan n x).sent = s.sent := rfl
@[simp] theorem State.setChan_rd (s : State) (n : Nat) (x : Chan) : (s.setChan n x).rd = s.rd := rfl
@[simp] theorem State.setChan_emLast (s : State) (n : Nat) (x : Chan) : (s.setChan n x).emLast = s.emLast := rfl
@[simp] theorem State.setChan_tally (s : State) (n : Nat) (x : Chan) : (s.setChan n x).tally = s.tally := rfl
@[simp] theorem State.setChan_tb (s : State) (n : Nat) (x : Chan) : (s.setChan n x).tb = s.tb := rfl
@[simp] theorem State.setChan_mem (s : State) (n : Nat) (x : Chan) : (s.setChan n x).mem = s.mem := rfl
@[simp] theorem State.setChan_stash (s : State) (n : Nat) (x : Chan) : (s.setChan n x).stash = s.stash := rfl
@[simp] theorem State.setChan_ddr (s : State) (n : Nat) (x : Chan) : (s.setChan n x).ddr = s.ddr := rfl
@[simp] theorem State.setChan_ing (s : State) (n : Nat) (x : Chan) : (s.setChan n x).ing = s.ing := rfl
@[simp] theorem State.setChan_ply (s : State) (n : Nat) (x : Chan) : (s.setChan n x).ply = s.ply := rfl
@[simp] theorem State.setChan_host (s : State) (n : Nat) (x : Chan) : (s.setChan n x).host = s.host := rfl
@[simp] theorem State.setChan_ect (s : State) (n : Nat) (x : Chan) : (s.setChan n x).ect = s.ect := rfl
@[simp] theorem State.setChan_hook (s : State) (n : Nat) (x : Chan) : (s.setChan n x).hook = s.hook := rfl
@[simp] theorem State.setChan_vot (s : State) (n : Nat) (x : Chan) : (s.setChan n x).vot = s.vot := rfl
@[simp] theorem State.setChan_cast (s : State) (n : Nat) (x : Chan) : (s.setChan n x).cast = s.cast := rfl
@[simp] theorem State.setChan_kth (s : State) (n : Nat) (x : Chan) : (s.setChan n x).kth = s.kth := rfl
@[simp] theorem State.setChan_pwr (s : State) (n : Nat) (x : Chan) : (s.setChan n x).pwr = s.pwr := rfl
@[simp] theorem State.setChan_gau (s : State) (n : Nat) (x : Chan) : (s.setChan n x).gau = s.gau := rfl
@[simp] theorem State.setChan_hcache (s : State) (n : Nat) (x : Chan) : (s.setChan n x).hcache = s.hcache := rfl
@[simp] theorem State.setChan_od (s : State) (n : Nat) (x : Chan) : (s.setChan n x).od = s.od := rfl

@[simp] theorem State.setOut_pending (s : State) (o : Nat) (x : Out) : (s.setOut o x).pending = s.pending := rfl
@[simp] theorem State.setOut_regs (s : State) (o : Nat) (x : Out) : (s.setOut o x).regs = s.regs := rfl
@[simp] theorem State.setOut_held (s : State) (o : Nat) (x : Out) : (s.setOut o x).held = s.held := rfl
@[simp] theorem State.setOut_latched (s : State) (o : Nat) (x : Out) : (s.setOut o x).latched = s.latched := rfl
@[simp] theorem State.setOut_uptime (s : State) (o : Nat) (x : Out) : (s.setOut o x).uptime = s.uptime := rfl
@[simp] theorem State.setOut_free (s : State) (o : Nat) (x : Out) : (s.setOut o x).free = s.free := rfl
@[simp] theorem State.setOut_sent (s : State) (o : Nat) (x : Out) : (s.setOut o x).sent = s.sent := rfl
@[simp] theorem State.setOut_rd (s : State) (o : Nat) (x : Out) : (s.setOut o x).rd = s.rd := rfl
@[simp] theorem State.setOut_emLast (s : State) (o : Nat) (x : Out) : (s.setOut o x).emLast = s.emLast := rfl
@[simp] theorem State.setOut_tally (s : State) (o : Nat) (x : Out) : (s.setOut o x).tally = s.tally := rfl
@[simp] theorem State.setOut_tb (s : State) (o : Nat) (x : Out) : (s.setOut o x).tb = s.tb := rfl
@[simp] theorem State.setOut_mem (s : State) (o : Nat) (x : Out) : (s.setOut o x).mem = s.mem := rfl
@[simp] theorem State.setOut_stash (s : State) (o : Nat) (x : Out) : (s.setOut o x).stash = s.stash := rfl
@[simp] theorem State.setOut_ddr (s : State) (o : Nat) (x : Out) : (s.setOut o x).ddr = s.ddr := rfl
@[simp] theorem State.setOut_ing (s : State) (o : Nat) (x : Out) : (s.setOut o x).ing = s.ing := rfl
@[simp] theorem State.setOut_ply (s : State) (o : Nat) (x : Out) : (s.setOut o x).ply = s.ply := rfl
@[simp] theorem State.setOut_host (s : State) (o : Nat) (x : Out) : (s.setOut o x).host = s.host := rfl
@[simp] theorem State.setOut_ect (s : State) (o : Nat) (x : Out) : (s.setOut o x).ect = s.ect := rfl
@[simp] theorem State.setOut_hook (s : State) (o : Nat) (x : Out) : (s.setOut o x).hook = s.hook := rfl
@[simp] theorem State.setOut_vot (s : State) (o : Nat) (x : Out) : (s.setOut o x).vot = s.vot := rfl
@[simp] theorem State.setOut_cast (s : State) (o : Nat) (x : Out) : (s.setOut o x).cast = s.cast := rfl
@[simp] theorem State.setOut_kth (s : State) (o : Nat) (x : Out) : (s.setOut o x).kth = s.kth := rfl
@[simp] theorem State.setOut_pwr (s : State) (o : Nat) (x : Out) : (s.setOut o x).pwr = s.pwr := rfl
@[simp] theorem State.setOut_gau (s : State) (o : Nat) (x : Out) : (s.setOut o x).gau = s.gau := rfl
@[simp] theorem State.setOut_hcache (s : State) (o : Nat) (x : Out) : (s.setOut o x).hcache = s.hcache := rfl
@[simp] theorem State.setOut_od (s : State) (o : Nat) (x : Out) : (s.setOut o x).od = s.od := rfl

@[simp] theorem State.setCap_pending (s : State) (n : Nat) (x : List CapRec) : (s.setCap n x).pending = s.pending := rfl
@[simp] theorem State.setCap_regs (s : State) (n : Nat) (x : List CapRec) : (s.setCap n x).regs = s.regs := rfl
@[simp] theorem State.setCap_held (s : State) (n : Nat) (x : List CapRec) : (s.setCap n x).held = s.held := rfl
@[simp] theorem State.setCap_latched (s : State) (n : Nat) (x : List CapRec) : (s.setCap n x).latched = s.latched := rfl
@[simp] theorem State.setCap_uptime (s : State) (n : Nat) (x : List CapRec) : (s.setCap n x).uptime = s.uptime := rfl
@[simp] theorem State.setCap_free (s : State) (n : Nat) (x : List CapRec) : (s.setCap n x).free = s.free := rfl
@[simp] theorem State.setCap_sent (s : State) (n : Nat) (x : List CapRec) : (s.setCap n x).sent = s.sent := rfl
@[simp] theorem State.setCap_rd (s : State) (n : Nat) (x : List CapRec) : (s.setCap n x).rd = s.rd := rfl
@[simp] theorem State.setCap_emLast (s : State) (n : Nat) (x : List CapRec) : (s.setCap n x).emLast = s.emLast := rfl
@[simp] theorem State.setCap_tally (s : State) (n : Nat) (x : List CapRec) : (s.setCap n x).tally = s.tally := rfl
@[simp] theorem State.setCap_tb (s : State) (n : Nat) (x : List CapRec) : (s.setCap n x).tb = s.tb := rfl
@[simp] theorem State.setCap_mem (s : State) (n : Nat) (x : List CapRec) : (s.setCap n x).mem = s.mem := rfl
@[simp] theorem State.setCap_stash (s : State) (n : Nat) (x : List CapRec) : (s.setCap n x).stash = s.stash := rfl
@[simp] theorem State.setCap_ddr (s : State) (n : Nat) (x : List CapRec) : (s.setCap n x).ddr = s.ddr := rfl
@[simp] theorem State.setCap_ing (s : State) (n : Nat) (x : List CapRec) : (s.setCap n x).ing = s.ing := rfl
@[simp] theorem State.setCap_ply (s : State) (n : Nat) (x : List CapRec) : (s.setCap n x).ply = s.ply := rfl
@[simp] theorem State.setCap_host (s : State) (n : Nat) (x : List CapRec) : (s.setCap n x).host = s.host := rfl
@[simp] theorem State.setCap_ect (s : State) (n : Nat) (x : List CapRec) : (s.setCap n x).ect = s.ect := rfl
@[simp] theorem State.setCap_hook (s : State) (n : Nat) (x : List CapRec) : (s.setCap n x).hook = s.hook := rfl
@[simp] theorem State.setCap_vot (s : State) (n : Nat) (x : List CapRec) : (s.setCap n x).vot = s.vot := rfl
@[simp] theorem State.setCap_cast (s : State) (n : Nat) (x : List CapRec) : (s.setCap n x).cast = s.cast := rfl
@[simp] theorem State.setCap_kth (s : State) (n : Nat) (x : List CapRec) : (s.setCap n x).kth = s.kth := rfl
@[simp] theorem State.setCap_pwr (s : State) (n : Nat) (x : List CapRec) : (s.setCap n x).pwr = s.pwr := rfl
@[simp] theorem State.setCap_gau (s : State) (n : Nat) (x : List CapRec) : (s.setCap n x).gau = s.gau := rfl
@[simp] theorem State.setCap_hcache (s : State) (n : Nat) (x : List CapRec) : (s.setCap n x).hcache = s.hcache := rfl
@[simp] theorem State.setCap_od (s : State) (n : Nat) (x : List CapRec) : (s.setCap n x).od = s.od := rfl

@[simp] theorem State.setPlq_pending (s : State) (q : Nat) (x : Plq) : (s.setPlq q x).pending = s.pending := rfl
@[simp] theorem State.setPlq_regs (s : State) (q : Nat) (x : Plq) : (s.setPlq q x).regs = s.regs := rfl
@[simp] theorem State.setPlq_held (s : State) (q : Nat) (x : Plq) : (s.setPlq q x).held = s.held := rfl
@[simp] theorem State.setPlq_latched (s : State) (q : Nat) (x : Plq) : (s.setPlq q x).latched = s.latched := rfl
@[simp] theorem State.setPlq_uptime (s : State) (q : Nat) (x : Plq) : (s.setPlq q x).uptime = s.uptime := rfl
@[simp] theorem State.setPlq_free (s : State) (q : Nat) (x : Plq) : (s.setPlq q x).free = s.free := rfl
@[simp] theorem State.setPlq_sent (s : State) (q : Nat) (x : Plq) : (s.setPlq q x).sent = s.sent := rfl
@[simp] theorem State.setPlq_rd (s : State) (q : Nat) (x : Plq) : (s.setPlq q x).rd = s.rd := rfl
@[simp] theorem State.setPlq_emLast (s : State) (q : Nat) (x : Plq) : (s.setPlq q x).emLast = s.emLast := rfl
@[simp] theorem State.setPlq_tally (s : State) (q : Nat) (x : Plq) : (s.setPlq q x).tally = s.tally := rfl
@[simp] theorem State.setPlq_tb (s : State) (q : Nat) (x : Plq) : (s.setPlq q x).tb = s.tb := rfl
@[simp] theorem State.setPlq_web (s : State) (q : Nat) (x : Plq) : (s.setPlq q x).web = s.web := rfl
@[simp] theorem State.setPlq_mem (s : State) (q : Nat) (x : Plq) : (s.setPlq q x).mem = s.mem := rfl
@[simp] theorem State.setPlq_stash (s : State) (q : Nat) (x : Plq) : (s.setPlq q x).stash = s.stash := rfl
@[simp] theorem State.setPlq_ddr (s : State) (q : Nat) (x : Plq) : (s.setPlq q x).ddr = s.ddr := rfl
@[simp] theorem State.setPlq_ing (s : State) (q : Nat) (x : Plq) : (s.setPlq q x).ing = s.ing := rfl
@[simp] theorem State.setPlq_host (s : State) (q : Nat) (x : Plq) : (s.setPlq q x).host = s.host := rfl
@[simp] theorem State.setPlq_ect (s : State) (q : Nat) (x : Plq) : (s.setPlq q x).ect = s.ect := rfl
@[simp] theorem State.setPlq_hook (s : State) (q : Nat) (x : Plq) : (s.setPlq q x).hook = s.hook := rfl
@[simp] theorem State.setPlq_vot (s : State) (q : Nat) (x : Plq) : (s.setPlq q x).vot = s.vot := rfl
@[simp] theorem State.setPlq_cast (s : State) (q : Nat) (x : Plq) : (s.setPlq q x).cast = s.cast := rfl
@[simp] theorem State.setPlq_kth (s : State) (q : Nat) (x : Plq) : (s.setPlq q x).kth = s.kth := rfl
@[simp] theorem State.setPlq_pwr (s : State) (q : Nat) (x : Plq) : (s.setPlq q x).pwr = s.pwr := rfl
@[simp] theorem State.setPlq_gau (s : State) (q : Nat) (x : Plq) : (s.setPlq q x).gau = s.gau := rfl
@[simp] theorem State.setPlq_hcache (s : State) (q : Nat) (x : Plq) : (s.setPlq q x).hcache = s.hcache := rfl
@[simp] theorem State.setPlq_od (s : State) (q : Nat) (x : Plq) : (s.setPlq q x).od = s.od := rfl

@[simp] theorem State.setBset_pending (s : State) (n : Nat) (x : BSet) : (s.setBset n x).pending = s.pending := rfl
@[simp] theorem State.setBset_regs (s : State) (n : Nat) (x : BSet) : (s.setBset n x).regs = s.regs := rfl
@[simp] theorem State.setBset_held (s : State) (n : Nat) (x : BSet) : (s.setBset n x).held = s.held := rfl
@[simp] theorem State.setBset_latched (s : State) (n : Nat) (x : BSet) : (s.setBset n x).latched = s.latched := rfl
@[simp] theorem State.setBset_uptime (s : State) (n : Nat) (x : BSet) : (s.setBset n x).uptime = s.uptime := rfl
@[simp] theorem State.setBset_free (s : State) (n : Nat) (x : BSet) : (s.setBset n x).free = s.free := rfl
@[simp] theorem State.setBset_sent (s : State) (n : Nat) (x : BSet) : (s.setBset n x).sent = s.sent := rfl
@[simp] theorem State.setBset_rd (s : State) (n : Nat) (x : BSet) : (s.setBset n x).rd = s.rd := rfl
@[simp] theorem State.setBset_emLast (s : State) (n : Nat) (x : BSet) : (s.setBset n x).emLast = s.emLast := rfl
@[simp] theorem State.setBset_tally (s : State) (n : Nat) (x : BSet) : (s.setBset n x).tally = s.tally := rfl
@[simp] theorem State.setBset_tb (s : State) (n : Nat) (x : BSet) : (s.setBset n x).tb = s.tb := rfl
@[simp] theorem State.setBset_web (s : State) (n : Nat) (x : BSet) : (s.setBset n x).web = s.web := rfl
@[simp] theorem State.setBset_mem (s : State) (n : Nat) (x : BSet) : (s.setBset n x).mem = s.mem := rfl
@[simp] theorem State.setBset_stash (s : State) (n : Nat) (x : BSet) : (s.setBset n x).stash = s.stash := rfl
@[simp] theorem State.setBset_ddr (s : State) (n : Nat) (x : BSet) : (s.setBset n x).ddr = s.ddr := rfl
@[simp] theorem State.setBset_ing (s : State) (n : Nat) (x : BSet) : (s.setBset n x).ing = s.ing := rfl
@[simp] theorem State.setBset_host (s : State) (n : Nat) (x : BSet) : (s.setBset n x).host = s.host := rfl
@[simp] theorem State.setBset_ect (s : State) (n : Nat) (x : BSet) : (s.setBset n x).ect = s.ect := rfl
@[simp] theorem State.setBset_hook (s : State) (n : Nat) (x : BSet) : (s.setBset n x).hook = s.hook := rfl
@[simp] theorem State.setBset_vot (s : State) (n : Nat) (x : BSet) : (s.setBset n x).vot = s.vot := rfl
@[simp] theorem State.setBset_cast (s : State) (n : Nat) (x : BSet) : (s.setBset n x).cast = s.cast := rfl
@[simp] theorem State.setBset_kth (s : State) (n : Nat) (x : BSet) : (s.setBset n x).kth = s.kth := rfl
@[simp] theorem State.setBset_pwr (s : State) (n : Nat) (x : BSet) : (s.setBset n x).pwr = s.pwr := rfl
@[simp] theorem State.setBset_gau (s : State) (n : Nat) (x : BSet) : (s.setBset n x).gau = s.gau := rfl
@[simp] theorem State.setBset_hcache (s : State) (n : Nat) (x : BSet) : (s.setBset n x).hcache = s.hcache := rfl
@[simp] theorem State.setBset_od (s : State) (n : Nat) (x : BSet) : (s.setBset n x).od = s.od := rfl

@[simp] theorem State.setBed_pending (s : State) (b : Nat) (x : Bed) : (s.setBed b x).pending = s.pending := rfl
@[simp] theorem State.setBed_regs (s : State) (b : Nat) (x : Bed) : (s.setBed b x).regs = s.regs := rfl
@[simp] theorem State.setBed_held (s : State) (b : Nat) (x : Bed) : (s.setBed b x).held = s.held := rfl
@[simp] theorem State.setBed_latched (s : State) (b : Nat) (x : Bed) : (s.setBed b x).latched = s.latched := rfl
@[simp] theorem State.setBed_uptime (s : State) (b : Nat) (x : Bed) : (s.setBed b x).uptime = s.uptime := rfl
@[simp] theorem State.setBed_free (s : State) (b : Nat) (x : Bed) : (s.setBed b x).free = s.free := rfl
@[simp] theorem State.setBed_sent (s : State) (b : Nat) (x : Bed) : (s.setBed b x).sent = s.sent := rfl
@[simp] theorem State.setBed_rd (s : State) (b : Nat) (x : Bed) : (s.setBed b x).rd = s.rd := rfl
@[simp] theorem State.setBed_emLast (s : State) (b : Nat) (x : Bed) : (s.setBed b x).emLast = s.emLast := rfl
@[simp] theorem State.setBed_tally (s : State) (b : Nat) (x : Bed) : (s.setBed b x).tally = s.tally := rfl
@[simp] theorem State.setBed_tb (s : State) (b : Nat) (x : Bed) : (s.setBed b x).tb = s.tb := rfl
@[simp] theorem State.setBed_web (s : State) (b : Nat) (x : Bed) : (s.setBed b x).web = s.web := rfl
@[simp] theorem State.setBed_mem (s : State) (b : Nat) (x : Bed) : (s.setBed b x).mem = s.mem := rfl
@[simp] theorem State.setBed_stash (s : State) (b : Nat) (x : Bed) : (s.setBed b x).stash = s.stash := rfl
@[simp] theorem State.setBed_ddr (s : State) (b : Nat) (x : Bed) : (s.setBed b x).ddr = s.ddr := rfl
@[simp] theorem State.setBed_ing (s : State) (b : Nat) (x : Bed) : (s.setBed b x).ing = s.ing := rfl
@[simp] theorem State.setBed_host (s : State) (b : Nat) (x : Bed) : (s.setBed b x).host = s.host := rfl
@[simp] theorem State.setBed_ect (s : State) (b : Nat) (x : Bed) : (s.setBed b x).ect = s.ect := rfl
@[simp] theorem State.setBed_hook (s : State) (b : Nat) (x : Bed) : (s.setBed b x).hook = s.hook := rfl
@[simp] theorem State.setBed_vot (s : State) (b : Nat) (x : Bed) : (s.setBed b x).vot = s.vot := rfl
@[simp] theorem State.setBed_cast (s : State) (b : Nat) (x : Bed) : (s.setBed b x).cast = s.cast := rfl
@[simp] theorem State.setBed_kth (s : State) (b : Nat) (x : Bed) : (s.setBed b x).kth = s.kth := rfl
@[simp] theorem State.setBed_pwr (s : State) (b : Nat) (x : Bed) : (s.setBed b x).pwr = s.pwr := rfl
@[simp] theorem State.setBed_gau (s : State) (b : Nat) (x : Bed) : (s.setBed b x).gau = s.gau := rfl
@[simp] theorem State.setBed_hcache (s : State) (b : Nat) (x : Bed) : (s.setBed b x).hcache = s.hcache := rfl
@[simp] theorem State.setBed_od (s : State) (b : Nat) (x : Bed) : (s.setBed b x).od = s.od := rfl

@[simp] theorem State.setIch_pending (s : State) (n : Nat) (x : IChan) : (s.setIch n x).pending = s.pending := rfl
@[simp] theorem State.setIch_regs (s : State) (n : Nat) (x : IChan) : (s.setIch n x).regs = s.regs := rfl
@[simp] theorem State.setIch_held (s : State) (n : Nat) (x : IChan) : (s.setIch n x).held = s.held := rfl
@[simp] theorem State.setIch_latched (s : State) (n : Nat) (x : IChan) : (s.setIch n x).latched = s.latched := rfl
@[simp] theorem State.setIch_uptime (s : State) (n : Nat) (x : IChan) : (s.setIch n x).uptime = s.uptime := rfl
@[simp] theorem State.setIch_free (s : State) (n : Nat) (x : IChan) : (s.setIch n x).free = s.free := rfl
@[simp] theorem State.setIch_sent (s : State) (n : Nat) (x : IChan) : (s.setIch n x).sent = s.sent := rfl
@[simp] theorem State.setIch_rd (s : State) (n : Nat) (x : IChan) : (s.setIch n x).rd = s.rd := rfl
@[simp] theorem State.setIch_emLast (s : State) (n : Nat) (x : IChan) : (s.setIch n x).emLast = s.emLast := rfl
@[simp] theorem State.setIch_tally (s : State) (n : Nat) (x : IChan) : (s.setIch n x).tally = s.tally := rfl
@[simp] theorem State.setIch_tb (s : State) (n : Nat) (x : IChan) : (s.setIch n x).tb = s.tb := rfl
@[simp] theorem State.setIch_web (s : State) (n : Nat) (x : IChan) : (s.setIch n x).web = s.web := rfl
@[simp] theorem State.setIch_mem (s : State) (n : Nat) (x : IChan) : (s.setIch n x).mem = s.mem := rfl
@[simp] theorem State.setIch_stash (s : State) (n : Nat) (x : IChan) : (s.setIch n x).stash = s.stash := rfl
@[simp] theorem State.setIch_ddr (s : State) (n : Nat) (x : IChan) : (s.setIch n x).ddr = s.ddr := rfl
@[simp] theorem State.setIch_ply (s : State) (n : Nat) (x : IChan) : (s.setIch n x).ply = s.ply := rfl
@[simp] theorem State.setIch_host (s : State) (n : Nat) (x : IChan) : (s.setIch n x).host = s.host := rfl
@[simp] theorem State.setIch_ect (s : State) (n : Nat) (x : IChan) : (s.setIch n x).ect = s.ect := rfl
@[simp] theorem State.setIch_hook (s : State) (n : Nat) (x : IChan) : (s.setIch n x).hook = s.hook := rfl
@[simp] theorem State.setIch_vot (s : State) (n : Nat) (x : IChan) : (s.setIch n x).vot = s.vot := rfl
@[simp] theorem State.setIch_cast (s : State) (n : Nat) (x : IChan) : (s.setIch n x).cast = s.cast := rfl
@[simp] theorem State.setIch_kth (s : State) (n : Nat) (x : IChan) : (s.setIch n x).kth = s.kth := rfl
@[simp] theorem State.setIch_pwr (s : State) (n : Nat) (x : IChan) : (s.setIch n x).pwr = s.pwr := rfl
@[simp] theorem State.setIch_gau (s : State) (n : Nat) (x : IChan) : (s.setIch n x).gau = s.gau := rfl
@[simp] theorem State.setIch_hcache (s : State) (n : Nat) (x : IChan) : (s.setIch n x).hcache = s.hcache := rfl
@[simp] theorem State.setIch_od (s : State) (n : Nat) (x : IChan) : (s.setIch n x).od = s.od := rfl

@[simp] theorem State.setCam_pending (s : State) (k : Nat) (x : Cam) : (s.setCam k x).pending = s.pending := rfl
@[simp] theorem State.setCam_regs (s : State) (k : Nat) (x : Cam) : (s.setCam k x).regs = s.regs := rfl
@[simp] theorem State.setCam_held (s : State) (k : Nat) (x : Cam) : (s.setCam k x).held = s.held := rfl
@[simp] theorem State.setCam_latched (s : State) (k : Nat) (x : Cam) : (s.setCam k x).latched = s.latched := rfl
@[simp] theorem State.setCam_uptime (s : State) (k : Nat) (x : Cam) : (s.setCam k x).uptime = s.uptime := rfl
@[simp] theorem State.setCam_free (s : State) (k : Nat) (x : Cam) : (s.setCam k x).free = s.free := rfl
@[simp] theorem State.setCam_sent (s : State) (k : Nat) (x : Cam) : (s.setCam k x).sent = s.sent := rfl
@[simp] theorem State.setCam_rd (s : State) (k : Nat) (x : Cam) : (s.setCam k x).rd = s.rd := rfl
@[simp] theorem State.setCam_emLast (s : State) (k : Nat) (x : Cam) : (s.setCam k x).emLast = s.emLast := rfl
@[simp] theorem State.setCam_tally (s : State) (k : Nat) (x : Cam) : (s.setCam k x).tally = s.tally := rfl
@[simp] theorem State.setCam_tb (s : State) (k : Nat) (x : Cam) : (s.setCam k x).tb = s.tb := rfl
@[simp] theorem State.setCam_web (s : State) (k : Nat) (x : Cam) : (s.setCam k x).web = s.web := rfl
@[simp] theorem State.setCam_mem (s : State) (k : Nat) (x : Cam) : (s.setCam k x).mem = s.mem := rfl
@[simp] theorem State.setCam_stash (s : State) (k : Nat) (x : Cam) : (s.setCam k x).stash = s.stash := rfl
@[simp] theorem State.setCam_ddr (s : State) (k : Nat) (x : Cam) : (s.setCam k x).ddr = s.ddr := rfl
@[simp] theorem State.setCam_ply (s : State) (k : Nat) (x : Cam) : (s.setCam k x).ply = s.ply := rfl
@[simp] theorem State.setCam_host (s : State) (k : Nat) (x : Cam) : (s.setCam k x).host = s.host := rfl
@[simp] theorem State.setCam_ect (s : State) (k : Nat) (x : Cam) : (s.setCam k x).ect = s.ect := rfl
@[simp] theorem State.setCam_hook (s : State) (k : Nat) (x : Cam) : (s.setCam k x).hook = s.hook := rfl
@[simp] theorem State.setCam_vot (s : State) (k : Nat) (x : Cam) : (s.setCam k x).vot = s.vot := rfl
@[simp] theorem State.setCam_cast (s : State) (k : Nat) (x : Cam) : (s.setCam k x).cast = s.cast := rfl
@[simp] theorem State.setCam_kth (s : State) (k : Nat) (x : Cam) : (s.setCam k x).kth = s.kth := rfl
@[simp] theorem State.setCam_pwr (s : State) (k : Nat) (x : Cam) : (s.setCam k x).pwr = s.pwr := rfl
@[simp] theorem State.setCam_gau (s : State) (k : Nat) (x : Cam) : (s.setCam k x).gau = s.gau := rfl
@[simp] theorem State.setCam_hcache (s : State) (k : Nat) (x : Cam) : (s.setCam k x).hcache = s.hcache := rfl
@[simp] theorem State.setCam_od (s : State) (k : Nat) (x : Cam) : (s.setCam k x).od = s.od := rfl

@[simp] theorem State.fresh_val (s : State) : s.fresh.1 = Config.freeNat s.free := rfl
@[simp] theorem State.when_true (f : State → State) (s : State) : State.when true f s = f s := rfl
@[simp] theorem State.when_false (f : State → State) (s : State) : State.when false f s = s := rfl

@[simp] theorem State.enc_setEnc (s : State) (e : Nat) (x : Enc) : (s.setEnc e x).enc e = x := KV.get_set_same ..
theorem State.enc_setEnc_other (s : State) {e k' : Nat} (x : Enc) (h : e ≠ k') : (s.setEnc e x).enc k' = s.enc k' :=
  KV.get_set_other _ _ _ h
@[simp] theorem State.chan_setChan (s : State) (n : Nat) (x : Chan) : (s.setChan n x).chan n = x := KV.get_set_same ..
theorem State.chan_setChan_other (s : State) {n k' : Nat} (x : Chan) (h : n ≠ k') : (s.setChan n x).chan k' = s.chan k' :=
  KV.get_set_other _ _ _ h
@[simp] theorem State.out_setOut (s : State) (o : Nat) (x : Out) : (s.setOut o x).out o = x := KV.get_set_same ..
theorem State.out_setOut_other (s : State) {o k' : Nat} (x : Out) (h : o ≠ k') : (s.setOut o x).out k' = s.out k' :=
  KV.get_set_other _ _ _ h
@[simp] theorem State.cap_setCap (s : State) (n : Nat) (x : List CapRec) : (s.setCap n x).cap n = x := KV.get_set_same ..
theorem State.cap_setCap_other (s : State) {n k' : Nat} (x : List CapRec) (h : n ≠ k') : (s.setCap n x).cap k' = s.cap k' :=
  KV.get_set_other _ _ _ h
@[simp] theorem State.plq_setPlq (s : State) (q : Nat) (x : Plq) : (s.setPlq q x).plq q = x := KV.get_set_same ..
theorem State.plq_setPlq_other (s : State) {q k' : Nat} (x : Plq) (h : q ≠ k') : (s.setPlq q x).plq k' = s.plq k' :=
  KV.get_set_other _ _ _ h
@[simp] theorem State.bset_setBset (s : State) (n : Nat) (x : BSet) : (s.setBset n x).bset n = x := KV.get_set_same ..
theorem State.bset_setBset_other (s : State) {n k' : Nat} (x : BSet) (h : n ≠ k') : (s.setBset n x).bset k' = s.bset k' :=
  KV.get_set_other _ _ _ h
@[simp] theorem State.bed_setBed (s : State) (b : Nat) (x : Bed) : (s.setBed b x).bed b = x := KV.get_set_same ..
theorem State.bed_setBed_other (s : State) {b k' : Nat} (x : Bed) (h : b ≠ k') : (s.setBed b x).bed k' = s.bed k' :=
  KV.get_set_other _ _ _ h
@[simp] theorem State.ich_setIch (s : State) (n : Nat) (x : IChan) : (s.setIch n x).ich n = x := KV.get_set_same ..
theorem State.ich_setIch_other (s : State) {n k' : Nat} (x : IChan) (h : n ≠ k') : (s.setIch n x).ich k' = s.ich k' :=
  KV.get_set_other _ _ _ h
@[simp] theorem State.cam_setCam (s : State) (k : Nat) (x : Cam) : (s.setCam k x).cam k = x := KV.get_set_same ..
theorem State.cam_setCam_other (s : State) {k k' : Nat} (x : Cam) (h : k ≠ k') : (s.setCam k x).cam k' = s.cam k' :=
  KV.get_set_other _ _ _ h
@[simp] theorem State.th_setTh (s : State) (c t : Nat) (x : Thread) : (s.setTh c t x).th c t = x := KV.get_set_same ..

theorem State.th_setTh_other (s : State) {c t c' t' : Nat} (x : Thread) (h : 4 * c + t ≠ 4 * c' + t') :
    (s.setTh c t x).th c' t' = s.th c' t' := KV.get_set_other _ _ _ h

@[simp] theorem State.setTh_setTh (s : State) (c t : Nat) (x y : Thread) : (s.setTh c t x).setTh c t y = s.setTh c t y := by
  simp only [State.setTh, KV.set_set]

@[simp] theorem State.reg_setTh (s : State) (c t : Nat) (x : Thread) (r : Reg) : (s.setTh c t x).reg r = s.reg r := rfl
@[simp] theorem State.fld_setTh (s : State) (c t : Nat) (x : Thread) (f : Fld) (i j : Nat) : (s.setTh c t x).fld f i j = s.fld f i j := rfl
@[simp] theorem State.flag_setTh (s : State) (c t : Nat) (x : Thread) (f : Fld) (i j : Nat) :
    (s.setTh c t x).flag f i j = s.flag f i j := rfl

end Machine
end Sys2Proof
end

