-- ==== Sys2Proof/Laws/Regs.lean ====
section
/-!
SUPPORT. Sys2Proof/Laws/Regs.lean: registers and their fields: a field reads back what was set, every other field and register stands;
and what a write of a register by its kind comes to.
-/
namespace Sys2Proof

/-- A field's replacement as a sum of three parts. -/
theorem putBits_eq {hi lo : Nat} (h : lo ≤ hi) (v x : Nat) :
    putBits v hi lo x = v / 2 ^ (hi + 1) * 2 ^ (hi + 1) + x % 2 ^ (hi + 1 - lo) * 2 ^ lo + v % 2 ^ lo := by
  have e : 2 ^ (hi + 1) = 2 ^ lo * 2 ^ (hi + 1 - lo) := by rw [← Nat.pow_add]; congr 1; omega
  unfold putBits bitsOf
  rw [e, Nat.shiftRight_eq_div_pow, ← Nat.div_div_eq_div_mul]
  generalize 2 ^ (hi + 1 - lo) = B
  generalize 2 ^ lo = A
  have h1 := Nat.div_add_mod v A
  have h2 := Nat.div_add_mod (v / A) B
  generalize v / A / B = q at *
  generalize v / A % B = m at *
  generalize v % A = r at *
  rw [← h2] at h1
  rw [← h1]
  have : A * (B * q + m) = q * (A * B) + m * A := by
    rw [Nat.mul_add]; congr 1
    · rw [Nat.mul_comm q, Nat.mul_assoc]
    · exact Nat.mul_comm ..
  rw [this]
  omega

theorem bitsOf_putBits_same {hi lo : Nat} (h : lo ≤ hi) (v x : Nat) : bitsOf (putBits v hi lo x) hi lo = x % 2 ^ (hi + 1 - lo) := by
  have e : 2 ^ (hi + 1) = 2 ^ (hi + 1 - lo) * 2 ^ lo := by rw [← Nat.pow_add]; congr 1; omega
  rw [putBits_eq h]
  unfold bitsOf
  rw [e, Nat.shiftRight_eq_div_pow]
  have p : 0 < 2 ^ lo := Nat.two_pow_pos lo
  rw [← Nat.mul_assoc, ← Nat.add_mul, Nat.add_comm, Nat.add_mul_div_right _ _ p, Nat.div_eq_of_lt (Nat.mod_lt _ p), Nat.zero_add,
    Nat.add_comm, Nat.add_mul_mod_self_right, Nat.mod_mod]

theorem bitsOf_putBits_above {hi lo hi' lo' : Nat} (h : lo ≤ hi) (d : hi < lo') (v x : Nat) :
    bitsOf (putBits v hi lo x) hi' lo' = bitsOf v hi' lo' := by
  rw [putBits_eq h]
  unfold bitsOf
  congr 1
  have s : 2 ^ lo' = 2 ^ (hi + 1) * 2 ^ (lo' - (hi + 1)) := by rw [← Nat.pow_add]; congr 1; omega
  rw [Nat.shiftRight_eq_div_pow, Nat.shiftRight_eq_div_pow, s, ← Nat.div_div_eq_div_mul, ← Nat.div_div_eq_div_mul]
  congr 1
  have b : x % 2 ^ (hi + 1 - lo) * 2 ^ lo + v % 2 ^ lo < 2 ^ (hi + 1) := by
    have e : 2 ^ (hi + 1) = 2 ^ (hi + 1 - lo) * 2 ^ lo := by rw [← Nat.pow_add]; congr 1; omega
    have a := Nat.mod_lt x (Nat.two_pow_pos (hi + 1 - lo))
    have c := Nat.mod_lt v (Nat.two_pow_pos lo)
    rw [e]
    have := Nat.mul_le_mul_right (2 ^ lo) (Nat.succ_le_of_lt a)
    rw [Nat.succ_mul] at this
    omega
  rw [Nat.add_assoc, Nat.add_comm, Nat.add_mul_div_right _ _ (Nat.two_pow_pos _), Nat.div_eq_of_lt b, Nat.zero_add]

theorem bitsOf_putBits_below {hi lo hi' lo' : Nat} (h : lo ≤ hi) (d : hi' < lo) (v x : Nat) :
    bitsOf (putBits v hi lo x) hi' lo' = bitsOf v hi' lo' := by
  have low : putBits v hi lo x % 2 ^ lo = v % 2 ^ lo := by
    have e : 2 ^ (hi + 1) = 2 ^ (hi + 1 - lo) * 2 ^ lo := by rw [← Nat.pow_add]; congr 1; omega
    rw [putBits_eq h, e, ← Nat.mul_assoc, ← Nat.add_mul, Nat.add_comm, Nat.add_mul_mod_self_right, Nat.mod_mod]
  by_cases c : lo' ≤ hi'
  · have key : ∀ n, bitsOf n hi' lo' = n % 2 ^ lo % 2 ^ (hi' + 1) / 2 ^ lo' := by
      intro n
      unfold bitsOf
      rw [Nat.shiftRight_eq_div_pow, Nat.mod_mod_of_dvd _ (Nat.pow_dvd_pow 2 (by omega : hi' + 1 ≤ lo)),
        show hi' + 1 = lo' + (hi' + 1 - lo') by omega, Nat.pow_add, Nat.mod_mul_right_div_self]
      congr 2; omega
    rw [key, key, low]
  · unfold bitsOf
    rw [show hi' + 1 - lo' = 0 by omega]
    simp [Nat.mod_one]

theorem putBits_lt {hi lo v w : Nat} (h : lo ≤ hi) (hw : hi < w) (hv : v < 2 ^ w) (x : Nat) : putBits v hi lo x < 2 ^ w := by
  rw [putBits_eq h]
  have e : 2 ^ (hi + 1) = 2 ^ (hi + 1 - lo) * 2 ^ lo := by rw [← Nat.pow_add]; congr 1; omega
  have a := Nat.mod_lt x (Nat.two_pow_pos (hi + 1 - lo))
  have c := Nat.mod_lt v (Nat.two_pow_pos lo)
  have b : x % 2 ^ (hi + 1 - lo) * 2 ^ lo + v % 2 ^ lo < 2 ^ (hi + 1) := by
    rw [e]
    have := Nat.mul_le_mul_right (2 ^ lo) (Nat.succ_le_of_lt a)
    rw [Nat.succ_mul] at this
    omega
  have f : 2 ^ w = 2 ^ (w - (hi + 1)) * 2 ^ (hi + 1) := by rw [← Nat.pow_add]; congr 1; omega
  have g : v / 2 ^ (hi + 1) < 2 ^ (w - (hi + 1)) := by
    rw [Nat.div_lt_iff_lt_mul (Nat.two_pow_pos _), ← f]; exact hv
  have := Nat.mul_le_mul_right (2 ^ (hi + 1)) (Nat.succ_le_of_lt g)
  rw [← f, Nat.succ_mul] at this
  omega

/-- A field lies in its word. -/
def Fld.ok (f : Fld) : Bool := decide (f.lo ≤ f.hi) && decide (f.hi < 32)

/-- Two fields share no bit of a register. -/
def Fld.apart (f g : Fld) : Bool := decide (f.k ≠ g.k) || decide (f.hi < g.lo) || decide (g.hi < f.lo)

namespace Machine

@[simp] theorem State.reg_setReg (s : State) (r : Reg) (v : Word) : (s.setReg r v).reg r = v := KV.get_set_same ..

theorem State.reg_setReg_other (s : State) {r q : Reg} (v : Word) (h : r ≠ q) : (s.setReg r v).reg q = s.reg q :=
  KV.get_set_other _ _ _ h

theorem State.setReg_setReg (s : State) (r : Reg) (v w : Word) : (s.setReg r v).setReg r w = s.setReg r w := by
  simp only [State.setReg, KV.set_set]

theorem State.reg_setFld_other (s : State) {f : Fld} {v i j : Nat} {q : Reg} (h : (⟨f.k, i, j⟩ : Reg) ≠ q) :
    (s.setFld f v i j).reg q = s.reg q := State.reg_setReg_other s _ h

/-- A field reads back what was set. -/
theorem State.fld_setFld (s : State) (f : Fld) (v i j : Nat) (h : f.ok = true) :
    (s.setFld f v i j).fld f i j = v % 2 ^ (f.hi + 1 - f.lo) := by
  simp only [Fld.ok, Bool.and_eq_true, decide_eq_true_eq] at h
  unfold State.setFld State.fld
  rw [State.reg_setReg, BitVec.toNat_ofNat, Nat.mod_eq_of_lt (putBits_lt h.1 h.2 (BitVec.isLt _) _), bitsOf_putBits_same h.1]

/-- A field of another register, or of other bits, stands. -/
theorem State.fld_setFld_apart (s : State) {f g : Fld} {v i j i' j' : Nat} (h : f.ok = true) (a : f.apart g = true) :
    (s.setFld f v i j).fld g i' j' = s.fld g i' j' := by
  simp only [Fld.ok, Bool.and_eq_true, decide_eq_true_eq] at h
  unfold State.setFld State.fld
  by_cases e : (⟨f.k, i, j⟩ : Reg) = ⟨g.k, i', j'⟩
  · injection e with e1 e2 e3
    simp only [Fld.apart, e1, ne_eq, not_true_eq_false, decide_false, Bool.false_or, Bool.or_eq_true, decide_eq_true_eq] at a
    subst e2 e3
    rw [e1, State.reg_setReg, BitVec.toNat_ofNat, Nat.mod_eq_of_lt (putBits_lt h.1 h.2 (BitVec.isLt _) _)]
    rcases a with a | a
    · exact bitsOf_putBits_above h.1 a _ _
    · exact bitsOf_putBits_below h.1 a _ _
  · rw [State.reg_setReg_other _ _ e]

/-- A field of another instance stands. -/
theorem State.fld_setFld_index (s : State) {f g : Fld} {v i j i' j' : Nat} (h : i ≠ i' ∨ j ≠ j') :
    (s.setFld f v i j).fld g i' j' = s.fld g i' j' := by
  unfold State.setFld State.fld
  rw [State.reg_setReg_other]
  intro e
  injection e with _ e2 e3
  rcases h with h | h
  · exact h e2
  · exact h e3

/-- What the register of a block does with a write that takes effect. -/
def State.act (s : State) (who : Who) (r : Reg) (v : Word) : State :=
  match r.kind.info.block with
  | .TIO => s.actWeb who r v
  | .CXP => s.actIngest who r v
  | .BED => s.actPly who r v
  | .PLQ => s.actPly who r v
  | .HKC => s.actHook who r v
  | .VOT => s.actHook who r v
  | _ => s.actSys who r v

/-- A write that takes effect stores into its register. -/
theorem State.writeTo_store {s : State} {who : Who} {k : RegKind} {i j v : Nat}
    (h : s.reaches who ⟨k, i, j⟩ (BitVec.ofNat 32 v) = true) :
    s.writeTo who k i j v = s.storeReg who ⟨k, i, j⟩ (BitVec.ofNat 32 v) := by
  simp only [State.reaches, Bool.and_eq_true] at h
  obtain ⟨⟨⟨ho, _⟩, _⟩, hw⟩ := h
  have e := Reg.ofAddr_addr ho
  unfold State.writeTo State.writeBy
  cases who with
  | hook c t p =>
    simp only [Bool.and_eq_true, Option.isNone_iff_eq_none] at hw
    simp [hw.1, hw.2, State.storeAddr, e]
  | host fn =>
    simp only [Bool.and_eq_true, decide_eq_true_eq] at hw
    simp [e, State.hostStore, hw.1, hw.2]
  | jtag =>
    dsimp only at hw
    simp [hw, State.storeAddr, e]
  | bootRom => simp [State.storeAddr, e]
  | firmware => simp [State.storeAddr, e]

/-- A write that takes effect, to a register that is no half of a pair, does what its block does. -/
theorem State.writeTo_act {s : State} {who : Who} {k : RegKind} {i j v : Nat}
    (h : s.reaches who ⟨k, i, j⟩ (BitVec.ofNat 32 v) = true) (h1 : k.hiOf = none) (h2 : k.loOf = none) :
    s.writeTo who k i j v = s.act who ⟨k, i, j⟩ (BitVec.ofNat 32 v) := by
  rw [State.writeTo_store h]
  simp only [State.reaches, Bool.and_eq_true, Bool.not_eq_true', Bool.and_eq_false_iff, decide_eq_false_iff_not] at h
  obtain ⟨⟨⟨_, hr⟩, hk⟩, _⟩ := h
  unfold State.storeReg State.act
  simp only [hr, h1, h2, Bool.false_eq_true, if_false]
  rw [if_neg (by
    intro c
    rcases hk with (a | a) | a
    · exact a c.1
    · exact absurd (a.symm.trans c.2.1) (by decide)
    · exact a c.2.2)]
  all_goals (cases k.info.block <;> rfl)

/-- Such a write to the HI half of a pair loads both halves. -/
theorem State.writeTo_pair {s : State} {who : Who} {k l : RegKind} {i j v : Nat}
    (h : s.reaches who ⟨k, i, j⟩ (BitVec.ofNat 32 v) = true) (h1 : k.hiOf = none) (h2 : k.loOf = some l)
    (h3 : (k.info.fields.any fun f => f.acc != .r) = true) :
    s.writeTo who k i j v = s.loadPair who ⟨l, i, j⟩ ⟨k, i, j⟩ (BitVec.ofNat 32 v) := by
  rw [State.writeTo_store h]
  simp only [State.reaches, Bool.and_eq_true, Bool.not_eq_true', Bool.and_eq_false_iff, decide_eq_false_iff_not] at h
  obtain ⟨⟨⟨_, hr⟩, hk⟩, _⟩ := h
  unfold State.storeReg
  simp only [hr, h1, h2, h3, Bool.false_eq_true, if_false, if_true]
  rw [if_neg (by
    intro c
    rcases hk with (a | a) | a
    · exact a c.1
    · exact absurd (a.symm.trans c.2.1) (by decide)
    · exact a c.2.2)]

/-- A read that takes effect, of a register other than the MSI-X tables, is the read of that register. -/
theorem State.readFrom_load {s : State} {who : Who} {k : RegKind} {i j : Nat} (h : s.readsOut who ⟨k, i, j⟩ = true) :
    s.readFrom who k i j = { (s.loadReg who ⟨k, i, j⟩).2 with rd := leBytes 4 (s.loadReg who ⟨k, i, j⟩).1.toNat } := by
  simp only [State.readsOut, Bool.and_eq_true] at h
  obtain ⟨ho, hw⟩ := h
  have e := Reg.ofAddr_addr ho
  unfold State.readFrom State.readBy
  cases who with
  | hook c t p =>
    simp only [Bool.and_eq_true] at hw
    simp [hw.1, hw.2, State.loadAddr, e]
  | host fn =>
    simp only [Bool.and_eq_true, decide_eq_true_eq] at hw
    obtain ⟨⟨a, b⟩, c⟩ := hw
    simp only [e, State.hostLoad, a]
    simp
  | jtag =>
    dsimp only at hw
    simp [hw, State.loadAddr, e]
  | bootRom => simp [State.loadAddr, e]
  | firmware => simp [State.loadAddr, e]

end Machine
end Sys2Proof
end

