-- ==== Sys2Proof/Laws/Acts.lean ====
section
/-!
SUPPORT. Sys2Proof/Laws/Acts.lean: what raising an interrupt, an emergency and the passing of time leave alone, and what they do.
-/
namespace Sys2Proof.Machine

/-- Raising an interrupt changes pending bits alone (R297, R385). -/
theorem State.raise_only (s : State) (v : Nat) : s.raise v = { s with regs := (s.raise v).regs } := by
  unfold State.raise
  split
  · rfl
  · simp only [List.foldl]
    repeat' split
    all_goals rfl

/-- No other field changes with it. -/
theorem State.fld_raise (s : State) (v : Nat) {f : Fld} {i j : Nat} (h : f.k ≠ .HKC_IRQ_CFG) : (s.raise v).fld f i j = s.fld f i j := by
  have k : ∀ (u : State) (c x : Nat), (u.setFld F.HKC_IRQ_CFG_PEND 1 c x).fld f i j = u.fld f i j := fun u c x =>
    State.fld_setFld_apart u (by decide) (by simp [Fld.apart, Ne.symm h, F.HKC_IRQ_CFG_PEND])
  unfold State.raise
  split
  · exact k _ _ _
  · simp only [List.foldl]
    repeat' split
    all_goals simp only [k]

theorem State.flag_raise (s : State) (v : Nat) {f : Fld} {i j : Nat} (h : f.k ≠ .HKC_IRQ_CFG) :
    (s.raise v).flag f i j = s.flag f i j := by
  unfold State.flag
  rw [State.fld_raise s v h]

/-- In voted mode the vector is pending on the voted core. -/
theorem State.raise_voted {s : State} (v : Nat) (h : s.voted = true) : s.raise v = s.setFld F.HKC_IRQ_CFG_PEND 1 0 v := by
  unfold State.raise
  rw [if_pos (by simpa [State.voted] using h)]

/-- An emergency changes what was sent and when, alone (R455). -/
theorem State.emergency_only (s : State) (c : Nat) :
    s.emergency c = { s with sent := (s.emergency c).sent, emLast := (s.emergency c).emLast } := by
  unfold State.emergency
  split
  · split <;> rfl
  · rfl

/-- Time passing changes the time base, the uptime and the index of open values alone (R31, R32, R527). -/
theorem State.advance_only (s : State) (dt : Nat) :
    s.advance dt = { s with uptime := (s.advance dt).uptime, free := (s.advance dt).free, tb := (s.advance dt).tb } := by
  unfold State.advance State.advanceRef
  dsimp only
  split
  · rfl
  · split <;> rfl

@[simp] theorem State.raise_pending (s : State) (v : Nat) : (s.raise v).pending = s.pending := by rw [State.raise_only]
@[simp] theorem State.raise_held (s : State) (v : Nat) : (s.raise v).held = s.held := by rw [State.raise_only]
@[simp] theorem State.raise_latched (s : State) (v : Nat) : (s.raise v).latched = s.latched := by rw [State.raise_only]
@[simp] theorem State.raise_uptime (s : State) (v : Nat) : (s.raise v).uptime = s.uptime := by rw [State.raise_only]
@[simp] theorem State.raise_free (s : State) (v : Nat) : (s.raise v).free = s.free := by rw [State.raise_only]
@[simp] theorem State.raise_sent (s : State) (v : Nat) : (s.raise v).sent = s.sent := by rw [State.raise_only]
@[simp] theorem State.raise_rd (s : State) (v : Nat) : (s.raise v).rd = s.rd := by rw [State.raise_only]
@[simp] theorem State.raise_emLast (s : State) (v : Nat) : (s.raise v).emLast = s.emLast := by rw [State.raise_only]
@[simp] theorem State.raise_tally (s : State) (v : Nat) : (s.raise v).tally = s.tally := by rw [State.raise_only]
@[simp] theorem State.raise_tb (s : State) (v : Nat) : (s.raise v).tb = s.tb := by rw [State.raise_only]
@[simp] theorem State.raise_web (s : State) (v : Nat) : (s.raise v).web = s.web := by rw [State.raise_only]
@[simp] theorem State.raise_mem (s : State) (v : Nat) : (s.raise v).mem = s.mem := by rw [State.raise_only]
@[simp] theorem State.raise_stash (s : State) (v : Nat) : (s.raise v).stash = s.stash := by rw [State.raise_only]
@[simp] theorem State.raise_ddr (s : State) (v : Nat) : (s.raise v).ddr = s.ddr := by rw [State.raise_only]
@[simp] theorem State.raise_ing (s : State) (v : Nat) : (s.raise v).ing = s.ing := by rw [State.raise_only]
@[simp] theorem State.raise_ply (s : State) (v : Nat) : (s.raise v).ply = s.ply := by rw [State.raise_only]
@[simp] theorem State.raise_host (s : State) (v : Nat) : (s.raise v).host = s.host := by rw [State.raise_only]
@[simp] theorem State.raise_ect (s : State) (v : Nat) : (s.raise v).ect = s.ect := by rw [State.raise_only]
@[simp] theorem State.raise_hook (s : State) (v : Nat) : (s.raise v).hook = s.hook := by rw [State.raise_only]
@[simp] theorem State.raise_vot (s : State) (v : Nat) : (s.raise v).vot = s.vot := by rw [State.raise_only]
@[simp] theorem State.raise_cast (s : State) (v : Nat) : (s.raise v).cast = s.cast := by rw [State.raise_only]
@[simp] theorem State.raise_kth (s : State) (v : Nat) : (s.raise v).kth = s.kth := by rw [State.raise_only]
@[simp] theorem State.raise_pwr (s : State) (v : Nat) : (s.raise v).pwr = s.pwr := by rw [State.raise_only]
@[simp] theorem State.raise_gau (s : State) (v : Nat) : (s.raise v).gau = s.gau := by rw [State.raise_only]
@[simp] theorem State.raise_hcache (s : State) (v : Nat) : (s.raise v).hcache = s.hcache := by rw [State.raise_only]
@[simp] theorem State.raise_od (s : State) (v : Nat) : (s.raise v).od = s.od := by rw [State.raise_only]

@[simp] theorem State.emergency_pending (s : State) (c : Nat) : (s.emergency c).pending = s.pending := by rw [State.emergency_only]
@[simp] theorem State.emergency_regs (s : State) (c : Nat) : (s.emergency c).regs = s.regs := by rw [State.emergency_only]
@[simp] theorem State.emergency_held (s : State) (c : Nat) : (s.emergency c).held = s.held := by rw [State.emergency_only]
@[simp] theorem State.emergency_latched (s : State) (c : Nat) : (s.emergency c).latched = s.latched := by rw [State.emergency_only]
@[simp] theorem State.emergency_uptime (s : State) (c : Nat) : (s.emergency c).uptime = s.uptime := by rw [State.emergency_only]
@[simp] theorem State.emergency_free (s : State) (c : Nat) : (s.emergency c).free = s.free := by rw [State.emergency_only]
@[simp] theorem State.emergency_rd (s : State) (c : Nat) : (s.emergency c).rd = s.rd := by rw [State.emergency_only]
@[simp] theorem State.emergency_tally (s : State) (c : Nat) : (s.emergency c).tally = s.tally := by rw [State.emergency_only]
@[simp] theorem State.emergency_tb (s : State) (c : Nat) : (s.emergency c).tb = s.tb := by rw [State.emergency_only]
@[simp] theorem State.emergency_web (s : State) (c : Nat) : (s.emergency c).web = s.web := by rw [State.emergency_only]
@[simp] theorem State.emergency_mem (s : State) (c : Nat) : (s.emergency c).mem = s.mem := by rw [State.emergency_only]
@[simp] theorem State.emergency_stash (s : State) (c : Nat) : (s.emergency c).stash = s.stash := by rw [State.emergency_only]
@[simp] theorem State.emergency_ddr (s : State) (c : Nat) : (s.emergency c).ddr = s.ddr := by rw [State.emergency_only]
@[simp] theorem State.emergency_ing (s : State) (c : Nat) : (s.emergency c).ing = s.ing := by rw [State.emergency_only]
@[simp] theorem State.emergency_ply (s : State) (c : Nat) : (s.emergency c).ply = s.ply := by rw [State.emergency_only]
@[simp] theorem State.emergency_host (s : State) (c : Nat) : (s.emergency c).host = s.host := by rw [State.emergency_only]
@[simp] theorem State.emergency_ect (s : State) (c : Nat) : (s.emergency c).ect = s.ect := by rw [State.emergency_only]
@[simp] theorem State.emergency_hook (s : State) (c : Nat) : (s.emergency c).hook = s.hook := by rw [State.emergency_only]
@[simp] theorem State.emergency_vot (s : State) (c : Nat) : (s.emergency c).vot = s.vot := by rw [State.emergency_only]
@[simp] theorem State.emergency_cast (s : State) (c : Nat) : (s.emergency c).cast = s.cast := by rw [State.emergency_only]
@[simp] theorem State.emergency_kth (s : State) (c : Nat) : (s.emergency c).kth = s.kth := by rw [State.emergency_only]
@[simp] theorem State.emergency_pwr (s : State) (c : Nat) : (s.emergency c).pwr = s.pwr := by rw [State.emergency_only]
@[simp] theorem State.emergency_gau (s : State) (c : Nat) : (s.emergency c).gau = s.gau := by rw [State.emergency_only]
@[simp] theorem State.emergency_hcache (s : State) (c : Nat) : (s.emergency c).hcache = s.hcache := by rw [State.emergency_only]
@[simp] theorem State.emergency_od (s : State) (c : Nat) : (s.emergency c).od = s.od := by rw [State.emergency_only]

@[simp] theorem State.advance_pending (s : State) (dt : Nat) : (s.advance dt).pending = s.pending := by rw [State.advance_only]
@[simp] theorem State.advance_regs (s : State) (dt : Nat) : (s.advance dt).regs = s.regs := by rw [State.advance_only]
@[simp] theorem State.advance_held (s : State) (dt : Nat) : (s.advance dt).held = s.held := by rw [State.advance_only]
@[simp] theorem State.advance_latched (s : State) (dt : Nat) : (s.advance dt).latched = s.latched := by rw [State.advance_only]
@[simp] theorem State.advance_sent (s : State) (dt : Nat) : (s.advance dt).sent = s.sent := by rw [State.advance_only]
@[simp] theorem State.advance_rd (s : State) (dt : Nat) : (s.advance dt).rd = s.rd := by rw [State.advance_only]
@[simp] theorem State.advance_emLast (s : State) (dt : Nat) : (s.advance dt).emLast = s.emLast := by rw [State.advance_only]
@[simp] theorem State.advance_tally (s : State) (dt : Nat) : (s.advance dt).tally = s.tally := by rw [State.advance_only]
@[simp] theorem State.advance_web (s : State) (dt : Nat) : (s.advance dt).web = s.web := by rw [State.advance_only]
@[simp] theorem State.advance_mem (s : State) (dt : Nat) : (s.advance dt).mem = s.mem := by rw [State.advance_only]
@[simp] theorem State.advance_stash (s : State) (dt : Nat) : (s.advance dt).stash = s.stash := by rw [State.advance_only]
@[simp] theorem State.advance_ddr (s : State) (dt : Nat) : (s.advance dt).ddr = s.ddr := by rw [State.advance_only]
@[simp] theorem State.advance_ing (s : State) (dt : Nat) : (s.advance dt).ing = s.ing := by rw [State.advance_only]
@[simp] theorem State.advance_ply (s : State) (dt : Nat) : (s.advance dt).ply = s.ply := by rw [State.advance_only]
@[simp] theorem State.advance_host (s : State) (dt : Nat) : (s.advance dt).host = s.host := by rw [State.advance_only]
@[simp] theorem State.advance_ect (s : State) (dt : Nat) : (s.advance dt).ect = s.ect := by rw [State.advance_only]
@[simp] theorem State.advance_hook (s : State) (dt : Nat) : (s.advance dt).hook = s.hook := by rw [State.advance_only]
@[simp] theorem State.advance_vot (s : State) (dt : Nat) : (s.advance dt).vot = s.vot := by rw [State.advance_only]
@[simp] theorem State.advance_cast (s : State) (dt : Nat) : (s.advance dt).cast = s.cast := by rw [State.advance_only]
@[simp] theorem State.advance_kth (s : State) (dt : Nat) : (s.advance dt).kth = s.kth := by rw [State.advance_only]
@[simp] theorem State.advance_pwr (s : State) (dt : Nat) : (s.advance dt).pwr = s.pwr := by rw [State.advance_only]
@[simp] theorem State.advance_gau (s : State) (dt : Nat) : (s.advance dt).gau = s.gau := by rw [State.advance_only]
@[simp] theorem State.advance_hcache (s : State) (dt : Nat) : (s.advance dt).hcache = s.hcache := by rw [State.advance_only]
@[simp] theorem State.advance_od (s : State) (dt : Nat) : (s.advance dt).od = s.od := by rw [State.advance_only]

@[simp] theorem State.fld_advance (s : State) (dt : Nat) (f : Fld) (i j : Nat) : (s.advance dt).fld f i j = s.fld f i j := by
  simp [State.fld, State.reg]
@[simp] theorem State.flag_advance (s : State) (dt : Nat) (f : Fld) (i j : Nat) : (s.advance dt).flag f i j = s.flag f i j := by
  simp [State.flag]

end Sys2Proof.Machine
end

