-- ==== Sys2Proof/Laws/Hook.lean ====
section
/-!
SUPPORT. Sys2Proof/Laws/Hook.lean: the issue of a hook instruction, said once: what `hookIssue` answers for a thread that can issue at
once, and for one that cannot (R282 to R284, R344).
-/
namespace Sys2Proof.Machine

theorem HookReady.canIssue {s : State} {a : HI} (h : HookReady s a) : s.canIssue a = true := by
  simp [State.canIssue, h.live, h.thr, h.len, h.run, h.fault, h.esc, Thread.lfNow, h.lf]

/-- The thread with an instruction's wait states counted. -/
def waited (x : Thread) (a : HI) : Thread := { x with waits := x.waits + a.waits }

theorem issueFault_waited (s : State) (a : HI) (r : HReq) :
    (s.setTh a.core a.thr (waited (s.th a.core a.thr) a)).issueFault a r = s.issueFault a r := by
  unfold State.issueFault
  simp only [State.th_setTh]
  rfl

/-- A thread that can issue issues: its body runs with PCAP advanced. -/
theorem HookReady.issue {s : State} {a : HI} (h : HookReady s a) (r : Thread → HReq) (body : State → HOut)
    (hf : s.issueFault a (r (s.th a.core a.thr)) = none) :
    s.hookIssue a r body = match body (s.setTh a.core a.thr ((s.th a.core a.thr).issued a)) with
      | .ok u => u.setTh a.core a.thr (u.th a.core a.thr)
      | .fault u e => (u.updTh a.core a.thr fun x => { x with pcap := (s.th a.core a.thr).pcap }).setFault a.core a.thr
          { e with slotB := a.slotB }
      | .again u => u.updTh a.core a.thr fun x => { x with pcap := (s.th a.core a.thr).pcap } := by
  have hl := h.loads
  have hlf := h.lf
  rw [← issueFault_waited] at hf
  unfold State.hookIssue
  simp only [h.canIssue, Bool.not_true, Bool.false_eq_true, if_false]
  generalize hx : s.th a.core a.thr = x at *
  have e0 : (State.updTh s a.core a.thr fun x => { x with waits := x.waits + a.waits }) = s.setTh a.core a.thr (waited x a) := by
    simp [State.updTh, hx, waited]
  have wl : (waited x a).loads = [] := hl
  have e1 : ∀ p, (s.setTh a.core a.thr (waited x a)).settle a.core a.thr p = s.setTh a.core a.thr (waited x a) := by
    intro p
    simp [State.settle, State.updTh, wl]
    rw [← wl]
  have e2 : (waited x a).lfNow = false := by
    show x.bank.lf.isSome = false
    rw [hlf]; rfl
  have e3 : ∀ k : HLoad → HLoad, (State.updTh (s.setTh a.core a.thr (waited x a)) a.core a.thr
      fun x => { x with loads := x.loads.map k }) = s.setTh a.core a.thr (waited x a) := by
    intro k
    simp [State.updTh, wl]
    rw [← wl]
  have e4 : (State.updTh (s.setTh a.core a.thr (waited x a)) a.core a.thr
      fun y => { y with pcap := capSetAddr x.pcap (capAddr x.pcap + a.len) }) = s.setTh a.core a.thr (x.issued a) := by
    simp [State.updTh, waited, Thread.issued]
  have e5 : (waited x a).pcap = x.pcap := rfl
  simp only [e0, e1, State.th_setTh, e2, Bool.false_eq_true, if_false, e3, hf, wl, List.filter_nil, e5, e4, List.contains_nil, List.map_id']
  cases body (s.setTh a.core a.thr (x.issued a)) <;> rfl

/-- The checks of an instruction that needs no System pass when PCAP allows its fetch and no register it names is an f or v register. -/
theorem HookReady.noFault {s : State} {a : HI} (h : HookReady s a) {r : HReq}
    (hf : (s.th a.core a.thr).sbit 22 = false ∨ (r.uses ++ r.writes).any HReg.isFp = false)
    (hs : r.sys = false ∨ (capPerms (s.th a.core a.thr).pcap).testBit pSystem = true) : s.issueFault a r = none := by
  unfold State.issueFault
  simp only [h.fetch]
  rw [if_neg, if_neg]
  · rcases hs with e | e <;> simp [e]
  · rcases hf with e | e <;> simp [e]

/-- An instruction on registers alone changes its thread and nothing else. -/
theorem HookReady.reg {s : State} {a : HI} (h : HookReady s a) (r : Thread → HReq) (f : Thread → Thread)
    (hf : s.issueFault a (r (s.th a.core a.thr)) = none) : s.hookReg a r f = .next (s.issue a f) := by
  unfold State.hookReg
  rw [h.issue r _ hf]
  simp [State.updTh, State.issue]

/-- An instruction that cannot issue changes nothing. -/
theorem State.hookIssue_not {s : State} {a : HI} (h : s.canIssue a = false) (r : Thread → HReq) (body : State → HOut) :
    s.hookIssue a r body = s := by
  unfold State.hookIssue
  simp [h]

end Sys2Proof.Machine
end

