-- ==== Sys2Proof/Laws/Kept.lean ====
section
/-!
SUPPORT. Sys2Proof/Laws/Kept.lean: what every operation of the machine keeps: the queue of commands, the canonical form of memory and
the legality of the AL state. The relation, and its form for results that hold a state beside other data.
-/
namespace Sys2Proof.Machine

/-- From `s` to `t` the queue stands, memory stays canonical and the AL state stays legal. -/
structure Kept (s t : State) : Prop where
  queue : t.pending = s.pending
  mem : memWf s.mem = true → memWf t.mem = true
  al : alLegal s = true → alLegal t = true

theorem Kept.refl (s : State) : Kept s s := ⟨rfl, id, id⟩

theorem Kept.trans {s t u : State} (h : Kept s t) (k : Kept t u) : Kept s u :=
  ⟨k.queue.trans h.queue, fun w => k.mem (h.mem w), fun w => k.al (h.al w)⟩

/-- An operation that changes none of the three. -/
theorem Kept.same {s t u : State} (q : u.pending = t.pending) (m : u.mem = t.mem) (e : u.ect.al = t.ect.al)
    (b : u.ect.bindoff = t.ect.bindoff) (h : Kept s t) : Kept s u :=
  h.trans ⟨q, fun w => by rw [m]; exact w, fun w => by unfold alLegal at *; rw [e, b]; exact w⟩

/-- A result that holds a state: beside data, in an option, in the end of a hook instruction, in a step's outcome. -/
def Kept2 {α : Type} (s : State) (p : α × State) : Prop := Kept s p.2
def Kept3 {α β : Type} (s : State) (p : α × β × State) : Prop := Kept s p.2.2
def KeptL {α : Type} (s : State) (p : State × α) : Prop := Kept s p.1
def KeptO (s : State) (o : Option State) : Prop := ∀ t, o = some t → Kept s t
def KeptO2 {α : Type} (s : State) (o : Option (α × State)) : Prop := ∀ a t, o = some (a, t) → Kept s t
def KeptO4 {α β γ : Type} (s : State) (o : Option (α × β × γ × State)) : Prop := ∀ a b c t, o = some (a, b, c, t) → Kept s t
def KeptE {α : Type} (s : State) : Except (State × α) State → Prop
  | .ok t => Kept s t
  | .error p => Kept s p.1
def KeptE2 {α β : Type} (s : State) : Except (State × α) (β × State) → Prop
  | .ok p => Kept s p.2
  | .error p => Kept s p.1
def KeptH (s : State) : HOut → Prop
  | .ok t => Kept s t
  | .fault t _ => Kept s t
  | .again t => Kept s t
def KeptG (s : State) (g : Got) : Prop := Kept s g.s
def KeptR (s : State) : RepRes → Prop
  | .ok t => Kept s t
  | .fault t _ => Kept s t
def KeptX (s : State) (o : Host.Outcome State Fault Refusal) : Prop := ∃ t, o = .next t ∧ Kept s t

theorem Kept2.mk {α : Type} {s t : State} {a : α} (h : Kept s t) : Kept2 s (a, t) := h
theorem Kept2.snd {α : Type} {s : State} {p : α × State} (h : Kept2 s p) : Kept s p.2 := h
theorem Kept2.eq {α : Type} {s t : State} {p : α × State} {a : α} (e : p = (a, t)) (h : Kept2 s p) : Kept s t := by subst e; exact h
theorem Kept3.mk {α β : Type} {s t : State} {a : α} {b : β} (h : Kept s t) : Kept3 s (a, b, t) := h
theorem Kept3.snd {α β : Type} {s : State} {p : α × β × State} (h : Kept3 s p) : Kept s p.2.2 := h
theorem Kept3.eq {α β : Type} {s t : State} {p : α × β × State} {a : α} {b : β} (e : p = (a, b, t)) (h : Kept3 s p) : Kept s t := by
  subst e; exact h
theorem KeptL.mk {α : Type} {s t : State} {a : α} (h : Kept s t) : KeptL s (t, a) := h
theorem KeptL.fst {α : Type} {s : State} {p : State × α} (h : KeptL s p) : Kept s p.1 := h
theorem KeptL.eq {α : Type} {s t : State} {p : State × α} {a : α} (e : p = (t, a)) (h : KeptL s p) : Kept s t := by subst e; exact h
theorem KeptO.some {s t : State} (h : Kept s t) : KeptO s (some t) := fun _ e => by cases e; exact h
theorem KeptO.none {s : State} : KeptO s none := fun _ e => by cases e
theorem KeptO.eq {s t : State} {o : Option State} (e : o = Option.some t) (h : KeptO s o) : Kept s t := h t e
theorem KeptO2.some {α : Type} {s t : State} {a : α} (h : Kept s t) : KeptO2 s (some (a, t)) := fun _ _ e => by cases e; exact h
theorem KeptO2.none {α : Type} {s : State} : KeptO2 (α := α) s none := fun _ _ e => by cases e
theorem KeptO2.eq {α : Type} {s t : State} {o : Option (α × State)} {a : α} (e : o = Option.some (a, t)) (h : KeptO2 s o) : Kept s t :=
  h a t e
theorem KeptO4.some {α β γ : Type} {s t : State} {a : α} {b : β} {c : γ} (h : Kept s t) : KeptO4 s (some (a, b, c, t)) :=
  fun _ _ _ _ e => by cases e; exact h
theorem KeptO4.none {α β γ : Type} {s : State} : KeptO4 (α := α) (β := β) (γ := γ) s none := fun _ _ _ _ e => by cases e
theorem KeptO4.eq {α β γ : Type} {s t : State} {o : Option (α × β × γ × State)} {a : α} {b : β} {c : γ}
    (e : o = Option.some (a, b, c, t)) (h : KeptO4 s o) : Kept s t := h a b c t e
theorem KeptE.ok {α : Type} {s t : State} (h : Kept s t) : KeptE (α := α) s (.ok t) := h
theorem KeptE.error {α : Type} {s t : State} {a : α} (h : Kept s t) : KeptE s (.error (t, a)) := h
theorem KeptE.eqOk {α : Type} {s t : State} {e : Except (State × α) State} (q : e = .ok t) (h : KeptE s e) : Kept s t := by
  subst q; exact h
theorem KeptE.eqError {α : Type} {s t : State} {e : Except (State × α) State} {a : α} (q : e = .error (t, a)) (h : KeptE s e) :
    Kept s t := by subst q; exact h
theorem KeptE2.ok {α β : Type} {s t : State} {b : β} (h : Kept s t) : KeptE2 (α := α) s (.ok (b, t)) := h
theorem KeptE2.error {α β : Type} {s t : State} {a : α} (h : Kept s t) : KeptE2 (β := β) s (.error (t, a)) := h
theorem KeptE2.eqOk {α β : Type} {s t : State} {e : Except (State × α) (β × State)} {b : β} (q : e = .ok (b, t)) (h : KeptE2 s e) :
    Kept s t := by subst q; exact h
theorem KeptE2.eqError {α β : Type} {s t : State} {e : Except (State × α) (β × State)} {a : α} (q : e = .error (t, a))
    (h : KeptE2 s e) : Kept s t := by subst q; exact h
theorem KeptH.ok {s t : State} (h : Kept s t) : KeptH s (.ok t) := h
theorem KeptH.fault {s t : State} {e : Exc} (h : Kept s t) : KeptH s (.fault t e) := h
theorem KeptH.again {s t : State} (h : Kept s t) : KeptH s (.again t) := h
theorem KeptH.eqOk {s t : State} {o : HOut} (q : o = .ok t) (h : KeptH s o) : Kept s t := by subst q; exact h
theorem KeptH.eqFault {s t : State} {o : HOut} {e : Exc} (q : o = .fault t e) (h : KeptH s o) : Kept s t := by subst q; exact h
theorem KeptH.eqAgain {s t : State} {o : HOut} (q : o = .again t) (h : KeptH s o) : Kept s t := by subst q; exact h
theorem KeptG.mk {s t : State} {v : Nat} {p b : Bool} (h : Kept s t) : KeptG s ⟨v, p, b, t⟩ := h
theorem KeptG.proj {s : State} {g : Got} (h : KeptG s g) : Kept s g.s := h
theorem KeptR.ok {s t : State} (h : Kept s t) : KeptR s (.ok t) := h
theorem KeptR.fault {s t : State} {e : Exc} (h : Kept s t) : KeptR s (.fault t e) := h
theorem KeptR.eqOk {s t : State} {o : RepRes} (q : o = .ok t) (h : KeptR s o) : Kept s t := by subst q; exact h
theorem KeptR.eqFault {s t : State} {o : RepRes} {e : Exc} (q : o = .fault t e) (h : KeptR s o) : Kept s t := by subst q; exact h
theorem KeptX.next {s t : State} (h : Kept s t) : KeptX s (.next t) := ⟨t, rfl, h⟩

theorem Kept.foldl {α : Type} {s t : State} {f : State → α → State} {l : List α} (h : Kept s t)
    (hf : ∀ x a, Kept s x → Kept s (f x a)) : Kept s (l.foldl f t) := by
  induction l generalizing t with
  | nil => exact h
  | cons a l ih => exact ih (hf t a h)

theorem Kept2.foldl {α β : Type} {s : State} {p : α × State} {f : α × State → β → α × State} {l : List β} (h : Kept2 s p)
    (hf : ∀ x a, Kept2 s x → Kept2 s (f x a)) : Kept2 s (l.foldl f p) := by
  induction l generalizing p with
  | nil => exact h
  | cons a l ih => exact ih (hf p a h)

theorem KeptL.foldl {α β : Type} {s : State} {p : State × α} {f : State × α → β → State × α} {l : List β} (h : KeptL s p)
    (hf : ∀ x a, KeptL s x → KeptL s (f x a)) : KeptL s (l.foldl f p) := by
  induction l generalizing p with
  | nil => exact h
  | cons a l ih => exact ih (hf p a h)

theorem Kept.when {s t : State} {c : Bool} {f : State → State} (h : Kept s t) (hf : ∀ x, Kept s x → Kept s (f x)) :
    Kept s (State.when c f t) := by
  unfold State.when; split
  · exact hf t h
  · exact h

theorem Kept.ite {s t u : State} {c : Prop} [Decidable c] (h : Kept s t) (k : Kept s u) : Kept s (if c then t else u) := by
  split <;> assumption

theorem Kept2.ite {α : Type} {s : State} {p q : α × State} {c : Prop} [Decidable c] (h : Kept2 s p) (k : Kept2 s q) :
    Kept2 s (if c then p else q) := by
  split <;> assumption

theorem Kept3.ite {α β : Type} {s : State} {p q : α × β × State} {c : Prop} [Decidable c] (h : Kept3 s p) (k : Kept3 s q) :
    Kept3 s (if c then p else q) := by
  split <;> assumption

/-- A record update of any other field. -/
theorem Kept.put {s0 t : State} {regs : KV Reg Word} {held latched : KV Reg Word} {uptime free : Nat} {sent : List Sent} {rd : List Byte}
    {emLast tally : KV Nat Nat} {tb : TimeBase} {web : Web} {mem : Mem} {stash : Stash} {ddr : Ddr} {ing : Ingest} {ply : Ply}
    {host : HostIf} {ect : Ect} {hook : Hook} {vot : Vot} {cast : Cast} {kth : Kth} {pwr : Pwr} {gau : Gau}
    {hcache : List (Nat × CapV × Half)} {od : KV Nat Nat} (h : Kept s0 t) (m : memWf t.mem = true → memWf mem = true)
    (a : ect.al = t.ect.al) (b : ect.bindoff = t.ect.bindoff) :
    Kept s0 ⟨t.pending, regs, held, latched, uptime, free, sent, rd, emLast, tally, tb, web, mem, stash, ddr, ing, ply, host, ect,
      hook, vot, cast, kth, pwr, gau, hcache, od⟩ :=
  h.trans ⟨rfl, m, fun w => by unfold alLegal at *; simp only [a, b]; exact w⟩

theorem poisonAfter_wf {m : Mem} (w : memWf m = true) (u a n : Nat) : memWf (poisonAfter m u a n) = true := by
  unfold poisonAfter
  generalize unitsOf u a n = l
  induction l generalizing m with
  | nil => exact w
  | cons x l ih =>
    refine ih ?_
    dsimp only
    (repeat' split) <;> exact w

theorem untag_wf {m : Mem} (w : memWf m = true) (a n : Nat) : memWf (untag m a n) = true := w

theorem clearHook_wf {m : Mem} (w : memWf m = true) (b : Bool) : memWf (Mem.clearHook m b) = true := cellsFilter_wf w _

theorem dropStash_wf {m : Mem} (w : memWf m = true) : memWf (Mem.dropStash m) = true := cellsFilter_wf w _

theorem splitMem_wf {m : Mem} (w : memWf m = true) : memWf (splitMem m) = true := tcmCopies_wf w

theorem mergeMem_wf {m : Mem} (w : memWf m = true) : memWf (mergeMem m) = true := tcmCopies_wf w

end Sys2Proof.Machine
end

