-- ==== Sys2Proof/Laws/Kept1.lean ====
section
/-!
SUPPORT. Sys2Proof/Laws/Kept1.lean: the operations that keep the queue, the form of memory and the legality of the AL state
(Sys2Proof/Laws/Kept.lean), one lemma each: Ops, MemOps, Caps, HostOps, DictOps, WebOps, IngestOps, Admit, PlyOps.
-/
namespace Sys2Proof.Machine

theorem State.when_kept {s0 : State} {c : Bool} {f : State → State} {s : State} (hs : Kept s0 s) (hf : ∀ x, Kept s0 x → Kept s0
    (f x)) : Kept s0 (State.when c f s) := by
  unfold State.when
  try dsimp only
  repeat' first | with_reducible assumption | with_reducible apply Kept.ite | with_reducible apply hf

theorem State.setReg_kept {s0 s : State} {r : Reg} {v : Word} (hs : Kept s0 s) : Kept s0 (State.setReg s r v) := by
  unfold State.setReg
  try dsimp only
  repeat' first | with_reducible assumption | with_reducible refine Kept.put ?_ (fun w => w) rfl rfl

theorem State.setFld_kept {s0 s : State} {f : Fld} {v : Nat} {i j : optParam Nat 0} (hs : Kept s0 s) : Kept s0 (State.setFld s f
    v i j) := by
  unfold State.setFld
  try dsimp only
  repeat' first | with_reducible assumption | with_reducible apply State.setReg_kept

theorem State.bump_kept {s0 s : State} {f : Fld} {i : optParam Nat 0} {n : optParam Nat 1} {j : optParam Nat 0} (hs : Kept s0 s)
    : Kept s0 (State.bump s f i n j) := by
  unfold State.bump
  try dsimp only
  repeat' first | with_reducible assumption | with_reducible apply State.setFld_kept

theorem State.setPair_kept {s0 s : State} {lo hi : Fld} {v : Nat} {i j : optParam Nat 0} (hs : Kept s0 s) : Kept s0
    (State.setPair s lo hi v i j) := by
  unfold State.setPair
  try dsimp only
  repeat' first | with_reducible assumption | with_reducible apply State.setFld_kept

theorem State.fresh_kept {s0 s : State} (hs : Kept s0 s) : Kept2 s0 (State.fresh s) := by
  unfold State.fresh
  try dsimp only
  repeat' first
    | with_reducible assumption | with_reducible apply Kept2.mk | with_reducible refine Kept.put ?_ (fun w => w) rfl rfl

theorem State.send_kept {s0 s : State} {x : Sent} (hs : Kept s0 s) : Kept s0 (State.send s x) := by
  unfold State.send
  try dsimp only
  repeat' first | with_reducible assumption | with_reducible refine Kept.put ?_ (fun w => w) rfl rfl

theorem State.raise_kept {s0 s : State} {v : Nat} (hs : Kept s0 s) : Kept s0 (State.raise s v) := by
  unfold State.raise
  try dsimp only
  repeat' first
    | with_reducible assumption | with_reducible apply Kept.ite | with_reducible apply State.setFld_kept
    | with_reducible apply Kept.foldl | (with_reducible intro x a hx; try dsimp only)

theorem State.emergency_kept {s0 s : State} {code : Nat} (hs : Kept s0 s) : Kept s0 (State.emergency s code) := by
  unfold State.emergency
  try dsimp only
  repeat' first
    | with_reducible assumption | with_reducible apply Kept.ite | with_reducible apply State.send_kept
    | (split <;> try dsimp only) | with_reducible refine Kept.put ?_ (fun w => w) rfl rfl

theorem State.advanceRef_kept {s0 s : State} {dt : Nat} (hs : Kept s0 s) : Kept s0 (State.advanceRef s dt) := by
  unfold State.advanceRef
  try dsimp only
  repeat' first
    | with_reducible assumption | with_reducible apply Kept.ite | with_reducible apply State.fresh_kept
    | with_reducible apply Kept2.snd | with_reducible refine Kept.put ?_ (fun w => w) rfl rfl

theorem State.advance_kept {s0 s : State} {dt : Nat} (hs : Kept s0 s) : Kept s0 (State.advance s dt) := by
  unfold State.advance
  try dsimp only
  repeat' first
    | with_reducible assumption | with_reducible apply Kept.ite | with_reducible apply State.advanceRef_kept
    | with_reducible refine Kept.put ?_ (fun w => w) rfl rfl

theorem State.count_kept {s0 s : State} {sub : Nat} {n : optParam Nat 1} (hs : Kept s0 s) : Kept s0 (State.count s sub n) := by
  unfold State.count
  try dsimp only
  repeat' first | with_reducible assumption | with_reducible refine Kept.put ?_ (fun w => w) rfl rfl

theorem State.expiry_kept {s0 s : State} (hs : Kept s0 s) : Kept s0 (State.expiry s) := by
  unfold State.expiry
  try dsimp only
  repeat' first | with_reducible assumption | with_reducible apply State.count_kept

theorem State.noteBad_kept {s0 s : State} {a n : Nat} (hs : Kept s0 s) : Kept s0 (State.noteBad s a n) := by
  unfold State.noteBad
  try dsimp only
  repeat' first
    | with_reducible assumption | with_reducible apply Kept.ite | with_reducible apply State.raise_kept
    | with_reducible apply State.setFld_kept | with_reducible apply State.setReg_kept | with_reducible apply State.bump_kept
    | with_reducible apply Kept.foldl | (with_reducible intro x a hx; try dsimp only)

theorem State.fixTcm_kept {s0 s : State} {a n : Nat} (hs : Kept s0 s) : Kept s0 (State.fixTcm s a n) := by
  unfold State.fixTcm
  try dsimp only
  repeat' first
    | with_reducible assumption | with_reducible apply Kept.ite | with_reducible apply State.bump_kept
    | with_reducible apply Kept.foldl | (with_reducible intro x a hx; try dsimp only) | refine Kept.put ?_ (fun w => w) rfl rfl
    | refine Kept.put ?_ (fun w => poisonAfter_wf w _ _ _) rfl rfl
    | refine Kept.put ?_ (fun w => poisonAfter_wf (poisonAfter_wf w _ _ _) _ _ _) rfl rfl
    | refine Kept.put ?_ (fun w => clearHook_wf w _) rfl rfl | refine Kept.put ?_ (fun w => dropStash_wf w) rfl rfl
    | refine Kept.put ?_ (fun w => splitMem_wf w) rfl rfl | refine Kept.put ?_ (fun w => mergeMem_wf w) rfl rfl
    | refine Kept.put ?_ (fun w => cellsFilter_wf w _) rfl rfl | refine Kept.put ?_ (fun w => cellsPut_wf w _ _) rfl rfl
    | refine Kept.put ?_ (fun w => cellsPutAll_wf w _ _) rfl rfl

theorem State.load_kept {s0 s : State} {a n : Nat} (hs : Kept s0 s) : Kept3 s0 (State.load s a n) := by
  unfold State.load
  try dsimp only
  repeat' first
    | with_reducible assumption | with_reducible apply State.fixTcm_kept | with_reducible apply State.noteBad_kept
    | with_reducible apply Kept3.mk

theorem State.poke_kept {s0 : State} {s : State} {a : Nat} {bs : List Byte} (hs : Kept s0 s) : Kept s0 (State.poke s a bs) := by
  unfold State.poke
  dsimp only
  split
  · exact hs
  · exact hs
  · exact hs
  · split
    · exact Kept.put hs (fun w => cellsPutAll_wf (cellsPutAll_wf (cellsPutAll_wf w _ _) _ _) _ _) rfl rfl
    · exact Kept.put hs (fun w => cellsPutAll_wf w _ _) rfl rfl
  · exact Kept.put hs (fun w => cellsPutAll_wf w _ _) rfl rfl

theorem State.ddrPost_kept {s0 s : State} {a : Nat} {plq : Option Poster} (hs : Kept s0 s) : Kept s0 (State.ddrPost s a plq) := by
  unfold State.ddrPost
  try dsimp only
  repeat' first | with_reducible assumption | with_reducible refine Kept.put ?_ (fun w => w) rfl rfl

theorem State.storeBy_kept {s0 s : State} {plq : Option Poster} {a : Nat} {bs : List Byte} (hs : Kept s0 s) : Kept s0
    (State.storeBy s plq a bs) := by
  unfold State.storeBy
  try dsimp only
  repeat' first
    | with_reducible assumption | with_reducible apply Kept.ite | with_reducible apply State.bump_kept
    | with_reducible apply State.poke_kept | with_reducible apply State.ddrPost_kept | with_reducible apply Kept.foldl
    | (with_reducible intro x a hx; try dsimp only) | (split <;> try dsimp only) | refine Kept.put ?_ (fun w => w) rfl rfl
    | refine Kept.put ?_ (fun w => poisonAfter_wf w _ _ _) rfl rfl
    | refine Kept.put ?_ (fun w => poisonAfter_wf (poisonAfter_wf w _ _ _) _ _ _) rfl rfl
    | refine Kept.put ?_ (fun w => clearHook_wf w _) rfl rfl | refine Kept.put ?_ (fun w => dropStash_wf w) rfl rfl
    | refine Kept.put ?_ (fun w => splitMem_wf w) rfl rfl | refine Kept.put ?_ (fun w => mergeMem_wf w) rfl rfl
    | refine Kept.put ?_ (fun w => cellsFilter_wf w _) rfl rfl | refine Kept.put ?_ (fun w => cellsPut_wf w _ _) rfl rfl
    | refine Kept.put ?_ (fun w => cellsPutAll_wf w _ _) rfl rfl

theorem State.store_kept {s0 s : State} {a : Nat} {bs : List Byte} (hs : Kept s0 s) : Kept s0 (State.store s a bs) := by
  unfold State.store
  try dsimp only
  repeat' first | with_reducible assumption | with_reducible apply State.storeBy_kept

theorem State.storeCap_kept {s0 s : State} {a : Nat} {bits : Quad} {tag : Bool} (hs : Kept s0 s) : Kept s0 (State.storeCap s a
    bits tag) := by
  unfold State.storeCap
  try dsimp only
  repeat' first
    | with_reducible assumption | with_reducible apply Kept.ite | with_reducible apply State.store_kept
    | (split <;> try dsimp only) | refine Kept.put ?_ (fun w => w) rfl rfl
    | refine Kept.put ?_ (fun w => poisonAfter_wf w _ _ _) rfl rfl
    | refine Kept.put ?_ (fun w => poisonAfter_wf (poisonAfter_wf w _ _ _) _ _ _) rfl rfl
    | refine Kept.put ?_ (fun w => clearHook_wf w _) rfl rfl | refine Kept.put ?_ (fun w => dropStash_wf w) rfl rfl
    | refine Kept.put ?_ (fun w => splitMem_wf w) rfl rfl | refine Kept.put ?_ (fun w => mergeMem_wf w) rfl rfl
    | refine Kept.put ?_ (fun w => cellsFilter_wf w _) rfl rfl | refine Kept.put ?_ (fun w => cellsPut_wf w _ _) rfl rfl
    | refine Kept.put ?_ (fun w => cellsPutAll_wf w _ _) rfl rfl

theorem State.resolveHandle_kept {s0 s : State} {h fn : Nat} (hs : Kept s0 s) : Kept2 s0 (State.resolveHandle s h fn) := by
  unfold State.resolveHandle
  try dsimp only
  repeat' first
    | with_reducible assumption | with_reducible apply Kept.ite | with_reducible apply Kept2.ite
    | with_reducible apply Kept2.mk | (split <;> try dsimp only) | with_reducible refine Kept.put ?_ (fun w => w) rfl rfl

theorem State.resolveCap_kept {s0 s : State} {c : CapV} {fn : Nat} (hs : Kept s0 s) : Kept2 s0 (State.resolveCap s c fn) := by
  unfold State.resolveCap
  try dsimp only
  repeat' first
    | with_reducible assumption | with_reducible apply Kept2.ite | with_reducible apply State.resolveHandle_kept
    | with_reducible apply Kept2.mk

theorem State.msix_kept {s0 s : State} {fn v : Nat} (hs : Kept s0 s) : Kept s0 (State.msix s fn v) := by
  unfold State.msix
  try dsimp only
  repeat' first
    | with_reducible assumption | with_reducible apply Kept.ite | with_reducible apply State.send_kept
    | with_reducible refine Kept.put ?_ (fun w => w) rfl rfl

theorem State.queueIrq_kept {s0 s : State} {q : Nat} (hs : Kept s0 s) : Kept s0 (State.queueIrq s q) := by
  unfold State.queueIrq
  try dsimp only
  repeat' first
    | with_reducible assumption | with_reducible apply Kept.ite | with_reducible apply State.msix_kept
    | with_reducible apply State.raise_kept

theorem State.ringRow_kept {s0 s : State} {q row : Nat} (hs : Kept s0 s) : Kept s0 (State.ringRow s q row) := by
  unfold State.ringRow
  try dsimp only
  repeat' first
    | with_reducible assumption | with_reducible apply Kept.ite | with_reducible apply Kept.foldl
    | (with_reducible intro x a hx; try dsimp only) | with_reducible refine Kept.put ?_ (fun w => w) rfl rfl

theorem State.setOd_kept {s0 s : State} {idx sub v : Nat} (hs : Kept s0 s) : Kept s0 (State.setOd s idx sub v) := by
  unfold State.setOd
  try dsimp only
  repeat' first | with_reducible assumption | with_reducible refine Kept.put ?_ (fun w => w) rfl rfl

theorem State.finish_kept {s0 s : State} {idx sub : Nat} {ok : Bool} (hs : Kept s0 s) : Kept s0 (State.finish s idx sub ok) := by
  unfold State.finish
  try dsimp only
  repeat' first | with_reducible assumption | with_reducible apply Kept.ite | with_reducible apply State.setOd_kept

theorem State.setEnc_kept {s0 s : State} {e : Nat} {x : Enc} (hs : Kept s0 s) : Kept s0 (State.setEnc s e x) := by
  unfold State.setEnc
  try dsimp only
  repeat' first | with_reducible assumption | with_reducible refine Kept.put ?_ (fun w => w) rfl rfl

theorem State.setChan_kept {s0 s : State} {n : Nat} {x : Chan} (hs : Kept s0 s) : Kept s0 (State.setChan s n x) := by
  unfold State.setChan
  try dsimp only
  repeat' first | with_reducible assumption | with_reducible refine Kept.put ?_ (fun w => w) rfl rfl

theorem State.setOut_kept {s0 s : State} {o : Nat} {x : Out} (hs : Kept s0 s) : Kept s0 (State.setOut s o x) := by
  unfold State.setOut
  try dsimp only
  repeat' first | with_reducible assumption | with_reducible refine Kept.put ?_ (fun w => w) rfl rfl

theorem State.setCap_kept {s0 s : State} {n : Nat} {x : List CapRec} (hs : Kept s0 s) : Kept s0 (State.setCap s n x) := by
  unfold State.setCap
  try dsimp only
  repeat' first | with_reducible assumption | with_reducible refine Kept.put ?_ (fun w => w) rfl rfl

theorem State.webSpeed_kept {s0 s : State} {n : Nat} (hs : Kept s0 s) : Kept2 s0 (State.webSpeed s n) := by
  unfold State.webSpeed
  try dsimp only
  repeat' first
    | with_reducible assumption | with_reducible apply Kept2.ite | with_reducible apply State.fresh_kept
    | with_reducible apply Kept2.mk | (split <;> try dsimp only) | with_reducible apply Kept2.snd

theorem State.boundary_kept {s0 s : State} {n time : Nat} {pos : Int} (hs : Kept s0 s) : Kept s0 (State.boundary s n time pos) := by
  unfold State.boundary
  try dsimp only
  repeat' first
    | with_reducible assumption | with_reducible apply State.setChan_kept | with_reducible apply State.webSpeed_kept
    | (split <;> try dsimp only) | with_reducible apply Kept2.snd

theorem State.sendTriggers_kept {s0 s : State} {n : Nat} (hs : Kept s0 s) : Kept s0 (State.sendTriggers s n) := by
  unfold State.sendTriggers
  try dsimp only
  repeat' first
    | with_reducible assumption | with_reducible apply Kept.ite | with_reducible apply State.send_kept
    | with_reducible apply Kept.foldl | (with_reducible intro x a hx; try dsimp only)

theorem State.drivePin_kept {s0 s : State} {o : Nat} (hs : Kept s0 s) : Kept s0 (State.drivePin s o) := by
  unfold State.drivePin
  try dsimp only
  repeat' first | with_reducible assumption | with_reducible apply Kept.ite | with_reducible apply State.setOut_kept

theorem State.raiseOut_kept {s0 s : State} {o : Nat} (hs : Kept s0 s) : Kept s0 (State.raiseOut s o) := by
  unfold State.raiseOut
  try dsimp only
  repeat' first | with_reducible assumption | with_reducible apply State.raise_kept

theorem State.applyAct_kept {s0 s : State} {o : Nat} {ev : OutEv} (hs : Kept s0 s) : Kept s0 (State.applyAct s o ev) := by
  unfold State.applyAct
  try dsimp only
  repeat' first | with_reducible assumption | with_reducible apply State.setOut_kept | (split <;> try dsimp only)

theorem State.perform_kept {s0 s : State} {o : Nat} {ev : OutEv} (hs : Kept s0 s) : Kept s0 (State.perform s o ev) := by
  unfold State.perform
  try dsimp only
  repeat' first | with_reducible assumption | with_reducible apply State.applyAct_kept | with_reducible apply State.setOut_kept

theorem State.enterEv_kept {s0 s : State} {o : Nat} {ev : OutEv} (hs : Kept s0 s) : Kept2 s0 (State.enterEv s o ev) := by
  unfold State.enterEv
  try dsimp only
  repeat' first
    | with_reducible assumption | with_reducible apply Kept2.ite | with_reducible apply State.raiseOut_kept
    | with_reducible apply State.bump_kept | with_reducible apply State.drivePin_kept
    | with_reducible apply State.applyAct_kept | with_reducible apply State.setOut_kept | with_reducible apply Kept2.mk
    | (split <;> try dsimp only)

theorem State.present_kept {s0 s : State} {o : Nat} {ev : OutEv} {cur : Half} (hs : Kept s0 s) : Kept2 s0 (State.present s o ev
    cur) := by
  unfold State.present
  try dsimp only
  repeat' first
    | with_reducible assumption | with_reducible apply Kept2.ite | with_reducible apply State.bump_kept
    | with_reducible apply State.setPair_kept | with_reducible apply State.setOut_kept
    | with_reducible apply State.enterEv_kept | with_reducible apply State.raiseOut_kept | with_reducible apply Kept2.mk
    | (split <;> try dsimp only) | with_reducible apply Kept2.snd

theorem State.decideEv_kept {s0 s : State} {o : Nat} {ev : OutEv} (hs : Kept s0 s) : Kept s0 (State.decideEv s o ev) := by
  unfold State.decideEv
  try dsimp only
  repeat' first
    | with_reducible assumption | with_reducible apply Kept.ite | with_reducible apply State.raiseOut_kept
    | with_reducible apply State.bump_kept | with_reducible apply State.setOut_kept

theorem State.decideAll_kept {s0 s : State} {o : Nat} (hs : Kept s0 s) : Kept s0 (State.decideAll s o) := by
  unfold State.decideAll
  try dsimp only
  repeat' first
    | with_reducible assumption | with_reducible apply Kept.ite | with_reducible apply State.decideEv_kept
    | with_reducible apply Kept.foldl | (with_reducible intro x a hx; try dsimp only)

theorem State.performDue_kept {s0 s : State} {o : Nat} {k : EvKind} (hs : Kept s0 s) : Kept s0 (State.performDue s o k) := by
  unfold State.performDue
  try dsimp only
  repeat' first
    | with_reducible assumption | with_reducible apply Kept.ite | with_reducible apply State.decideAll_kept
    | with_reducible apply State.drivePin_kept | with_reducible apply State.perform_kept | with_reducible apply Kept.foldl
    | (with_reducible intro x a hx; try dsimp only)

theorem State.loadEdge_kept {s0 s : State} {o : Nat} (hs : Kept s0 s) : Kept s0 (State.loadEdge s o) := by
  unfold State.loadEdge
  try dsimp only
  repeat' first | with_reducible assumption | with_reducible apply State.setOut_kept

theorem State.reproject_kept {s0 s : State} (hs : Kept s0 s) : Kept s0 (State.reproject s) := by
  unfold State.reproject
  try dsimp only
  repeat' first
    | with_reducible assumption | with_reducible apply Kept.ite | with_reducible apply State.decideAll_kept
    | with_reducible apply State.loadEdge_kept | with_reducible apply Kept.foldl
    | (with_reducible intro x a hx; try dsimp only)

theorem State.resolveEvents_kept {s0 s : State} {life : Half} {commit : Bool} (hs : Kept s0 s) : Kept s0 (State.resolveEvents s
    life commit) := by
  unfold State.resolveEvents
  try dsimp only
  repeat' first
    | with_reducible assumption | with_reducible apply Kept.ite | with_reducible apply State.setOut_kept
    | with_reducible apply State.bump_kept | with_reducible apply Kept.foldl | (with_reducible intro x a hx; try dsimp only)

theorem State.relabelEvents_kept {s0 s : State} {life outer : Half} (hs : Kept s0 s) : Kept s0 (State.relabelEvents s life
    outer) := by
  unfold State.relabelEvents
  try dsimp only
  repeat' first | with_reducible assumption | with_reducible refine Kept.put ?_ (fun w => w) rfl rfl

theorem State.uninspected_kept {s0 s : State} {o row : Nat} (hs : Kept s0 s) : Kept s0 (State.uninspected s o row) := by
  unfold State.uninspected
  try dsimp only
  repeat' first
    | with_reducible assumption | with_reducible apply Kept.ite | with_reducible apply State.bump_kept
    | with_reducible apply State.present_kept | (split <;> try dsimp only) | with_reducible apply Kept2.snd

theorem State.disarm_kept {s0 s : State} (hs : Kept s0 s) : Kept s0 (State.disarm s) := by
  unfold State.disarm
  try dsimp only
  repeat' first
    | with_reducible assumption | with_reducible apply State.setFld_kept | with_reducible apply State.drivePin_kept
    | with_reducible apply State.setOut_kept | with_reducible apply State.bump_kept | with_reducible apply Kept.foldl
    | (with_reducible intro x a hx; try dsimp only)

theorem State.startOutBindoff_kept {s0 s : State} {o : Nat} (hs : Kept s0 s) : Kept s0 (State.startOutBindoff s o) := by
  unfold State.startOutBindoff
  try dsimp only
  repeat' first
    | with_reducible assumption | with_reducible apply State.setFld_kept | with_reducible apply State.setOut_kept
    | with_reducible apply State.bump_kept

theorem State.endOutBindoff_kept {s0 s : State} {o : Nat} (hs : Kept s0 s) : Kept s0 (State.endOutBindoff s o) := by
  unfold State.endOutBindoff
  try dsimp only
  repeat' first
    | with_reducible assumption | with_reducible apply State.setOut_kept | with_reducible apply State.finish_kept
    | with_reducible apply State.raiseOut_kept | with_reducible apply State.drivePin_kept

theorem State.dropEvIn_kept {s0 s : State} {p : EvIn → Bool} (hs : Kept s0 s) : Kept s0 (State.dropEvIn s p) := by
  unfold State.dropEvIn
  try dsimp only
  repeat' first
    | with_reducible assumption | with_reducible apply State.bump_kept | with_reducible apply Kept.foldl
    | (with_reducible intro x a hx; try dsimp only) | with_reducible refine Kept.put ?_ (fun w => w) rfl rfl

theorem State.evinWrite_kept {s0 s : State} {o core thr level : Nat} {v : Word} (hs : Kept s0 s) : Kept s0 (State.evinWrite s o
    core thr level v) := by
  unfold State.evinWrite
  try dsimp only
  repeat' first
    | with_reducible assumption | with_reducible apply State.present_kept | (split <;> try dsimp only)
    | with_reducible apply Kept2.snd | with_reducible refine Kept.put ?_ (fun w => w) rfl rfl

theorem State.setIch_kept {s0 s : State} {n : Nat} {x : IChan} (hs : Kept s0 s) : Kept s0 (State.setIch s n x) := by
  unfold State.setIch
  try dsimp only
  repeat' first | with_reducible assumption | with_reducible refine Kept.put ?_ (fun w => w) rfl rfl

theorem State.setCam_kept {s0 s : State} {k : Nat} {x : Cam} (hs : Kept s0 s) : Kept s0 (State.setCam s k x) := by
  unfold State.setCam
  try dsimp only
  repeat' first | with_reducible assumption | with_reducible refine Kept.put ?_ (fun w => w) rfl rfl

theorem State.writeMarker_kept {s0 s : State} {n : Nat} {m : Marker} {bit cause wales ok bad : Nat} (hs : Kept s0 s) : Kept s0
    (State.writeMarker s n m bit cause wales ok bad) := by
  unfold State.writeMarker
  try dsimp only
  repeat' first | with_reducible assumption | with_reducible apply State.store_kept

theorem State.flushWaiting_kept {s0 s : State} {n : Nat} (hs : Kept s0 s) : Kept s0 (State.flushWaiting s n) := by
  unfold State.flushWaiting
  try dsimp only
  repeat' first
    | with_reducible assumption | with_reducible apply State.setIch_kept | with_reducible apply State.writeMarker_kept
    | with_reducible apply Kept.foldl | (with_reducible intro x a hx; try dsimp only)

theorem State.raiseRel_kept {s0 s : State} {n k row : Nat} (hs : Kept s0 s) : Kept s0 (State.raiseRel s n k row) := by
  unfold State.raiseRel
  try dsimp only
  repeat' first
    | with_reducible assumption | with_reducible apply Kept.ite | with_reducible apply State.flushWaiting_kept
    | with_reducible apply State.setPair_kept

theorem State.passCons_kept {s0 s : State} {n k row : Nat} (hs : Kept s0 s) : Kept s0 (State.passCons s n k row) := by
  unfold State.passCons
  try dsimp only
  repeat' first | with_reducible assumption | with_reducible apply State.setIch_kept | with_reducible apply State.raiseRel_kept

theorem State.passRow_kept {s0 s : State} {q row : Nat} (hs : Kept s0 s) : Kept s0 (State.passRow s q row) := by
  unfold State.passRow
  try dsimp only
  repeat' first
    | with_reducible assumption | with_reducible apply Kept.ite | with_reducible apply State.passCons_kept
    | with_reducible apply Kept.foldl | (with_reducible intro x a hx; try dsimp only)

theorem State.rowStatus_kept {s0 s : State} {n : Nat} {row : Int} (hs : Kept s0 s) : KeptO2 s0 (State.rowStatus s n row) := by
  unfold State.rowStatus
  try dsimp only
  repeat' first
    | with_reducible assumption | with_reducible apply State.fresh_kept | with_reducible apply KeptO2.some
    | with_reducible apply KeptO2.none | (split <;> try dsimp only) | with_reducible apply Kept2.snd

theorem State.setPlq_kept {s0 s : State} {q : Nat} {x : Plq} (hs : Kept s0 s) : Kept s0 (State.setPlq s q x) := by
  unfold State.setPlq
  try dsimp only
  repeat' first | with_reducible assumption | with_reducible refine Kept.put ?_ (fun w => w) rfl rfl

theorem State.setBset_kept {s0 s : State} {n : Nat} {x : BSet} (hs : Kept s0 s) : Kept s0 (State.setBset s n x) := by
  unfold State.setBset
  try dsimp only
  repeat' first | with_reducible assumption | with_reducible refine Kept.put ?_ (fun w => w) rfl rfl

theorem State.setBed_kept {s0 s : State} {b : Nat} {x : Bed} (hs : Kept s0 s) : Kept s0 (State.setBed s b x) := by
  unfold State.setBed
  try dsimp only
  repeat' first | with_reducible assumption | with_reducible refine Kept.put ?_ (fun w => w) rfl rfl

theorem State.loadSkein_kept {s0 s : State} {skt j fn : Nat} {i : SIns} {r : Nat} (hs : Kept s0 s) : Kept2 s0 (State.loadSkein s
    skt j fn i r) := by
  unfold State.loadSkein
  try dsimp only
  repeat' first
    | with_reducible assumption | with_reducible refine Kept2.eq (by assumption) ?_ | with_reducible apply Kept2.ite
    | with_reducible apply State.resolveCap_kept | with_reducible apply Kept2.mk | (split <;> try dsimp only)

theorem State.loadSlot_kept {s0 s : State} {skt j fn : Nat} {i : SIns} {a : List Nat} {v6 : KV Nat Skein} (hs : Kept s0 s) :
    Kept2 s0 (State.loadSlot s skt j fn i a v6) := by
  induction a generalizing v6 s with
  | nil =>
    unfold State.loadSlot
    try dsimp only
    repeat' first
      | with_reducible assumption | with_reducible refine Kept2.eq (by assumption) ?_
      | with_reducible apply State.loadSkein_kept | with_reducible apply Kept2.mk | (split <;> try dsimp only)
      | with_reducible apply Kept2.snd
  | cons e l ih =>
    unfold State.loadSlot
    try dsimp only
    repeat' first
      | with_reducible apply ih | with_reducible assumption | with_reducible refine Kept2.eq (by assumption) ?_
      | with_reducible apply State.loadSkein_kept | with_reducible apply Kept2.mk | (split <;> try dsimp only)
      | with_reducible apply Kept2.snd

theorem State.loadSlots_kept {s0 s : State} {skt nsk fn : Nat} {a : List Nat} {v5 : Nat} {v6 : List SIns} {v7 : KV Nat Skein}
    (hs : Kept s0 s) : Kept2 s0 (State.loadSlots s skt nsk fn a v5 v6 v7) := by
  induction a generalizing v5 v6 v7 s with
  | nil =>
    unfold State.loadSlots
    try dsimp only
    repeat' first
      | with_reducible assumption | with_reducible refine Kept2.eq (by assumption) ?_
      | with_reducible apply State.loadSlot_kept | with_reducible apply Kept2.mk | (split <;> try dsimp only)
      | with_reducible apply Kept2.snd
  | cons e l ih =>
    unfold State.loadSlots
    try dsimp only
    repeat' first
      | with_reducible apply ih | with_reducible assumption | with_reducible refine Kept2.eq (by assumption) ?_
      | with_reducible apply State.loadSlot_kept | with_reducible apply Kept2.mk | (split <;> try dsimp only)
      | with_reducible apply Kept2.snd

theorem State.admitWords_kept {s0 s : State} {e : Entry} {pinned : Bool} {row0 : DWord} {b fn pa ta : Nat} (hs : Kept s0 s) :
    Kept2 s0 (State.admitWords s e pinned row0 b fn pa ta) := by
  unfold State.admitWords
  dsimp only
  generalize hw : (List.range e.nins).map (fun j => s.peekNat (pa + 16 * j) 16) = words
  generalize hl : s.loadSlots ta e.nsk fn words 0 [] [] = r
  have k : Kept2 s0 r := hl ▸ State.loadSlots_kept hs
  obtain ⟨found, t⟩ := r
  have kt : Kept s0 t := k
  clear k hl hw
  split
  · exact Kept2.mk kt
  · exact Kept2.mk (Kept.put kt (fun w => w) rfl rfl)

theorem State.admitPly_kept {s0 s : State} {q : Nat} {e : Entry} {pinned : Bool} {row0 : DWord} (hs : Kept s0 s) : Kept2 s0
    (State.admitPly s q e pinned row0) := by
  unfold State.admitPly
  try dsimp only
  split
  · exact Kept2.mk hs
  refine Kept2.ite (Kept2.mk hs) (Kept2.ite (Kept2.mk hs) (Kept2.ite (Kept2.mk hs) ?_))
  split
  · exact Kept2.mk (Kept2.eq (by assumption) (State.resolveCap_kept hs))
  · exact Kept2.mk (Kept2.eq (by assumption) (State.resolveCap_kept hs))
  · rename_i c s1 h1
    have k1 : Kept s0 s1 := Kept2.eq h1 (State.resolveCap_kept hs)
    clear h1
    split
    · exact Kept2.mk (Kept2.eq (by assumption) (State.resolveCap_kept k1))
    · exact Kept2.mk (Kept2.eq (by assumption) (State.resolveCap_kept k1))
    · rename_i c2 s2 h2
      have k2 : Kept s0 s2 := Kept2.eq h2 (State.resolveCap_kept k1)
      clear h2
      refine Kept2.ite (Kept2.mk k2) ?_
      split
      · exact Kept2.mk k2
      · exact State.admitWords_kept k2

theorem State.setInst_kept {s0 s : State} {q : Nat} {young : Bool} {p : Option Inst} (hs : Kept s0 s) : Kept s0 (State.setInst s
    q young p) := by
  unfold State.setInst
  try dsimp only
  repeat' first | with_reducible assumption | with_reducible apply State.setPlq_kept

theorem State.updInst_kept {s0 s : State} {q : Nat} {young : Bool} {f : Inst → Inst} (hs : Kept s0 s) : Kept s0 (State.updInst s
    q young f) := by
  unfold State.updInst
  try dsimp only
  repeat' first | with_reducible assumption | with_reducible apply State.setInst_kept

theorem State.bindBeds_kept {s0 s : State} {n q : Nat} (hs : Kept s0 s) : Kept s0 (State.bindBeds s n q) := by
  unfold State.bindBeds
  try dsimp only
  repeat' first
    | with_reducible assumption | with_reducible apply State.setBed_kept | with_reducible apply Kept.foldl
    | (with_reducible intro x a hx; try dsimp only)

theorem State.bumpStale_kept {s0 s : State} (hs : Kept s0 s) : Kept s0 (State.bumpStale s) := by
  unfold State.bumpStale
  try dsimp only
  repeat' first | with_reducible assumption | with_reducible apply State.setPair_kept

theorem State.post_kept {s0 s : State} {q : Nat} {r : Cpl} (hs : Kept s0 s) : Kept s0 (State.post s q r) := by
  unfold State.post
  try dsimp only
  repeat' first
    | with_reducible assumption | with_reducible apply Kept.ite | with_reducible apply State.setFld_kept
    | with_reducible apply State.setPlq_kept | with_reducible apply State.queueIrq_kept

theorem State.postRefused_kept {s0 s : State} {q : Nat} {e : Entry} {cause instr addr : Nat} (hs : Kept s0 s) : Kept s0
    (State.postRefused s q e cause instr addr) := by
  unfold State.postRefused
  try dsimp only
  repeat' first | with_reducible assumption | with_reducible apply State.bump_kept | with_reducible apply State.post_kept

theorem State.writeLost_kept {s0 s : State} {src : Poster} {line : Nat} (hs : Kept s0 s) : Kept s0 (State.writeLost s src line) := by
  unfold State.writeLost
  try dsimp only
  repeat' first
    | with_reducible assumption | with_reducible apply Kept.ite | with_reducible apply State.updInst_kept
    | with_reducible apply State.post_kept

theorem State.openLife_kept {s0 s : State} {n q : Nat} {young : Bool} {kind : LifeKind} {slot : Nat} {took : Bool} (hs : Kept s0
    s) : Kept s0 (State.openLife s n q young kind slot took) := by
  unfold State.openLife
  try dsimp only
  repeat' first | with_reducible assumption | with_reducible apply State.setBset_kept | with_reducible apply State.updInst_kept

theorem State.frogAt_kept {s0 s : State} {q : Nat} {young : Bool} {i : Nat} {external : Bool} (hs : Kept s0 s) : Kept s0
    (State.frogAt s q young i external) := by
  unfold State.frogAt
  try dsimp only
  repeat' first
    | with_reducible assumption | with_reducible apply State.resolveEvents_kept | with_reducible apply State.bump_kept
    | with_reducible apply State.setInst_kept | with_reducible apply Kept.foldl | (with_reducible intro x a hx; try dsimp only)
    | (split <;> try dsimp only)

theorem State.afterXFrog_kept {s0 s : State} {n q : Nat} {young : Bool} {l : Life} (hs : Kept s0 s) : Kept s0 (State.afterXFrog
    s n q young l) := by
  unfold State.afterXFrog
  try dsimp only
  repeat' first
    | with_reducible assumption | with_reducible apply Kept.ite | with_reducible apply State.openLife_kept
    | with_reducible apply State.updInst_kept | (split <;> try dsimp only)

theorem State.xfrog_kept {s0 s : State} {n q : Nat} {young rerun : Bool} (hs : Kept s0 s) : Kept s0 (State.xfrog s n q young
    rerun) := by
  unfold State.xfrog
  try dsimp only
  repeat' first
    | with_reducible assumption | with_reducible apply Kept.ite | with_reducible apply State.frogAt_kept
    | with_reducible apply State.afterXFrog_kept | (split <;> try dsimp only)

theorem State.raiseFault_kept {s0 s : State} {q : Nat} {young : Bool} {f : SFault} (hs : Kept s0 s) : Kept s0 (State.raiseFault
    s q young f) := by
  unfold State.raiseFault
  try dsimp only
  repeat' first | with_reducible assumption | with_reducible apply State.updInst_kept

theorem State.settleDeferred_kept {s0 s : State} {q : Nat} {young : Bool} (hs : Kept s0 s) : Kept s0 (State.settleDeferred s q
    young) := by
  unfold State.settleDeferred
  try dsimp only
  repeat' first | with_reducible assumption | with_reducible apply State.updInst_kept

theorem State.filterCheck_kept {s0 s : State} {q : Nat} {young : Bool} {a n : Nat} (hs : Kept s0 s) : Kept s0 (State.filterCheck
    s q young a n) := by
  unfold State.filterCheck
  try dsimp only
  repeat' first
    | with_reducible assumption | with_reducible apply Kept.ite | with_reducible apply State.updInst_kept
    | with_reducible apply State.frogAt_kept | (split <;> try dsimp only)

theorem State.plyWrite_kept {s0 s : State} {q : Nat} {young : Bool} {a : Nat} {bs : List Byte} (hs : Kept s0 s) : Kept s0
    (State.plyWrite s q young a bs) := by
  unfold State.plyWrite
  try dsimp only
  repeat' first
    | with_reducible assumption | with_reducible apply State.filterCheck_kept | with_reducible apply State.storeBy_kept
    | (split <;> try dsimp only)

theorem State.commitAt_kept {s0 s : State} {q : Nat} {young : Bool} {i : Nat} (hs : Kept s0 s) : Kept s0 (State.commitAt s q
    young i) := by
  unfold State.commitAt
  try dsimp only
  repeat' first
    | with_reducible assumption | with_reducible apply State.bump_kept | with_reducible apply State.relabelEvents_kept
    | with_reducible apply State.settleDeferred_kept | with_reducible apply State.setInst_kept
    | with_reducible apply State.resolveEvents_kept | with_reducible apply State.plyWrite_kept
    | with_reducible apply Kept.foldl | (with_reducible intro x a hx; try dsimp only) | (split <;> try dsimp only)

theorem State.suspendSet_kept {s0 s : State} {n : Nat} (hs : Kept s0 s) : Kept s0 (State.suspendSet s n) := by
  unfold State.suspendSet
  try dsimp only
  repeat' first
    | with_reducible assumption | with_reducible apply Kept.ite | with_reducible apply State.updInst_kept
    | with_reducible apply State.xfrog_kept | (split <;> try dsimp only)

theorem State.resumeSet_kept {s0 s : State} {n : Nat} (hs : Kept s0 s) : Kept s0 (State.resumeSet s n) := by
  unfold State.resumeSet
  try dsimp only
  repeat' first
    | with_reducible assumption | with_reducible apply Kept.ite | with_reducible apply State.updInst_kept
    | with_reducible apply State.bindBeds_kept | (split <;> try dsimp only)

theorem State.arm_kept {s0 s : State} {q row : Nat} (hs : Kept s0 s) : Kept s0 (State.arm s q row) := by
  unfold State.arm
  try dsimp only
  repeat' first
    | with_reducible assumption | with_reducible refine Kept2.eq (by assumption) ?_ | with_reducible apply Kept.ite
    | with_reducible apply State.admitPly_kept | with_reducible apply State.setInst_kept
    | with_reducible apply State.passRow_kept | with_reducible apply State.postRefused_kept | (split <;> try dsimp only)

theorem State.startPinned_kept {s0 s : State} {n q : Nat} {young spec : Bool} (hs : Kept s0 s) : Kept s0 (State.startPinned s n
    q young spec) := by
  unfold State.startPinned
  try dsimp only
  repeat' first
    | with_reducible assumption | with_reducible apply Kept.ite | with_reducible apply State.suspendSet_kept
    | with_reducible apply State.bindBeds_kept | with_reducible apply State.updInst_kept
    | with_reducible apply State.openLife_kept

theorem State.popFeed_kept {s0 s : State} {c q row : Nat} (hs : Kept s0 s) : Kept s0 (State.popFeed s c q row) := by
  unfold State.popFeed
  try dsimp only
  repeat' first | with_reducible assumption | with_reducible apply State.setIch_kept

end Sys2Proof.Machine
end

