-- ==== Sys2Proof/Laws/Kept2.lean ====
section
/-!
SUPPORT. Sys2Proof/Laws/Kept2.lean: the operations that keep the queue, the form of memory and the legality of the AL state
(Sys2Proof/Laws/Kept.lean), one lemma each: PlyOps, Boundary, Container, HookOps, Resets, Kethar, Stash.
-/
namespace Sys2Proof.Machine

theorem State.pinStep_kept {s0 s : State} {q : Nat} (hs : Kept s0 s) : Kept s0 (State.pinStep s q) := by
  unfold State.pinStep
  try dsimp only
  repeat' first
    | with_reducible assumption | with_reducible refine Kept2.eq (by assumption) ?_ | with_reducible apply Kept.ite
    | with_reducible apply State.passRow_kept | with_reducible apply State.popFeed_kept
    | with_reducible apply State.admitPly_kept | with_reducible apply State.startPinned_kept
    | with_reducible apply State.setInst_kept | with_reducible apply State.postRefused_kept | (split <;> try dsimp only)

theorem State.pinTry_kept {s0 s : State} {q : Nat} (hs : Kept s0 s) : Kept s0 (State.pinTry s q) := by
  unfold State.pinTry
  try dsimp only
  repeat' first
    | with_reducible assumption | with_reducible apply State.pinStep_kept | with_reducible apply Kept.foldl
    | (with_reducible intro x a hx; try dsimp only)

theorem State.wake_kept {s0 s : State} {c row : Nat} (hs : Kept s0 s) : Kept s0 (State.wake s c row) := by
  unfold State.wake
  try dsimp only
  repeat' first
    | with_reducible assumption | with_reducible apply Kept.ite | with_reducible apply State.setFld_kept
    | with_reducible apply State.resumeSet_kept | with_reducible apply State.arm_kept
    | with_reducible apply State.suspendSet_kept | with_reducible apply Kept.foldl
    | (with_reducible intro x a hx; try dsimp only) | (split <;> try dsimp only)

theorem State.promote_kept {s0 s : State} {q : Nat} (hs : Kept s0 s) : Kept s0 (State.promote s q) := by
  unfold State.promote
  try dsimp only
  repeat' first
    | with_reducible assumption | with_reducible apply Kept.ite | with_reducible apply State.setPlq_kept
    | with_reducible apply State.commitAt_kept | with_reducible apply State.updInst_kept
    | with_reducible apply State.openLife_kept | (split <;> try dsimp only)

theorem State.endInst_kept {s0 s : State} {q : Nat} {young : Bool} (hs : Kept s0 s) : Kept s0 (State.endInst s q young) := by
  unfold State.endInst
  try dsimp only
  repeat' first
    | with_reducible assumption | with_reducible apply Kept.ite | with_reducible apply State.setInst_kept
    | with_reducible apply State.setPlq_kept | with_reducible apply State.passRow_kept
    | with_reducible apply State.setBset_kept | with_reducible apply State.promote_kept
    | with_reducible apply State.resumeSet_kept | with_reducible apply State.pinTry_kept | (split <;> try dsimp only)

theorem State.retire_kept {s0 s : State} {q : Nat} {young : Bool} (hs : Kept s0 s) : Kept s0 (State.retire s q young) := by
  unfold State.retire
  try dsimp only
  repeat' first
    | with_reducible assumption | with_reducible apply Kept.ite | with_reducible apply State.bump_kept
    | with_reducible apply State.post_kept | with_reducible apply State.endInst_kept | with_reducible apply State.ringRow_kept
    | (split <;> try dsimp only)

theorem State.cutInst_kept {s0 s : State} {q : Nat} {young : Bool} (hs : Kept s0 s) : Kept s0 (State.cutInst s q young) := by
  unfold State.cutInst
  try dsimp only
  repeat' first
    | with_reducible assumption | with_reducible apply Kept.ite | with_reducible apply State.xfrog_kept
    | with_reducible apply State.updInst_kept | with_reducible apply State.endInst_kept | with_reducible apply State.post_kept
    | (split <;> try dsimp only) | with_reducible refine Kept.put ?_ (fun w => w) rfl rfl

theorem State.resolveSpec_kept {s0 s : State} {q : Nat} {young ok : Bool} {row : Nat} (hs : Kept s0 s) : Kept s0
    (State.resolveSpec s q young ok row) := by
  unfold State.resolveSpec
  try dsimp only
  repeat' first
    | with_reducible assumption | with_reducible apply Kept.ite | with_reducible apply State.updInst_kept
    | with_reducible apply State.endInst_kept | with_reducible apply State.post_kept | with_reducible apply State.ringRow_kept
    | with_reducible apply State.passRow_kept | with_reducible apply State.commitAt_kept
    | with_reducible apply State.frogAt_kept | (split <;> try dsimp only)

theorem State.startQBindoff_kept {s0 s : State} {q : Nat} (hs : Kept s0 s) : Kept s0 (State.startQBindoff s q) := by
  unfold State.startQBindoff
  try dsimp only
  repeat' first
    | with_reducible assumption | with_reducible apply Kept.ite | with_reducible apply State.setFld_kept
    | with_reducible apply State.setPlq_kept | with_reducible apply State.post_kept | with_reducible apply State.resumeSet_kept
    | with_reducible apply State.pinTry_kept | with_reducible apply Kept.foldl | (with_reducible intro x a hx; try dsimp only)

theorem State.raiseEpoch_kept {s0 s : State} {q : Nat} (hs : Kept s0 s) : Kept s0 (State.raiseEpoch s q) := by
  unfold State.raiseEpoch
  try dsimp only
  repeat' first | with_reducible assumption | with_reducible apply State.setFld_kept

theorem State.migrate_kept {s0 s : State} {q lpos : Nat} {nb : Option Nat} {hw : Bool} (hs : Kept s0 s) : Kept s0 (State.migrate
    s q lpos nb hw) := by
  unfold State.migrate
  try dsimp only
  repeat' first
    | with_reducible assumption | with_reducible apply Kept.ite | with_reducible apply State.raiseEpoch_kept
    | with_reducible apply State.setFld_kept | with_reducible apply State.xfrog_kept | with_reducible apply State.updInst_kept
    | with_reducible apply State.setBset_kept | with_reducible apply State.bindBeds_kept | with_reducible apply Kept.foldl
    | (with_reducible intro x a hx; try dsimp only) | (split <;> try dsimp only)

theorem State.migrateHw_kept {s0 s : State} {b : Nat} (hs : Kept s0 s) : Kept s0 (State.migrateHw s b) := by
  unfold State.migrateHw
  try dsimp only
  repeat' first
    | with_reducible assumption | with_reducible apply State.setFld_kept | with_reducible apply State.migrate_kept
    | (split <;> try dsimp only)

theorem State.retireBed_kept {s0 s : State} {b : Nat} (hs : Kept s0 s) : Kept s0 (State.retireBed s b) := by
  unfold State.retireBed
  try dsimp only
  repeat' first | with_reducible assumption | with_reducible apply State.setFld_kept | with_reducible apply State.raise_kept

theorem State.gaugeRetire_kept {s0 s : State} {b : Nat} (hs : Kept s0 s) : Kept s0 (State.gaugeRetire s b) := by
  unfold State.gaugeRetire
  try dsimp only
  repeat' first
    | with_reducible assumption | with_reducible apply State.retireBed_kept | with_reducible apply State.setFld_kept
    | with_reducible apply State.raise_kept | with_reducible apply State.bump_kept

theorem State.takeSpare_kept {s0 s : State} {n : Nat} {pos : Option Nat} (hs : Kept s0 s) : Kept s0 (State.takeSpare s n pos) := by
  unfold State.takeSpare
  try dsimp only
  repeat' first
    | with_reducible assumption | (split <;> try dsimp only) | with_reducible refine Kept.put ?_ (fun w => w) rfl rfl

theorem State.timeoutMove_kept {s0 s : State} {b : Nat} {retire : Bool} (hs : Kept s0 s) : Kept s0 (State.timeoutMove s b
    retire) := by
  unfold State.timeoutMove
  try dsimp only
  repeat' first
    | with_reducible assumption | with_reducible apply Kept.ite | with_reducible apply State.migrateHw_kept
    | with_reducible apply State.takeSpare_kept | with_reducible apply State.gaugeRetire_kept

theorem State.resetBed_kept {s0 s : State} {b : Nat} (hs : Kept s0 s) : Kept s0 (State.resetBed s b) := by
  unfold State.resetBed
  try dsimp only
  repeat' first | with_reducible assumption | with_reducible apply State.setFld_kept | with_reducible apply State.setBed_kept

theorem State.endMigration_kept {s0 s : State} {n : Nat} {timedOut : Bool} (hs : Kept s0 s) : Kept s0 (State.endMigration s n
    timedOut) := by
  unfold State.endMigration
  try dsimp only
  repeat' first
    | with_reducible assumption | with_reducible apply Kept.ite | with_reducible apply State.setFld_kept
    | with_reducible apply State.setBset_kept | with_reducible apply State.resetBed_kept
    | with_reducible apply State.raise_kept | with_reducible apply State.expiry_kept | with_reducible apply State.bump_kept
    | with_reducible apply State.timeoutMove_kept | with_reducible apply State.setBed_kept | (split <;> try dsimp only)

theorem State.rebase_kept {s0 s : State} {k row : Nat} (hs : Kept s0 s) : Kept s0 (State.rebase s k row) := by
  unfold State.rebase
  try dsimp only
  repeat' first | with_reducible assumption | with_reducible apply State.setCam_kept

theorem State.updRow_kept {s0 s : State} {n row : Nat} {f : IRow → IRow} (hs : Kept s0 s) : Kept s0 (State.updRow s n row f) := by
  unfold State.updRow
  try dsimp only
  repeat' first | with_reducible assumption | with_reducible apply State.setIch_kept

theorem State.delRow_kept {s0 s : State} {n row : Nat} (hs : Kept s0 s) : Kept s0 (State.delRow s n row) := by
  unfold State.delRow
  try dsimp only
  repeat' first | with_reducible assumption | with_reducible apply State.setIch_kept

theorem State.noteFinal_kept {s0 s : State} {n : Nat} {m : Marker} (hs : Kept s0 s) : Kept s0 (State.noteFinal s n m) := by
  unfold State.noteFinal
  try dsimp only
  repeat' first | with_reducible assumption | with_reducible apply Kept.ite | with_reducible apply State.setIch_kept

theorem State.markUninspected_kept {s0 s : State} {n row : Nat} (hs : Kept s0 s) : Kept s0 (State.markUninspected s n row) := by
  unfold State.markUninspected
  try dsimp only
  repeat' first
    | with_reducible assumption | with_reducible apply Kept.ite | with_reducible apply State.uninspected_kept
    | with_reducible apply Kept.foldl | (with_reducible intro x a hx; try dsimp only)

theorem State.consumersDrop_kept {s0 s : State} {n row : Nat} (hs : Kept s0 s) : Kept s0 (State.consumersDrop s n row) := by
  unfold State.consumersDrop
  try dsimp only
  repeat' first
    | with_reducible assumption | with_reducible apply Kept.ite | with_reducible apply State.setPlq_kept
    | with_reducible apply State.resumeSet_kept | with_reducible apply State.passCons_kept
    | with_reducible apply State.popFeed_kept | with_reducible apply State.raiseRel_kept | with_reducible apply Kept.foldl
    | (with_reducible intro x a hx; try dsimp only)

theorem State.recordDrop_kept {s0 s : State} {n row cause : Nat} (hs : Kept s0 s) : Kept s0 (State.recordDrop s n row cause) := by
  unfold State.recordDrop
  try dsimp only
  repeat' first
    | with_reducible assumption | with_reducible apply Kept.ite | with_reducible apply State.setFld_kept
    | with_reducible apply State.setIch_kept | with_reducible apply State.raise_kept
    | with_reducible apply State.markUninspected_kept | with_reducible apply State.bump_kept

theorem State.dropRow_kept {s0 s : State} {n : Nat} {r : IRow} {cause : Nat} (hs : Kept s0 s) : Kept s0 (State.dropRow s n r
    cause) := by
  unfold State.dropRow
  try dsimp only
  repeat' first
    | with_reducible assumption | with_reducible apply State.writeMarker_kept | with_reducible apply State.delRow_kept
    | with_reducible apply State.consumersDrop_kept | with_reducible apply State.recordDrop_kept
    | with_reducible apply State.noteFinal_kept

theorem State.fillFailed_kept {s0 s : State} {n : Nat} {r : IRow} (hs : Kept s0 s) : Kept s0 (State.fillFailed s n r) := by
  unfold State.fillFailed
  try dsimp only
  repeat' first
    | with_reducible assumption | with_reducible apply State.store_kept | with_reducible apply Kept.foldl
    | (with_reducible intro x a hx; try dsimp only) | (split <;> try dsimp only)

theorem State.showHead_kept {s0 s : State} {n : Nat} (hs : Kept s0 s) : Kept s0 (State.showHead s n) := by
  unfold State.showHead
  try dsimp only
  repeat' first
    | with_reducible assumption | with_reducible apply Kept.ite | with_reducible apply State.updRow_kept
    | with_reducible apply State.noteFinal_kept | with_reducible apply State.writeMarker_kept
    | with_reducible apply State.setFld_kept | (split <;> try dsimp only)

theorem State.checkRow_kept {s0 s : State} {n row : Nat} (hs : Kept s0 s) : Kept s0 (State.checkRow s n row) := by
  unfold State.checkRow
  try dsimp only
  repeat' first
    | with_reducible assumption | with_reducible apply Kept.ite | with_reducible apply State.showHead_kept
    | with_reducible apply State.updRow_kept | with_reducible apply State.setIch_kept
    | with_reducible apply State.fillFailed_kept | with_reducible apply State.bump_kept
    | with_reducible apply State.dropRow_kept | (split <;> try dsimp only)

theorem State.setLine_kept {s0 s : State} {n row k : Nat} {x : LineSt} (hs : Kept s0 s) : Kept s0 (State.setLine s n row k x) := by
  unfold State.setLine
  try dsimp only
  repeat' first
    | with_reducible assumption | with_reducible apply Kept.ite | with_reducible apply State.updRow_kept
    | with_reducible apply State.setCam_kept | with_reducible apply State.checkRow_kept | (split <;> try dsimp only)

theorem State.failCam_kept {s0 s : State} {k cause : Nat} (hs : Kept s0 s) : Kept s0 (State.failCam s k cause) := by
  unfold State.failCam
  try dsimp only
  repeat' first
    | with_reducible assumption | with_reducible apply State.setLine_kept | with_reducible apply Kept.foldl
    | (with_reducible intro x a hx; try dsimp only)

theorem State.releaseRow_kept {s0 s : State} {n : Nat} {r : IRow} (hs : Kept s0 s) : Kept s0 (State.releaseRow s n r) := by
  unfold State.releaseRow
  try dsimp only
  repeat' first
    | with_reducible assumption | with_reducible apply Kept.ite | with_reducible apply State.updRow_kept
    | with_reducible apply State.delRow_kept | with_reducible apply State.pinTry_kept | with_reducible apply State.setIch_kept
    | with_reducible apply State.passCons_kept | with_reducible apply State.raiseRel_kept
    | with_reducible apply State.showHead_kept | with_reducible apply Kept.foldl
    | (with_reducible intro x a hx; try dsimp only)

theorem State.admitRow_kept {s0 s : State} {n : Nat} (hs : Kept s0 s) : Kept s0 (State.admitRow s n) := by
  unfold State.admitRow
  try dsimp only
  repeat' first
    | with_reducible assumption | with_reducible apply Kept.ite | with_reducible apply State.setIch_kept
    | with_reducible apply State.checkRow_kept | with_reducible apply State.noteFinal_kept
    | with_reducible apply State.setFld_kept | with_reducible apply State.consumersDrop_kept
    | with_reducible apply State.recordDrop_kept | (split <;> try dsimp only)

theorem State.triggerGroup_kept {s0 s : State} {n : Nat} (hs : Kept s0 s) : Kept s0 (State.triggerGroup s n) := by
  unfold State.triggerGroup
  try dsimp only
  repeat' first
    | with_reducible assumption | with_reducible apply Kept.ite | with_reducible apply State.send_kept
    | with_reducible apply Kept.foldl | (with_reducible intro x a hx; try dsimp only)

theorem State.boundaryAll_kept {s0 s : State} {n time : Nat} {pos : Int} (hs : Kept s0 s) : Kept s0 (State.boundaryAll s n time
    pos) := by
  unfold State.boundaryAll
  try dsimp only
  repeat' first
    | with_reducible assumption | with_reducible apply Kept.ite | with_reducible apply State.boundary_kept
    | with_reducible apply State.reproject_kept | with_reducible apply State.triggerGroup_kept
    | with_reducible apply State.admitRow_kept | with_reducible apply Kept.foldl
    | (with_reducible intro x a hx; try dsimp only)

theorem State.encPosAt_kept {s0 s : State} {e t : Nat} (hs : Kept s0 s) : Kept2 s0 (State.encPosAt s e t) := by
  unfold State.encPosAt
  try dsimp only
  repeat' first
    | with_reducible assumption | with_reducible apply Kept2.ite | with_reducible apply State.fresh_kept
    | with_reducible apply Kept2.mk | with_reducible apply Kept2.snd

theorem State.dueBoundary_kept {s0 s : State} {n : Nat} (hs : Kept s0 s) : KeptO4 s0 (State.dueBoundary s n) := by
  unfold State.dueBoundary
  try dsimp only
  repeat' first
    | with_reducible assumption | with_reducible apply State.encPosAt_kept | with_reducible apply KeptO4.some
    | with_reducible apply KeptO4.none | (split <;> try dsimp only) | with_reducible apply Kept2.snd

theorem State.setK_kept {s0 s : State} {n : Nat} {k : Int} (hs : Kept s0 s) : Kept s0 (State.setK s n k) := by
  unfold State.setK
  try dsimp only
  repeat' first
    | with_reducible assumption | with_reducible apply State.setChan_kept | with_reducible apply Kept.foldl
    | (with_reducible intro x a hx; try dsimp only)

theorem State.pinnedBack_kept {s0 s : State} {n : Nat} (hs : Kept s0 s) : Kept s0 (State.pinnedBack s n) := by
  unfold State.pinnedBack
  try dsimp only
  repeat' first
    | with_reducible assumption | with_reducible apply Kept.ite | with_reducible apply State.setFld_kept
    | with_reducible apply Kept.foldl | (with_reducible intro x a hx; try dsimp only)

theorem State.ingestEnter_kept {s0 s : State} {n r0 : Nat} (hs : Kept s0 s) : Kept s0 (State.ingestEnter s n r0) := by
  unfold State.ingestEnter
  try dsimp only
  repeat' first
    | with_reducible assumption | with_reducible apply Kept.ite | with_reducible apply State.setFld_kept
    | with_reducible apply State.store_kept | with_reducible apply State.pinnedBack_kept
    | with_reducible apply State.rebase_kept | with_reducible apply State.setIch_kept
    | with_reducible apply State.raiseRel_kept | with_reducible apply Kept.foldl
    | (with_reducible intro x a hx; try dsimp only)

theorem State.followLeader_kept {s0 s : State} {m : Nat} (hs : Kept s0 s) : Kept s0 (State.followLeader s m) := by
  unfold State.followLeader
  try dsimp only
  repeat' first | with_reducible assumption | with_reducible apply State.setChan_kept

theorem State.enterRun_kept {s0 s : State} {n : Nat} (hs : Kept s0 s) : Kept s0 (State.enterRun s n) := by
  unfold State.enterRun
  try dsimp only
  repeat' first
    | with_reducible assumption | with_reducible apply Kept.ite | with_reducible apply State.setChan_kept
    | with_reducible apply State.ingestEnter_kept | with_reducible apply State.boundaryAll_kept
    | with_reducible apply State.followLeader_kept | with_reducible apply Kept.foldl
    | (with_reducible intro x a hx; try dsimp only)

theorem State.settleChan_kept {s0 s : State} {n : Nat} (hs : Kept s0 s) : Kept s0 (State.settleChan s n) := by
  unfold State.settleChan
  try dsimp only
  repeat' first
    | with_reducible assumption | with_reducible apply Kept.ite | with_reducible apply State.setOd_kept
    | with_reducible apply State.setChan_kept

theorem State.settleChans_kept {s0 s : State} (hs : Kept s0 s) : Kept s0 (State.settleChans s) := by
  unfold State.settleChans
  try dsimp only
  repeat' first | with_reducible assumption | with_reducible apply State.settleChan_kept | with_reducible apply Kept.foldl

theorem State.verifyCount_kept {s0 s : State} {l : List Byte} {typ : Nat} (hs : Kept s0 s) : Kept2 s0 (State.verifyCount s l
    typ) := by
  unfold State.verifyCount
  try dsimp only
  repeat' first
    | with_reducible assumption | with_reducible apply State.bump_kept | with_reducible apply Kept2.mk
    | (split <;> try dsimp only)

theorem State.setMeas_kept {s0 s : State} {m : Nat} {h : BitVec 256} (hs : Kept s0 s) : Kept s0 (State.setMeas s m h) := by
  unfold State.setMeas
  try dsimp only
  repeat' first
    | with_reducible assumption | with_reducible apply State.setFld_kept | with_reducible apply Kept.foldl
    | (with_reducible intro x a hx; try dsimp only)

theorem State.extend_kept {s0 s : State} {m : Nat} {h : BitVec 256} (hs : Kept s0 s) : Kept s0 (State.extend s m h) := by
  unfold State.extend
  try dsimp only
  repeat' first | with_reducible assumption | with_reducible apply State.setMeas_kept

theorem State.measSlots_kept {s0 s : State} (hs : Kept s0 s) : Kept s0 (State.measSlots s) := by
  unfold State.measSlots
  try dsimp only
  repeat' first | with_reducible assumption | with_reducible apply State.setMeas_kept

theorem State.flashStore_kept {s0 s : State} {keep : DirEnt → Bool} {new : Option (Nat × Nat × List Byte)} (hs : Kept s0 s) :
    KeptO s0 (State.flashStore s keep new) := by
  unfold State.flashStore
  try dsimp only
  repeat' first
    | with_reducible assumption | with_reducible apply State.send_kept | with_reducible apply KeptO.some
    | with_reducible apply KeptO.none | (split <;> try dsimp only) | with_reducible refine Kept.put ?_ (fun w => w) rfl rfl

theorem State.setTh_kept {s0 s : State} {c t : Nat} {x : Thread} (hs : Kept s0 s) : Kept s0 (State.setTh s c t x) := by
  unfold State.setTh
  try dsimp only
  repeat' first | with_reducible assumption | with_reducible refine Kept.put ?_ (fun w => w) rfl rfl

theorem State.updTh_kept {s0 s : State} {c t : Nat} {f : Thread → Thread} (hs : Kept s0 s) : Kept s0 (State.updTh s c t f) := by
  unfold State.updTh
  try dsimp only
  repeat' first | with_reducible assumption | with_reducible apply State.setTh_kept

theorem State.markDirty_kept {s0 s : State} {c t k : Nat} (hs : Kept s0 s) : Kept s0 (State.markDirty s c t k) := by
  unfold State.markDirty
  try dsimp only
  repeat' first | with_reducible assumption | with_reducible apply State.setFld_kept

theorem State.setV_kept {s0 s : State} {c t k bits v : Nat} (hs : Kept s0 s) : Kept s0 (State.setV s c t k bits v) := by
  unfold State.setV
  try dsimp only
  repeat' first | with_reducible assumption | with_reducible apply State.markDirty_kept | with_reducible apply State.updTh_kept

theorem State.setF_kept {s0 s : State} {c t i v : Nat} (hs : Kept s0 s) : Kept s0 (State.setF s c t i v) := by
  unfold State.setF
  try dsimp only
  repeat' first | with_reducible assumption | with_reducible apply State.markDirty_kept | with_reducible apply State.updTh_kept

theorem State.setFault_kept {s0 s : State} {c t : Nat} {e : Exc} (hs : Kept s0 s) : Kept s0 (State.setFault s c t e) := by
  unfold State.setFault
  try dsimp only
  repeat' first | with_reducible assumption | with_reducible apply State.updTh_kept

theorem State.escalate_kept {s0 s : State} {c t code : Nat} {e : Exc} (hs : Kept s0 s) : Kept s0 (State.escalate s c t code e) := by
  unfold State.escalate
  try dsimp only
  repeat' first | with_reducible assumption | with_reducible apply State.updTh_kept

theorem State.deliver_kept {s0 s : State} {c t : Nat} {l : HLoad} (hs : Kept s0 s) : Kept s0 (State.deliver s c t l) := by
  unfold State.deliver
  try dsimp only
  repeat' first
    | with_reducible assumption | with_reducible apply Kept.ite | with_reducible apply State.updTh_kept
    | with_reducible apply State.setF_kept | with_reducible apply State.setV_kept | (split <;> try dsimp only)

theorem State.settle_kept {s0 s : State} {c t : Nat} {p : HLoad → Bool} (hs : Kept s0 s) : Kept s0 (State.settle s c t p) := by
  unfold State.settle
  try dsimp only
  repeat' first
    | with_reducible assumption | with_reducible apply State.deliver_kept | with_reducible apply State.updTh_kept
    | with_reducible apply Kept.foldl | (with_reducible intro x a hx; try dsimp only)

theorem State.hookIssue_kept {s0 s : State} {hi : HI} {r : Thread → HReq} {body : State → HOut} (hs : Kept s0 s) (hbody : ∀ x,
    Kept s0 x → KeptH s0 (body x)) : Kept s0 (State.hookIssue s hi r body) := by
  unfold State.hookIssue
  try dsimp only
  repeat' first
    | with_reducible assumption | with_reducible refine KeptH.eqOk (by assumption) ?_
    | with_reducible refine KeptH.eqFault (by assumption) ?_ | with_reducible refine KeptH.eqAgain (by assumption) ?_
    | with_reducible apply Kept.ite | with_reducible apply State.updTh_kept | with_reducible apply State.settle_kept
    | with_reducible apply State.setFault_kept | with_reducible apply hbody | (split <;> try dsimp only)

theorem State.hookReg_kept {s0 s : State} {hi : HI} {r : Thread → HReq} {f : Thread → Thread} (hs : Kept s0 s) : KeptX s0
    (State.hookReg s hi r f) := by
  unfold State.hookReg
  try dsimp only
  repeat' first
    | with_reducible assumption | with_reducible apply State.hookIssue_kept | with_reducible apply State.updTh_kept
    | with_reducible apply KeptX.next | with_reducible apply KeptH.ok | (with_reducible intro x hx; try dsimp only)

theorem State.hookInit_kept {s0 s : State} (hs : Kept s0 s) : Kept s0 (State.hookInit s) := by
  unfold State.hookInit
  try dsimp only
  repeat' first
    | with_reducible assumption | with_reducible apply State.setFld_kept | refine Kept.put ?_ (fun w => w) rfl rfl
    | refine Kept.put ?_ (fun w => poisonAfter_wf w _ _ _) rfl rfl
    | refine Kept.put ?_ (fun w => poisonAfter_wf (poisonAfter_wf w _ _ _) _ _ _) rfl rfl
    | refine Kept.put ?_ (fun w => clearHook_wf w _) rfl rfl | refine Kept.put ?_ (fun w => dropStash_wf w) rfl rfl
    | refine Kept.put ?_ (fun w => splitMem_wf w) rfl rfl | refine Kept.put ?_ (fun w => mergeMem_wf w) rfl rfl
    | refine Kept.put ?_ (fun w => cellsFilter_wf w _) rfl rfl | refine Kept.put ?_ (fun w => cellsPut_wf w _ _) rfl rfl
    | refine Kept.put ?_ (fun w => cellsPutAll_wf w _ _) rfl rfl

theorem State.latchReset_kept {s0 s : State} {level : Nat} {trig : Trig} (hs : Kept s0 s) : Kept s0 (State.latchReset s level
    trig) := by
  unfold State.latchReset
  try dsimp only
  repeat' first
    | with_reducible assumption | with_reducible apply State.bump_kept | with_reducible apply State.setFld_kept
    | with_reducible apply State.setPair_kept | with_reducible apply Kept.foldl | (with_reducible intro x a hx; try dsimp only)

theorem State.reinit_kept {s0 s : State} {warm : Bool} (hs : Kept s0 s) : Kept s0 (State.reinit s warm) := by
  refine hs.trans ⟨rfl, fun w => ?_, fun _ => rfl⟩
  unfold State.reinit State.warmMem
  dsimp only
  split
  · exact cellsFilter_wf w _
  · rfl

theorem State.driveSafe_kept {s0 s : State} (hs : Kept s0 s) : Kept s0 (State.driveSafe s) := by
  unfold State.driveSafe
  try dsimp only
  repeat' first | with_reducible assumption | with_reducible apply State.drivePin_kept | with_reducible apply Kept.foldl

theorem State.systemReset_kept {s0 s : State} {level : Nat} {trig : Trig} (hs : Kept s0 s) : Kept s0 (State.systemReset s level
    trig) := by
  unfold State.systemReset
  try dsimp only
  repeat' first
    | with_reducible assumption | with_reducible apply State.driveSafe_kept | with_reducible apply State.reinit_kept
    | with_reducible apply State.latchReset_kept | with_reducible apply State.disarm_kept

theorem State.powerOnReset_kept {s0 s : State} (hs : Kept s0 s) : Kept s0 (State.powerOnReset s) := by
  unfold State.powerOnReset
  try dsimp only
  repeat' first
    | with_reducible assumption | with_reducible apply State.reinit_kept | with_reducible apply State.disarm_kept
    | with_reducible apply State.driveSafe_kept | with_reducible refine Kept.put ?_ (fun w => w) rfl rfl

theorem State.hookReset_kept {s0 s : State} {trig : Trig} (hs : Kept s0 s) : Kept s0 (State.hookReset s trig) := by
  unfold State.hookReset
  try dsimp only
  repeat' first
    | with_reducible assumption | with_reducible apply Kept.ite | with_reducible apply State.hookInit_kept
    | with_reducible apply State.bump_kept | with_reducible apply State.latchReset_kept
    | with_reducible apply State.disarm_kept | with_reducible apply State.setFld_kept
    | with_reducible refine Kept.put ?_ (fun w => w) rfl rfl

theorem State.kthStart_kept {s0 s : State} {o : KOp} (hs : Kept s0 s) : Kept s0 (State.kthStart s o) := by
  unfold State.kthStart
  try dsimp only
  repeat' first
    | with_reducible assumption | with_reducible apply Kept.ite | with_reducible apply State.setFld_kept
    | with_reducible apply State.setOd_kept | (split <;> try dsimp only)
    | with_reducible refine Kept.put ?_ (fun w => w) rfl rfl

theorem State.kthGo_kept {s0 s : State} {op : Nat} (hs : Kept s0 s) : Kept s0 (State.kthGo s op) := by
  unfold State.kthGo
  try dsimp only
  repeat' first | with_reducible assumption | with_reducible apply State.kthStart_kept

theorem State.kthReport_kept {s0 s : State} {op od err : Nat} (hs : Kept s0 s) : Kept s0 (State.kthReport s op od err) := by
  unfold State.kthReport
  try dsimp only
  repeat' first | with_reducible assumption | with_reducible apply Kept.ite | with_reducible apply State.setOd_kept

theorem State.kthDone_kept {s0 s : State} {op od err : Nat} (hs : Kept s0 s) : Kept s0 (State.kthDone s op od err) := by
  unfold State.kthDone
  try dsimp only
  repeat' first
    | with_reducible assumption | with_reducible apply State.setFld_kept | with_reducible apply State.raise_kept
    | with_reducible apply State.kthReport_kept | with_reducible refine Kept.put ?_ (fun w => w) rfl rfl

theorem State.kthSign_kept {s0 s : State} {msg : List Byte} (hs : Kept s0 s) : Kept2 s0 (State.kthSign s msg) := by
  unfold State.kthSign
  try dsimp only
  repeat' first
    | with_reducible assumption | with_reducible apply Kept.ite | with_reducible apply State.setFld_kept
    | with_reducible apply State.raise_kept | with_reducible apply Kept2.mk | (split <;> try dsimp only)

theorem State.kthPut_kept {s0 s : State} {o : KOp} {bs : List Byte} (hs : Kept s0 s) : Kept s0 (State.kthPut s o bs) := by
  unfold State.kthPut
  try dsimp only
  repeat' first
    | with_reducible assumption | with_reducible apply Kept.ite | with_reducible apply State.store_kept
    | with_reducible refine Kept.put ?_ (fun w => w) rfl rfl

theorem State.kthVerify_kept {s0 s : State} {o : KOp} {typ m : Nat} (hs : Kept s0 s) : Kept2 s0 (State.kthVerify s o typ m) := by
  unfold State.kthVerify
  try dsimp only
  repeat' first
    | with_reducible assumption | with_reducible refine Kept2.eq (by assumption) ?_
    | with_reducible apply State.verifyCount_kept | with_reducible apply State.extend_kept | with_reducible apply Kept2.mk
    | (split <;> try dsimp only)

theorem State.kthAttest_kept {s0 s : State} {o : KOp} (hs : Kept s0 s) : Kept2 s0 (State.kthAttest s o) := by
  unfold State.kthAttest
  try dsimp only
  repeat' first
    | with_reducible assumption | with_reducible refine Kept2.eq (by assumption) ?_ | with_reducible apply State.setMeas_kept
    | with_reducible apply State.kthSign_kept | with_reducible apply State.kthPut_kept | with_reducible apply Kept2.mk
    | (split <;> try dsimp only)

theorem State.kthSignDigest_kept {s0 s : State} {o : KOp} (hs : Kept s0 s) : Kept2 s0 (State.kthSignDigest s o) := by
  unfold State.kthSignDigest
  try dsimp only
  repeat' first
    | with_reducible assumption | with_reducible refine Kept2.eq (by assumption) ?_ | with_reducible apply Kept2.ite
    | with_reducible apply State.kthSign_kept | with_reducible apply State.kthPut_kept | with_reducible apply Kept2.mk
    | (split <;> try dsimp only)

theorem State.kthSignRepair_kept {s0 s : State} {o : KOp} (hs : Kept s0 s) : Kept2 s0 (State.kthSignRepair s o) := by
  unfold State.kthSignRepair
  try dsimp only
  repeat' first
    | with_reducible assumption | with_reducible refine Kept2.eq (by assumption) ?_ | with_reducible apply State.kthSign_kept
    | with_reducible apply State.kthPut_kept | with_reducible apply Kept2.mk | (split <;> try dsimp only)

theorem State.kthChallenge_kept {s0 s : State} (hs : Kept s0 s) : Kept s0 (State.kthChallenge s) := by
  unfold State.kthChallenge
  try dsimp only
  repeat' first
    | with_reducible assumption | with_reducible apply State.fresh_kept | with_reducible apply State.setFld_kept
    | with_reducible apply Kept.foldl | (with_reducible intro x a hx; try dsimp only) | with_reducible apply Kept2.snd
    | with_reducible refine Kept.put ?_ (fun w => w) rfl rfl

theorem State.kthUnlock_kept {s0 s : State} {o : KOp} (hs : Kept s0 s) : Kept2 s0 (State.kthUnlock s o) := by
  unfold State.kthUnlock
  try dsimp only
  repeat' first
    | with_reducible assumption | with_reducible apply Kept2.ite | with_reducible apply State.bump_kept
    | with_reducible apply State.setFld_kept | with_reducible apply Kept2.mk
    | with_reducible refine Kept.put ?_ (fun w => w) rfl rfl

theorem State.blow_kept {s0 s : State} {op slot : Nat} {h : BitVec 256} {ok : Bool} (hs : Kept s0 s) : Kept2 s0 (State.blow s op
    slot h ok) := by
  unfold State.blow
  try dsimp only
  repeat' first
    | with_reducible assumption | with_reducible apply Kept.ite | with_reducible apply State.measSlots_kept
    | with_reducible apply Kept2.mk | with_reducible refine Kept.put ?_ (fun w => w) rfl rfl

theorem State.kthKeyop_kept {s0 s : State} {o : KOp} {ok : Bool} (hs : Kept s0 s) : Kept2 s0 (State.kthKeyop s o ok) := by
  unfold State.kthKeyop
  try dsimp only
  repeat' first
    | with_reducible assumption | with_reducible refine Kept2.eq (by assumption) ?_ | with_reducible apply State.bump_kept
    | with_reducible apply State.blow_kept | with_reducible apply State.verifyCount_kept | with_reducible apply Kept2.mk
    | (split <;> try dsimp only) | with_reducible apply Kept2.snd

theorem State.kthBurn_kept {s0 s : State} {o : KOp} {rs : List (Bool × Bool)} (hs : Kept s0 s) : Kept s0 (State.kthBurn s o rs) := by
  unfold State.kthBurn
  try dsimp only
  repeat' first
    | with_reducible assumption | with_reducible apply State.bump_kept | with_reducible apply State.kthDone_kept
    | with_reducible apply State.setFld_kept | (split <;> try dsimp only)
    | with_reducible refine Kept.put ?_ (fun w => w) rfl rfl

theorem State.kthFinishTree_kept {s0 s : State} (hs : Kept s0 s) : Kept s0 (State.kthFinishTree s) := by
  unfold State.kthFinishTree
  try dsimp only
  repeat' first
    | with_reducible assumption | with_reducible apply Kept.ite | with_reducible apply State.setFld_kept
    | with_reducible apply State.raise_kept | with_reducible apply State.kthReport_kept | (split <;> try dsimp only)
    | with_reducible refine Kept.put ?_ (fun w => w) rfl rfl

theorem State.kthPath_kept {s0 s : State} (hs : Kept s0 s) : Kept s0 (State.kthPath s) := by
  unfold State.kthPath
  try dsimp only
  repeat' first
    | with_reducible assumption | with_reducible apply State.kthFinishTree_kept | (split <;> try dsimp only)
    | with_reducible refine Kept.put ?_ (fun w => w) rfl rfl

theorem State.kthRun_kept {s0 s : State} {o : KOp} {ok : Bool} (hs : Kept s0 s) : Kept2 s0 (State.kthRun s o ok) := by
  unfold State.kthRun
  try dsimp only
  repeat' first
    | with_reducible assumption | with_reducible apply Kept2.ite | with_reducible apply State.kthVerify_kept
    | with_reducible apply State.kthAttest_kept | with_reducible apply State.kthSignDigest_kept
    | with_reducible apply State.kthSignRepair_kept | with_reducible apply State.kthChallenge_kept
    | with_reducible apply State.kthUnlock_kept | with_reducible apply State.kthKeyop_kept | with_reducible apply Kept2.mk

theorem State.kthEnd_kept {s0 s : State} {rs : List (Bool × Bool)} {ok : Bool} (hs : Kept s0 s) : Kept s0 (State.kthEnd s rs ok) := by
  unfold State.kthEnd
  try dsimp only
  repeat' first
    | with_reducible assumption | with_reducible apply Kept.ite | with_reducible apply State.kthBurn_kept
    | with_reducible apply State.kthDone_kept | with_reducible apply State.kthPath_kept
    | with_reducible apply State.kthRun_kept | (split <;> try dsimp only) | with_reducible apply Kept2.snd

theorem State.stCycles_kept {s0 s : State} {dc : Nat} (hs : Kept s0 s) : Kept s0 (State.stCycles s dc) := by
  unfold State.stCycles
  try dsimp only
  repeat' first | with_reducible assumption | with_reducible refine Kept.put ?_ (fun w => w) rfl rfl

theorem State.stEnqueue_kept {s0 s : State} {bank : Nat} {r : StReq} (hs : Kept s0 s) : Kept s0 (State.stEnqueue s bank r) := by
  unfold State.stEnqueue
  try dsimp only
  repeat' first
    | with_reducible assumption | with_reducible apply Kept.ite | with_reducible refine Kept.put ?_ (fun w => w) rfl rfl

theorem State.stAdmit_kept {s0 s : State} {bank : Nat} (hs : Kept s0 s) : Kept s0 (State.stAdmit s bank) := by
  unfold State.stAdmit
  try dsimp only
  repeat' first
    | with_reducible assumption | with_reducible apply Kept.ite | with_reducible apply State.stEnqueue_kept
    | (split <;> try dsimp only) | with_reducible refine Kept.put ?_ (fun w => w) rfl rfl

theorem State.stRequest_kept {s0 s : State} {port id off : Nat} {line wr : Bool} {data : List Byte} {be : DWord} {epoch : Half}
    {plq : Nat} (hs : Kept s0 s) : Kept s0 (State.stRequest s port id off line wr data be epoch plq) := by
  unfold State.stRequest
  try dsimp only
  repeat' first
    | with_reducible assumption | with_reducible apply State.stEnqueue_kept | with_reducible apply Kept.foldl
    | (with_reducible intro x a hx; try dsimp only)

end Sys2Proof.Machine
end

