-- ==== Sys2Proof/Laws/Kept3.lean ====
section
/-!
SUPPORT. Sys2Proof/Laws/Kept3.lean: the operations that keep the queue, the form of memory and the legality of the AL state
(Sys2Proof/Laws/Kept.lean), one lemma each: Stash, StreamOps, PlyEvents, Gauge, Power, Voter, CastOn.
-/
namespace Sys2Proof.Machine

theorem State.stEcc_kept {s0 s : State} {half : Nat} {e : Ecc} (hs : Kept s0 s) : Kept s0 (State.stEcc s half e) := by
  unfold State.stEcc
  try dsimp only
  repeat' first
    | with_reducible assumption | with_reducible apply Kept.ite | with_reducible apply State.bump_kept
    | with_reducible apply State.raise_kept | with_reducible apply State.setFld_kept | with_reducible apply State.setReg_kept
    | (split <;> try dsimp only) | refine Kept.put ?_ (fun w => w) rfl rfl
    | refine Kept.put ?_ (fun w => poisonAfter_wf w _ _ _) rfl rfl
    | refine Kept.put ?_ (fun w => poisonAfter_wf (poisonAfter_wf w _ _ _) _ _ _) rfl rfl
    | refine Kept.put ?_ (fun w => clearHook_wf w _) rfl rfl | refine Kept.put ?_ (fun w => dropStash_wf w) rfl rfl
    | refine Kept.put ?_ (fun w => splitMem_wf w) rfl rfl | refine Kept.put ?_ (fun w => mergeMem_wf w) rfl rfl
    | refine Kept.put ?_ (fun w => cellsFilter_wf w _) rfl rfl | refine Kept.put ?_ (fun w => cellsPut_wf w _ _) rfl rfl
    | refine Kept.put ?_ (fun w => cellsPutAll_wf w _ _) rfl rfl

theorem State.stLand_kept {s0 s : State} {r : StReq} (hs : Kept s0 s) : Kept s0 (State.stLand s r) := by
  unfold State.stLand
  try dsimp only
  repeat' first
    | with_reducible assumption | with_reducible apply State.poke_kept | (split <;> try dsimp only)
    | refine Kept.put ?_ (fun w => w) rfl rfl | refine Kept.put ?_ (fun w => poisonAfter_wf w _ _ _) rfl rfl
    | refine Kept.put ?_ (fun w => poisonAfter_wf (poisonAfter_wf w _ _ _) _ _ _) rfl rfl
    | refine Kept.put ?_ (fun w => clearHook_wf w _) rfl rfl | refine Kept.put ?_ (fun w => dropStash_wf w) rfl rfl
    | refine Kept.put ?_ (fun w => splitMem_wf w) rfl rfl | refine Kept.put ?_ (fun w => mergeMem_wf w) rfl rfl
    | refine Kept.put ?_ (fun w => cellsFilter_wf w _) rfl rfl | refine Kept.put ?_ (fun w => cellsPut_wf w _ _) rfl rfl
    | refine Kept.put ?_ (fun w => cellsPutAll_wf w _ _) rfl rfl

theorem State.stFilter_kept {s0 s : State} {r : StReq} (hs : Kept s0 s) : Kept s0 (State.stFilter s r) := by
  unfold State.stFilter
  try dsimp only
  repeat' first | with_reducible assumption | with_reducible apply Kept.ite | with_reducible apply State.filterCheck_kept

theorem State.stConflict_kept {s0 s : State} {b : Nat} (hs : Kept s0 s) : Kept s0 (State.stConflict s b) := by
  unfold State.stConflict
  try dsimp only
  repeat' first
    | with_reducible assumption | with_reducible apply Kept.ite | with_reducible apply State.setPair_kept
    | with_reducible refine Kept.put ?_ (fun w => w) rfl rfl

theorem State.stGrant_kept {s0 s : State} {bank : Nat} {g : StReq} {eccLo eccHi : Ecc} (hs : Kept s0 s) : Kept s0 (State.stGrant
    s bank g eccLo eccHi) := by
  unfold State.stGrant
  try dsimp only
  repeat' first
    | with_reducible assumption | with_reducible apply State.stEcc_kept | with_reducible apply State.stFilter_kept
    | with_reducible apply State.stLand_kept | with_reducible apply State.setPair_kept
    | with_reducible apply State.stConflict_kept | with_reducible apply State.stAdmit_kept | with_reducible apply Kept.foldl
    | (with_reducible intro x a hx; try dsimp only) | (split <;> try dsimp only)
    | with_reducible refine Kept.put ?_ (fun w => w) rfl rfl

theorem State.setSpare_kept {s0 s : State} {slice pb v : Nat} (hs : Kept s0 s) : Kept s0 (State.setSpare s slice pb v) := by
  unfold State.setSpare
  try dsimp only
  repeat' first | with_reducible assumption | with_reducible apply Kept.ite | with_reducible apply State.setFld_kept

theorem State.nextBank_kept {s0 s : State} (hs : Kept s0 s) : Kept s0 (State.nextBank s) := by
  unfold State.nextBank
  try dsimp only
  repeat' first
    | with_reducible assumption | with_reducible apply Kept.ite | with_reducible apply State.bump_kept
    | with_reducible refine Kept.put ?_ (fun w => w) rfl rfl

theorem State.skipFailed_kept {s0 s : State} {a : Nat} (hs : Kept s0 s) : Kept s0 (State.skipFailed s a) := by
  induction a generalizing s with
  | zero =>
    unfold State.skipFailed
    try dsimp only
    repeat' first | with_reducible assumption | with_reducible apply Kept.ite | with_reducible apply State.nextBank_kept
  | succ k ih =>
    unfold State.skipFailed
    try dsimp only
    repeat' first
      | with_reducible apply ih | with_reducible assumption | with_reducible apply Kept.ite
      | with_reducible apply State.nextBank_kept

theorem State.showTest_kept {s0 s : State} {phase : Nat} (hs : Kept s0 s) : Kept s0 (State.showTest s phase) := by
  unfold State.showTest
  try dsimp only
  repeat' first | with_reducible assumption | with_reducible apply State.setFld_kept

theorem State.startSlot_kept {s0 s : State} (hs : Kept s0 s) : Kept s0 (State.startSlot s) := by
  unfold State.startSlot
  try dsimp only
  repeat' first
    | with_reducible assumption | with_reducible apply Kept.ite | with_reducible apply State.skipFailed_kept
    | with_reducible apply State.showTest_kept | with_reducible apply State.setSpare_kept
    | with_reducible apply State.raise_kept | with_reducible apply State.setFld_kept | with_reducible apply State.bump_kept
    | (split <;> try dsimp only) | with_reducible refine Kept.put ?_ (fun w => w) rfl rfl

theorem State.useLines_kept {s0 s : State} {bs : List Nat} {x : Nat} (hs : Kept s0 s) : Kept s0 (State.useLines s bs x) := by
  unfold State.useLines
  try dsimp only
  repeat' first
    | with_reducible assumption | with_reducible apply State.setFld_kept | with_reducible apply Kept.foldl
    | (with_reducible intro x a hx; try dsimp only)

theorem State.writeOne_kept {s0 s : State} {q : Nat} {young : Bool} {k pos : Nat} {w : Nat × List Byte} (hs : Kept s0 s) : Kept
    s0 (State.writeOne s q young k pos w) := by
  unfold State.writeOne
  try dsimp only
  repeat' first
    | with_reducible assumption | with_reducible apply State.setInst_kept | with_reducible apply State.plyWrite_kept
    | (split <;> try dsimp only)

theorem State.writeAll_kept {s0 s : State} {q : Nat} {young : Bool} {k pos : Nat} {ws : List (Nat × List Byte)} (hs : Kept s0 s)
    : KeptO s0 (State.writeAll s q young k pos ws) := by
  unfold State.writeAll
  try dsimp only
  repeat' first
    | with_reducible assumption | with_reducible apply State.writeOne_kept | with_reducible apply KeptO.some
    | with_reducible apply KeptO.none | with_reducible apply Kept.foldl | (with_reducible intro x a hx; try dsimp only)
    | (split <;> try dsimp only)

theorem State.specFull_kept {s0 s : State} {bs : List Nat} (hs : Kept s0 s) : Kept s0 (State.specFull s bs) := by
  unfold State.specFull
  try dsimp only
  repeat' first
    | with_reducible assumption | with_reducible apply State.bump_kept | with_reducible apply State.setFld_kept
    | with_reducible apply Kept.foldl | (with_reducible intro x a hx; try dsimp only)

theorem State.evFault_kept {s0 s : State} {q : Nat} {young : Bool} {k pos : Nat} {r : EV} (hs : Kept s0 s) : Kept s0
    (State.evFault s q young k pos r) := by
  unfold State.evFault
  try dsimp only
  repeat' first
    | with_reducible assumption | with_reducible apply State.raiseFault_kept | with_reducible apply State.updInst_kept
    | (split <;> try dsimp only)

theorem State.plainElem_kept {s0 s : State} {q : Nat} {young : Bool} {k pos e : Nat} {p : Inst} {bs : List Nat} (hs : Kept s0 s)
    : KeptL s0 (State.plainElem s q young k pos e p bs) := by
  unfold State.plainElem
  try dsimp only
  repeat' first
    | with_reducible assumption | with_reducible refine KeptO.eq (by assumption) ?_ | with_reducible apply State.updInst_kept
    | with_reducible apply State.evFault_kept | with_reducible apply State.writeAll_kept
    | with_reducible apply State.specFull_kept | with_reducible apply KeptL.mk | (split <;> try dsimp only)

theorem State.handSegment_kept {s0 s : State} {q : Nat} {young : Bool} {k pos cc : Nat} {bs : List Nat} (hs : Kept s0 s) : KeptL
    s0 (State.handSegment s q young k pos cc bs) := by
  unfold State.handSegment
  try dsimp only
  repeat' first
    | with_reducible assumption | with_reducible refine KeptO.eq (by assumption) ?_ | with_reducible apply State.evFault_kept
    | with_reducible apply State.writeAll_kept | with_reducible apply State.specFull_kept
    | with_reducible apply State.updInst_kept | with_reducible apply KeptL.mk | (split <;> try dsimp only)

theorem State.combElem_kept {s0 s : State} {q : Nat} {young : Bool} {k pos : Nat} {p : Inst} {bs : List Nat} (hs : Kept s0 s) :
    KeptL s0 (State.combElem s q young k pos p bs) := by
  unfold State.combElem
  try dsimp only
  repeat' first
    | with_reducible assumption | with_reducible refine KeptO.eq (by assumption) ?_
    | with_reducible apply State.handSegment_kept | with_reducible apply State.bump_kept
    | with_reducible apply State.evFault_kept | with_reducible apply State.writeAll_kept
    | with_reducible apply State.specFull_kept | with_reducible apply State.updInst_kept | with_reducible apply KeptL.mk
    | with_reducible apply Kept.foldl | (with_reducible intro x a hx; try dsimp only) | (split <;> try dsimp only)
    | with_reducible apply KeptL.fst

theorem State.histFinish_kept {s0 s : State} {q : Nat} {young : Bool} {k pos : Nat} {p : Inst} {bs : List Nat} (hs : Kept s0 s)
    : Kept s0 (State.histFinish s q young k pos p bs) := by
  unfold State.histFinish
  try dsimp only
  repeat' first
    | with_reducible assumption | with_reducible refine KeptO.eq (by assumption) ?_ | with_reducible apply State.evFault_kept
    | with_reducible apply State.writeAll_kept | with_reducible apply State.specFull_kept
    | with_reducible apply State.updInst_kept | (split <;> try dsimp only)

theorem State.markEvent_kept {s0 s : State} {q : Nat} {p : Inst} {k e w : Nat} (hs : Kept s0 s) : Kept2 s0 (State.markEvent s q
    p k e w) := by
  unfold State.markEvent
  try dsimp only
  repeat' first
    | with_reducible assumption | with_reducible apply State.bump_kept | with_reducible apply State.present_kept
    | with_reducible apply Kept2.mk | (split <;> try dsimp only) | with_reducible apply Kept2.snd

theorem State.markElem_kept {s0 s : State} {q : Nat} {young : Bool} {k pos e : Nat} {p : Inst} (hs : Kept s0 s) : KeptL s0
    (State.markElem s q young k pos e p) := by
  unfold State.markElem
  try dsimp only
  repeat' first
    | with_reducible assumption | with_reducible apply State.evFault_kept | with_reducible apply State.updInst_kept
    | with_reducible apply State.markEvent_kept | with_reducible apply KeptL.mk | (split <;> try dsimp only)
    | with_reducible apply Kept2.snd

theorem State.noteProducers_kept {s0 s : State} {q : Nat} {young : Bool} {k pos : Nat} {p : Inst} {fl : Nat} {l : List Nat}
    {r : Bool × List Nat} (hs : Kept s0 s) : KeptL s0 (State.noteProducers s q young k pos p fl l r) := by
  unfold State.noteProducers
  repeat' first
    | with_reducible assumption | (split <;> try dsimp only) | exact KeptL.mk hs | exact KeptL.mk (State.updInst_kept hs)

theorem State.oneElem_kept {s0 s : State} {q : Nat} {young : Bool} {k pos : Nat} {p : Inst} {bs : List Nat} (hs : Kept s0 s) :
    KeptL s0 (State.oneElem s q young k pos p bs) := by
  unfold State.oneElem
  try dsimp only
  repeat' first
    | with_reducible assumption | with_reducible apply State.combElem_kept
    | with_reducible apply State.markElem_kept | with_reducible apply State.plainElem_kept | with_reducible apply KeptL.mk
    | (split <;> try dsimp only) | with_reducible apply KeptL.fst

theorem State.anyElem_kept {s0 s : State} {q : Nat} {young : Bool} {k pos : Nat} {p : Inst} {bs : List Nat} (hs : Kept s0 s) :
    KeptL s0 (State.anyElem s q young k pos p bs) := by
  unfold State.anyElem
  try dsimp only
  repeat' first
    | with_reducible assumption | with_reducible apply Kept.ite | with_reducible apply State.bump_kept
    | with_reducible apply State.bumpStale_kept | with_reducible apply State.oneElem_kept | with_reducible apply State.evFault_kept
    | with_reducible apply State.noteProducers_kept | with_reducible apply KeptL.mk
    | with_reducible apply Kept.foldl | (with_reducible intro x a hx; try dsimp only) | (split <;> try dsimp only)
    | with_reducible apply KeptL.fst

theorem State.elemLoop_kept {s0 s : State} {n q : Nat} {young : Bool} {k pos grp : Nat} {seen : List Nat} {a : Nat} (hs : Kept
    s0 s) : Kept s0 (State.elemLoop s n q young k pos grp seen a) := by
  induction a generalizing s seen grp with
  | zero =>
    unfold State.elemLoop
    try dsimp only
    repeat' first
      | with_reducible assumption | with_reducible apply Kept.ite | with_reducible apply State.useLines_kept
      | with_reducible apply State.anyElem_kept | (split <;> try dsimp only) | with_reducible apply KeptL.fst
  | succ k ih =>
    unfold State.elemLoop
    try dsimp only
    repeat' first
      | with_reducible apply ih | with_reducible assumption | with_reducible apply Kept.ite
      | with_reducible apply State.useLines_kept | with_reducible apply State.anyElem_kept | (split <;> try dsimp only)
      | with_reducible apply KeptL.fst

theorem State.dataStep_kept {s0 s : State} {opc : Nat} {a : SI} (hs : Kept s0 s) : Kept s0 (State.dataStep s opc a) := by
  unfold State.dataStep
  try dsimp only
  repeat' first
    | with_reducible assumption | with_reducible apply Kept.ite | with_reducible apply State.raiseFault_kept
    | with_reducible apply State.updInst_kept | with_reducible apply State.elemLoop_kept
    | with_reducible apply State.histFinish_kept | (split <;> try dsimp only)

theorem State.ctlStep_kept {s0 s : State} {opc : Nat} {a : SI} {f : State → Nat → Inst → State} (hs : Kept s0 s) (hf : ∀ x y0
    y1, Kept s0 x → Kept s0 (f x y0 y1)) : Kept s0 (State.ctlStep s opc a f) := by
  unfold State.ctlStep
  try dsimp only
  repeat' first
    | with_reducible assumption | with_reducible apply Kept.ite | with_reducible apply State.raiseFault_kept
    | with_reducible apply State.updInst_kept | with_reducible apply hf | (split <;> try dsimp only)

theorem State.resolveLife_kept {s0 s : State} {q : Nat} {young : Bool} {k i : Nat} {commit : Bool} {p : Inst} (hs : Kept s0 s) :
    Kept s0 (State.resolveLife s q young k i commit p) := by
  unfold State.resolveLife
  try dsimp only
  repeat' first
    | with_reducible assumption | with_reducible apply Kept.ite | with_reducible apply State.commitAt_kept
    | with_reducible apply State.updInst_kept | with_reducible apply State.frogAt_kept

theorem State.brcStep_kept {s0 s : State} {a : SI} {n : Nat} {p : Inst} (hs : Kept s0 s) : Kept s0 (State.brcStep s a n p) := by
  unfold State.brcStep
  try dsimp only
  repeat' first
    | with_reducible assumption | with_reducible apply Kept.ite | with_reducible apply State.openLife_kept
    | with_reducible apply State.updInst_kept | with_reducible apply State.evFault_kept | (split <;> try dsimp only)

theorem State.branchResolve_kept {s0 s : State} {q : Nat} {young : Bool} (hs : Kept s0 s) : Kept s0 (State.branchResolve s q
    young) := by
  unfold State.branchResolve
  try dsimp only
  repeat' first
    | with_reducible assumption | with_reducible apply Kept.ite | with_reducible apply State.commitAt_kept
    | with_reducible apply State.updInst_kept | with_reducible apply State.frogAt_kept
    | with_reducible apply State.evFault_kept | (split <;> try dsimp only)

theorem State.ctlWrite_kept {s0 s : State} {n : Nat} {a : SI} {p : Inst} {v : Nat} (hs : Kept s0 s) : Kept s0 (State.ctlWrite s
    n a p v) := by
  unfold State.ctlWrite
  try dsimp only
  repeat' first
    | with_reducible assumption | with_reducible refine KeptO.eq (by assumption) ?_ | with_reducible apply State.evFault_kept
    | with_reducible apply State.writeAll_kept | with_reducible apply State.specFull_kept
    | with_reducible apply State.updInst_kept | (split <;> try dsimp only)

theorem State.acquire_kept {s0 s : State} {a : SI} {p : Inst} (hs : Kept s0 s) : Kept s0 (State.acquire s a p) := by
  unfold State.acquire
  try dsimp only
  repeat' first
    | with_reducible assumption | with_reducible apply Kept.ite | with_reducible apply State.updInst_kept
    | with_reducible apply State.evFault_kept | (split <;> try dsimp only)

theorem State.wrow_kept {s0 s : State} {a : SI} {n : Nat} {p : Inst} (hs : Kept s0 s) : Kept s0 (State.wrow s a n p) := by
  unfold State.wrow
  try dsimp only
  repeat' first
    | with_reducible assumption | with_reducible refine KeptO2.eq (by assumption) ?_ | with_reducible apply Kept.ite
    | with_reducible apply State.rowStatus_kept | with_reducible apply State.ctlWrite_kept | (split <;> try dsimp only)

theorem State.plyStart_kept {s0 s : State} {n : Nat} (hs : Kept s0 s) : Kept s0 (State.plyStart s n) := by
  unfold State.plyStart
  try dsimp only
  repeat' first
    | with_reducible assumption | with_reducible refine Kept2.eq (by assumption) ?_ | with_reducible apply Kept.ite
    | with_reducible apply State.updInst_kept | with_reducible apply State.bindBeds_kept
    | with_reducible apply State.setBset_kept | with_reducible apply State.setPlq_kept
    | with_reducible apply State.admitPly_kept | with_reducible apply State.setInst_kept
    | with_reducible apply State.postRefused_kept | (split <;> try dsimp only)

theorem State.plyFaulted_kept {s0 s : State} {q : Nat} {young : Bool} (hs : Kept s0 s) : Kept s0 (State.plyFaulted s q young) := by
  unfold State.plyFaulted
  try dsimp only
  repeat' first
    | with_reducible assumption | with_reducible apply Kept.ite | with_reducible apply State.updInst_kept
    | with_reducible apply State.bump_kept | with_reducible apply State.post_kept | with_reducible apply State.setBset_kept
    | with_reducible apply State.resumeSet_kept | (split <;> try dsimp only)

theorem State.resumeInst_kept {s0 s : State} {q : Nat} {young : Bool} (hs : Kept s0 s) : Kept s0 (State.resumeInst s q young) := by
  unfold State.resumeInst
  try dsimp only
  repeat' first
    | with_reducible assumption | with_reducible apply Kept.ite | with_reducible apply State.updInst_kept
    | with_reducible apply State.bindBeds_kept | with_reducible apply State.suspendSet_kept
    | with_reducible apply State.setBset_kept | (split <;> try dsimp only)

theorem State.resume_kept {s0 s : State} {q : Nat} (hs : Kept s0 s) : Kept s0 (State.resume s q) := by
  unfold State.resume
  try dsimp only
  repeat' first | with_reducible assumption | with_reducible apply State.resumeInst_kept

theorem State.abortInst_kept {s0 s : State} {q : Nat} {young : Bool} (hs : Kept s0 s) : Kept s0 (State.abortInst s q young) := by
  unfold State.abortInst
  try dsimp only
  repeat' first
    | with_reducible assumption | with_reducible apply Kept.ite | with_reducible apply State.xfrog_kept
    | with_reducible apply State.endInst_kept | with_reducible apply State.post_kept | (split <;> try dsimp only)

theorem State.abort_kept {s0 s : State} {q : Nat} (hs : Kept s0 s) : Kept s0 (State.abort s q) := by
  unfold State.abort
  try dsimp only
  repeat' first | with_reducible assumption | with_reducible apply State.abortInst_kept

theorem State.popCpl_kept {s0 s : State} {q : Nat} (hs : Kept s0 s) : Kept s0 (State.popCpl s q) := by
  unfold State.popCpl
  try dsimp only
  repeat' first | with_reducible assumption | with_reducible apply State.pinTry_kept | with_reducible apply State.setPlq_kept

theorem State.plyWatchdog_kept {s0 s : State} {q : Nat} {young : Bool} {k : Nat} (hs : Kept s0 s) : Kept s0 (State.plyWatchdog s
    q young k) := by
  unfold State.plyWatchdog
  try dsimp only
  repeat' first
    | with_reducible assumption | with_reducible apply Kept.ite | with_reducible apply State.raiseFault_kept
    | with_reducible apply State.expiry_kept | (split <;> try dsimp only)

theorem State.gaugeSwap_kept {s0 s : State} {n lpos : Nat} (hs : Kept s0 s) : Kept s0 (State.gaugeSwap s n lpos) := by
  unfold State.gaugeSwap
  try dsimp only
  repeat' first
    | with_reducible assumption | with_reducible apply Kept.ite | with_reducible apply State.raiseEpoch_kept
    | with_reducible apply State.setFld_kept | with_reducible apply State.setBed_kept
    | with_reducible apply State.bindBeds_kept | with_reducible apply Kept.foldl | (split <;> try dsimp only)

theorem State.queueEntry_kept {s0 s : State} {q e : Nat} (hs : Kept s0 s) : Kept s0 (State.queueEntry s q e) := by
  unfold State.queueEntry
  try dsimp only
  repeat' first
    | with_reducible assumption | with_reducible apply Kept.ite | with_reducible apply State.setFld_kept
    | with_reducible apply State.raiseEpoch_kept | with_reducible apply State.setPlq_kept

theorem State.queuesSettled_kept {s0 s : State} (hs : Kept s0 s) : Kept s0 (State.queuesSettled s) := by
  unfold State.queuesSettled
  try dsimp only
  repeat' first | with_reducible assumption | with_reducible apply Kept.ite | with_reducible apply State.finish_kept

theorem State.endQBindoff_kept {s0 s : State} {q : Nat} (hs : Kept s0 s) : Kept s0 (State.endQBindoff s q) := by
  unfold State.endQBindoff
  try dsimp only
  repeat' first
    | with_reducible assumption | with_reducible apply Kept.ite | with_reducible apply State.setFld_kept
    | with_reducible apply State.raiseEpoch_kept | with_reducible apply State.setPlq_kept
    | with_reducible apply State.queuesSettled_kept | with_reducible apply State.queueEntry_kept | (split <;> try dsimp only)

theorem State.bindoffCut_kept {s0 s : State} {q : Nat} (hs : Kept s0 s) : Kept s0 (State.bindoffCut s q) := by
  unfold State.bindoffCut
  try dsimp only
  repeat' first
    | with_reducible assumption | with_reducible apply Kept.ite | with_reducible apply State.expiry_kept
    | with_reducible apply State.bump_kept | with_reducible apply State.cutInst_kept | with_reducible apply State.xfrog_kept

theorem State.retune_kept {s0 s : State} (hs : Kept s0 s) : Kept s0 (State.retune s) := by
  unfold State.retune
  try dsimp only
  repeat' first
    | with_reducible assumption | with_reducible apply Kept.ite | with_reducible apply State.setFld_kept
    | with_reducible apply State.emergency_kept | with_reducible refine Kept.put ?_ (fun w => w) rfl rfl

theorem State.capLower_kept {s0 s : State} (hs : Kept s0 s) : Kept s0 (State.capLower s) := by
  unfold State.capLower
  try dsimp only
  repeat' first
    | with_reducible assumption | with_reducible apply Kept.ite | with_reducible apply State.bump_kept
    | with_reducible apply State.emergency_kept | with_reducible apply State.setFld_kept | (split <;> try dsimp only)
    | with_reducible refine Kept.put ?_ (fun w => w) rfl rfl

theorem State.capRaise_kept {s0 s : State} (hs : Kept s0 s) : Kept s0 (State.capRaise s) := by
  unfold State.capRaise
  try dsimp only
  repeat' first
    | with_reducible assumption | (split <;> try dsimp only) | with_reducible refine Kept.put ?_ (fun w => w) rfl rfl

theorem State.measure_kept {s0 s : State} {b : Nat} {lows : List Nat} (hs : Kept s0 s) : Kept s0 (State.measure s b lows) := by
  unfold State.measure
  refine KeptL.fst (KeptL.foldl (KeptL.mk hs) fun x a hx => ?_)
  exact KeptL.mk (State.setFld_kept (State.setFld_kept (KeptL.fst hx)))

theorem State.markBad_kept {s0 s : State} {kind u e : Nat} (hs : Kept s0 s) : Kept s0 (State.markBad s kind u e) := by
  unfold State.markBad
  try dsimp only
  repeat' first | with_reducible assumption | with_reducible refine Kept.put ?_ (fun w => w) rfl rfl

theorem State.needleFail_kept {s0 s : State} {b e : Nat} (hs : Kept s0 s) : KeptL s0 (State.needleFail s b e) := by
  unfold State.needleFail
  try dsimp only
  repeat' first
    | with_reducible assumption | with_reducible apply State.markBad_kept | with_reducible apply State.setFld_kept
    | with_reducible apply KeptL.mk | (split <;> try dsimp only)

theorem State.needleRepair_kept {s0 s : State} {b : Nat} {bad : List Nat} (hs : Kept s0 s) :
    KeptL s0 (State.needleRepair s b bad) := by
  unfold State.needleRepair
  refine KeptL.foldl (KeptL.mk hs) fun x a hx => ?_
  exact KeptL.mk (KeptL.fst (State.needleFail_kept (KeptL.fst hx)))

theorem State.powerBed_kept {s0 s : State} {b : Nat} (hs : Kept s0 s) : Kept s0 (State.powerBed s b) := by
  unfold State.powerBed
  try dsimp only
  repeat' first
    | with_reducible assumption | with_reducible apply Kept.ite | with_reducible apply State.setBed_kept
    | with_reducible apply State.setFld_kept

theorem State.joinSet_kept {s0 s : State} {b n : Nat} (hs : Kept s0 s) : Kept s0 (State.joinSet s b n) := by
  unfold State.joinSet
  try dsimp only
  repeat' first | with_reducible assumption | with_reducible apply State.setFld_kept | with_reducible apply State.powerBed_kept

theorem State.movePos_kept {s0 s : State} {n pos : Nat} {nb : Option Nat} (hs : Kept s0 s) : Kept s0 (State.movePos s n pos nb) := by
  unfold State.movePos
  try dsimp only
  repeat' first
    | with_reducible assumption | with_reducible apply State.migrate_kept | with_reducible apply State.setFld_kept
    | (split <;> try dsimp only)

theorem State.beginMeasure_kept {s0 s : State} {b : Nat} (hs : Kept s0 s) : Kept s0 (State.beginMeasure s b) := by
  unfold State.beginMeasure
  try dsimp only
  repeat' first
    | with_reducible assumption | with_reducible apply State.setFld_kept | with_reducible apply State.powerBed_kept
    | with_reducible apply State.bump_kept | (split <;> try dsimp only)
    | with_reducible refine Kept.put ?_ (fun w => w) rfl rfl

theorem State.tryMeasure_kept {s0 s : State} {b : Nat} (hs : Kept s0 s) : Kept s0 (State.tryMeasure s b) := by
  unfold State.tryMeasure
  try dsimp only
  repeat' first
    | with_reducible assumption | with_reducible apply Kept.ite | with_reducible apply State.beginMeasure_kept
    | with_reducible apply State.gaugeSwap_kept | with_reducible apply State.movePos_kept | (split <;> try dsimp only)
    | with_reducible refine Kept.put ?_ (fun w => w) rfl rfl

theorem State.markEarly_kept {s0 s : State} {bs : List Nat} (hs : Kept s0 s) : Kept s0 (State.markEarly s bs) := by
  unfold State.markEarly
  try dsimp only
  repeat' first | with_reducible assumption | with_reducible refine Kept.put ?_ (fun w => w) rfl rfl

theorem State.gaugeNext_kept {s0 s : State} {rings : List (Nat × Nat)} (hs : Kept s0 s) : Kept s0 (State.gaugeNext s rings) := by
  unfold State.gaugeNext
  try dsimp only
  repeat' first
    | with_reducible assumption | with_reducible apply Kept.ite | with_reducible apply State.markEarly_kept
    | with_reducible apply State.beginMeasure_kept | with_reducible apply State.tryMeasure_kept | (split <;> try dsimp only)
    | with_reducible refine Kept.put ?_ (fun w => w) rfl rfl

theorem State.bedFit_kept {s0 s : State} {b : Nat} (hs : Kept s0 s) : Kept s0 (State.bedFit s b) := by
  unfold State.bedFit
  try dsimp only
  repeat' first
    | with_reducible assumption | with_reducible apply Kept.ite | with_reducible apply State.joinSet_kept
    | with_reducible apply State.setFld_kept | with_reducible apply State.movePos_kept | with_reducible apply State.setBed_kept
    | (split <;> try dsimp only) | with_reducible refine Kept.put ?_ (fun w => w) rfl rfl

theorem State.bedUnfit_kept {s0 s : State} {b : Nat} (hs : Kept s0 s) : Kept s0 (State.bedUnfit s b) := by
  unfold State.bedUnfit
  try dsimp only
  repeat' first
    | with_reducible assumption | with_reducible apply Kept.ite | with_reducible apply State.gaugeRetire_kept
    | with_reducible apply State.setBed_kept | with_reducible apply State.takeSpare_kept | (split <;> try dsimp only)
    | with_reducible refine Kept.put ?_ (fun w => w) rfl rfl

theorem State.bedVerdict_kept {s0 s : State} {b : Nat} {needles : List Nat} {f : State → State} (hs : Kept s0 s) (hf : ∀ x, Kept
    s0 x → Kept s0 (f x)) : Kept s0 (State.bedVerdict s b needles f) := by
  unfold State.bedVerdict
  try dsimp only
  repeat' first
    | with_reducible assumption | with_reducible apply Kept.ite | with_reducible apply State.needleRepair_kept
    | with_reducible apply State.bedUnfit_kept | with_reducible apply hf | with_reducible apply KeptL.fst

theorem State.gaugeEnd_kept {s0 s : State} {lows : List Nat} {tm : Int} {needles : List Nat} {ring : Nat} (hs : Kept s0 s) :
    Kept s0 (State.gaugeEnd s lows tm needles ring) := by
  unfold State.gaugeEnd
  try dsimp only
  repeat' first
    | with_reducible assumption | with_reducible apply Kept.ite | with_reducible apply State.bump_kept
    | with_reducible apply State.setFld_kept | with_reducible apply State.measure_kept
    | with_reducible apply State.bedVerdict_kept | with_reducible apply State.bedFit_kept
    | with_reducible apply State.finish_kept | with_reducible apply State.retune_kept
    | (with_reducible intro x hx; try dsimp only) | (split <;> try dsimp only)
    | with_reducible refine Kept.put ?_ (fun w => w) rfl rfl

theorem State.planBeds_kept {s0 s : State} {idx sub : Nat} {bs : List Nat} (hs : Kept s0 s) : Kept s0 (State.planBeds s idx sub
    bs) := by
  unfold State.planBeds
  try dsimp only
  repeat' first
    | with_reducible assumption | with_reducible apply State.setOd_kept
    | with_reducible refine Kept.put ?_ (fun w => w) rfl rfl

theorem State.powerBeds_kept {s0 s : State} (hs : Kept s0 s) : Kept s0 (State.powerBeds s) := by
  unfold State.powerBeds
  try dsimp only
  repeat' first
    | with_reducible assumption | with_reducible apply Kept.ite | with_reducible apply State.setFld_kept
    | with_reducible apply State.powerBed_kept | with_reducible apply Kept.foldl
    | (with_reducible intro x a hx; try dsimp only)

theorem State.gateBeds_kept {s0 s : State} (hs : Kept s0 s) : Kept s0 (State.gateBeds s) := by
  unfold State.gateBeds
  try dsimp only
  repeat' first
    | with_reducible assumption | with_reducible apply State.setBed_kept | with_reducible apply State.setFld_kept
    | with_reducible apply Kept.foldl | (with_reducible intro x a hx; try dsimp only)

theorem State.mapEntry_kept {s0 s : State} {b e : Nat} (hs : Kept s0 s) : Kept s0 (State.mapEntry s b e) := by
  unfold State.mapEntry
  try dsimp only
  repeat' first
    | with_reducible assumption | with_reducible apply Kept.ite | with_reducible apply State.setBed_kept
    | with_reducible apply State.setFld_kept | with_reducible apply State.powerBed_kept

theorem State.mapSettled_kept {s0 s : State} (hs : Kept s0 s) : Kept s0 (State.mapSettled s) := by
  unfold State.mapSettled
  try dsimp only
  repeat' first
    | with_reducible assumption | with_reducible apply Kept.ite | with_reducible apply State.mapEntry_kept
    | with_reducible apply State.finish_kept | with_reducible apply Kept.foldl | (with_reducible intro x a hx; try dsimp only)
    | (split <;> try dsimp only)

theorem State.linksOff_kept {s0 s : State} (hs : Kept s0 s) : Kept s0 (State.linksOff s) := by
  unfold State.linksOff
  try dsimp only
  repeat' first
    | with_reducible assumption | with_reducible apply State.setFld_kept | with_reducible apply Kept.foldl
    | (with_reducible intro x a hx; try dsimp only)

theorem State.dropForStandby_kept {s0 s : State} (hs : Kept s0 s) : Kept s0 (State.dropForStandby s) := by
  unfold State.dropForStandby
  try dsimp only
  repeat' first
    | with_reducible assumption | refine Kept.put ?_ (fun w => w) rfl rfl
    | refine Kept.put ?_ (fun w => poisonAfter_wf w _ _ _) rfl rfl
    | refine Kept.put ?_ (fun w => poisonAfter_wf (poisonAfter_wf w _ _ _) _ _ _) rfl rfl
    | refine Kept.put ?_ (fun w => clearHook_wf w _) rfl rfl | refine Kept.put ?_ (fun w => dropStash_wf w) rfl rfl
    | refine Kept.put ?_ (fun w => splitMem_wf w) rfl rfl | refine Kept.put ?_ (fun w => mergeMem_wf w) rfl rfl
    | refine Kept.put ?_ (fun w => cellsFilter_wf w _) rfl rfl | refine Kept.put ?_ (fun w => cellsPut_wf w _ _) rfl rfl
    | refine Kept.put ?_ (fun w => cellsPutAll_wf w _ _) rfl rfl

theorem State.enterStandby_kept {s0 s : State} (hs : Kept s0 s) : Kept s0 (State.enterStandby s) := by
  unfold State.enterStandby
  try dsimp only
  repeat' first
    | with_reducible assumption | with_reducible apply Kept.ite | with_reducible apply State.raise_kept
    | with_reducible apply State.dropForStandby_kept | with_reducible apply State.setFld_kept
    | with_reducible apply State.linksOff_kept | with_reducible apply State.gateBeds_kept
    | with_reducible apply State.disarm_kept

theorem State.leaveStandby_kept {s0 s : State} (hs : Kept s0 s) : Kept s0 (State.leaveStandby s) := by
  unfold State.leaveStandby
  try dsimp only
  repeat' first
    | with_reducible assumption | with_reducible apply Kept.ite | with_reducible apply State.setFld_kept
    | with_reducible refine Kept.put ?_ (fun w => w) rfl rfl

theorem State.gaugeOne_kept {s0 s : State} {m : BedMeas} (hs : Kept s0 s) : Kept s0 (State.gaugeOne s m) := by
  unfold State.gaugeOne
  dsimp only
  refine State.bedVerdict_kept (Kept.put (State.bump_kept (State.setFld_kept (State.measure_kept hs))) (fun w => w) rfl rfl) ?_
  exact fun x h => h

theorem State.gaugeDomains_kept {s0 s : State} {stash extra : Nat} {slack : List (Nat × Nat)} (hs : Kept s0 s) : Kept s0
    (State.gaugeDomains s stash extra slack) := by
  unfold State.gaugeDomains
  try dsimp only
  repeat' first
    | with_reducible assumption | with_reducible apply Kept.ite | with_reducible apply State.setFld_kept
    | with_reducible apply State.retune_kept | with_reducible apply State.raise_kept | with_reducible apply Kept.foldl
    | (with_reducible intro x a hx; try dsimp only) | with_reducible refine Kept.put ?_ (fun w => w) rfl rfl

theorem State.trip_kept {s0 s : State} (hs : Kept s0 s) : Kept s0 (State.trip s) := by
  unfold State.trip
  try dsimp only
  repeat' first
    | with_reducible assumption | with_reducible apply State.setFld_kept | with_reducible apply State.send_kept
    | with_reducible apply State.driveSafe_kept | with_reducible apply State.reinit_kept
    | with_reducible apply State.disarm_kept | with_reducible refine Kept.put ?_ (fun w => w) rfl rfl

theorem State.readJunction_kept {s0 s : State} {d : Nat} {t : Int} (hs : Kept s0 s) : Kept s0 (State.readJunction s d t) := by
  unfold State.readJunction
  try dsimp only
  repeat' first
    | with_reducible assumption | with_reducible apply Kept.ite | with_reducible apply State.setFld_kept
    | with_reducible apply State.markEarly_kept | with_reducible refine Kept.put ?_ (fun w => w) rfl rfl

theorem State.bedTimeout_kept {s0 s : State} {b : Nat} (hs : Kept s0 s) : Kept s0 (State.bedTimeout s b) := by
  unfold State.bedTimeout
  try dsimp only
  repeat' first
    | with_reducible assumption | with_reducible apply Kept.ite | with_reducible apply State.expiry_kept
    | with_reducible apply State.bump_kept | with_reducible apply State.raise_kept | with_reducible apply State.setBed_kept
    | with_reducible apply State.timeoutMove_kept | with_reducible refine Kept.put ?_ (fun w => w) rfl rfl

theorem State.bedReset_kept {s0 s : State} {b : Nat} (hs : Kept s0 s) : Kept s0 (State.bedReset s b) := by
  unfold State.bedReset
  try dsimp only
  repeat' first
    | with_reducible assumption | with_reducible apply Kept.ite | with_reducible apply State.setBed_kept
    | with_reducible apply State.migrateHw_kept | with_reducible apply State.resetBed_kept

theorem State.recordStitch_kept {s0 s : State} {info addr : Nat} (hs : Kept s0 s) : Kept s0 (State.recordStitch s info addr) := by
  unfold State.recordStitch
  try dsimp only
  repeat' first
    | with_reducible assumption | with_reducible apply Kept.ite | with_reducible apply State.emergency_kept
    | with_reducible apply State.setFld_kept | with_reducible refine Kept.put ?_ (fun w => w) rfl rfl

theorem State.startResync_kept {s0 s : State} {core : Nat} (hs : Kept s0 s) : Kept s0 (State.startResync s core) := by
  unfold State.startResync
  try dsimp only
  repeat' first
    | with_reducible assumption | with_reducible apply State.setFld_kept
    | with_reducible refine Kept.put ?_ (fun w => w) rfl rfl

theorem State.selfTest_kept {s0 s : State} {fail : Option Nat} (hs : Kept s0 s) : Kept s0 (State.selfTest s fail) := by
  unfold State.selfTest
  try dsimp only
  repeat' first
    | with_reducible assumption | with_reducible apply Kept.ite | with_reducible apply State.setFld_kept
    | with_reducible apply State.disarm_kept | (split <;> try dsimp only)

theorem State.resyncHeld_kept {s0 s : State} (hs : Kept s0 s) : Kept s0 (State.resyncHeld s) := by
  unfold State.resyncHeld
  try dsimp only
  repeat' first | with_reducible assumption | with_reducible apply Kept.ite | with_reducible apply State.startResync_kept

theorem State.checkStop_kept {s0 s : State} {n pos : Nat} (hs : Kept s0 s) : Kept s0 (State.checkStop s n pos) := by
  unfold State.checkStop
  try dsimp only
  repeat' first
    | with_reducible assumption | with_reducible apply State.raiseEpoch_kept | with_reducible apply State.xfrog_kept
    | with_reducible apply State.updInst_kept | with_reducible apply Kept.foldl | (with_reducible intro x a hx; try dsimp only)

theorem State.swapPos_kept {s0 s : State} {a b : Nat} (hs : Kept s0 s) : Kept s0 (State.swapPos s a b) := by
  unfold State.swapPos
  try dsimp only
  repeat' first | with_reducible assumption | with_reducible apply State.setFld_kept

theorem State.swapStandby_kept {s0 s : State} {b sb : Nat} (hs : Kept s0 s) : Kept s0 (State.swapStandby s b sb) := by
  unfold State.swapStandby
  try dsimp only
  repeat' first | with_reducible assumption | with_reducible apply State.setFld_kept

theorem State.checkRetire_kept {s0 s : State} {n b : Nat} (hs : Kept s0 s) : Kept s0 (State.checkRetire s n b) := by
  unfold State.checkRetire
  try dsimp only
  repeat' first
    | with_reducible assumption | with_reducible apply State.takeSpare_kept | with_reducible apply State.bump_kept
    | with_reducible apply State.retireBed_kept

theorem State.checkedMismatch_kept {s0 s : State} {q : Nat} {young : Bool} {k pos elem : Nat} (hs : Kept s0 s) : Kept s0
    (State.checkedMismatch s q young k pos elem) := by
  unfold State.checkedMismatch
  try dsimp only
  repeat' first
    | with_reducible assumption | with_reducible apply Kept.ite | with_reducible apply State.raise_kept
    | with_reducible apply State.bump_kept | with_reducible apply State.recordStitch_kept
    | with_reducible apply State.setBed_kept | with_reducible apply State.checkStop_kept
    | with_reducible apply State.checkRetire_kept | with_reducible apply State.bindBeds_kept
    | with_reducible apply State.raiseFault_kept | with_reducible apply State.swapPos_kept
    | with_reducible apply State.swapStandby_kept | with_reducible apply Kept.foldl
    | (with_reducible intro x a hx; try dsimp only) | (split <;> try dsimp only)

theorem State.armReq_kept {s0 s : State} (hs : Kept s0 s) : Kept s0 (State.armReq s) := by
  unfold State.armReq
  try dsimp only
  repeat' first | with_reducible assumption | with_reducible apply Kept.ite | with_reducible apply State.setFld_kept

theorem State.castFlag_kept {s0 s : State} {k : Nat} (hs : Kept s0 s) : Kept s0 (State.castFlag s k) := by
  unfold State.castFlag
  try dsimp only
  repeat' first | with_reducible assumption | with_reducible refine Kept.put ?_ (fun w => w) rfl rfl

theorem State.stageEnd_kept {s0 s : State} {n : Nat} (hs : Kept s0 s) : Kept s0 (State.stageEnd s n) := by
  unfold State.stageEnd
  try dsimp only
  repeat' first | with_reducible assumption | with_reducible apply State.setFld_kept

theorem State.goSafe_kept {s0 s : State} {code : Nat} (hs : Kept s0 s) : Kept s0 (State.goSafe s code) := by
  unfold State.goSafe
  try dsimp only
  repeat' first
    | with_reducible assumption | with_reducible apply State.driveSafe_kept | with_reducible apply State.setFld_kept
    | with_reducible apply State.disarm_kept

end Sys2Proof.Machine
end

