-- ==== Sys2Proof/Laws/Kept4.lean ====
section
/-!
SUPPORT. Sys2Proof/Laws/Kept4.lean: the operations that keep the queue, the form of memory and the legality of the AL state
(Sys2Proof/Laws/Kept.lean), one lemma each: CastOn, Ddr, Ingest, RegRead, Counters, OdRead, Web, RegWrite.
-/
namespace Sys2Proof.Machine

theorem State.restartFailed_kept {s0 s : State} (hs : Kept s0 s) : Kept s0 (State.restartFailed s) := by
  unfold State.restartFailed
  try dsimp only
  repeat' first | with_reducible assumption | with_reducible apply State.systemReset_kept

theorem State.tryFw_kept {s0 s : State} {f : FlashHdr} (hs : Kept s0 s) : Kept2 s0 (State.tryFw s f) := by
  unfold State.tryFw
  try dsimp only
  repeat' first
    | with_reducible assumption | with_reducible refine Kept2.eq (by assumption) ?_
    | with_reducible apply State.verifyCount_kept | with_reducible apply State.bump_kept | with_reducible apply Kept2.mk
    | (split <;> try dsimp only)

theorem State.tryHeaders_kept {s0 s : State} {a : List (Nat × FlashHdr)} (hs : Kept s0 s) : Kept2 s0 (State.tryHeaders s a) := by
  induction a generalizing s with
  | nil =>
    unfold State.tryHeaders
    try dsimp only
    repeat' first
      | with_reducible assumption | with_reducible refine Kept2.eq (by assumption) ?_ | with_reducible apply State.tryFw_kept
      | with_reducible apply Kept2.mk | (split <;> try dsimp only) | with_reducible apply Kept2.snd
  | cons e l ih =>
    unfold State.tryHeaders
    try dsimp only
    repeat' first
      | with_reducible apply ih | with_reducible assumption | with_reducible refine Kept2.eq (by assumption) ?_
      | with_reducible apply State.tryFw_kept | with_reducible apply Kept2.mk | (split <;> try dsimp only)
      | with_reducible apply Kept2.snd

theorem State.takeFw_kept {s0 s : State} {first : Bool} {h : Nat} {f : FlashHdr} {c : Container} (hs : Kept s0 s) : Kept s0
    (State.takeFw s first h f c) := by
  unfold State.takeFw
  try dsimp only
  repeat' first
    | with_reducible assumption | with_reducible apply Kept.ite | with_reducible apply State.goSafe_kept
    | with_reducible apply State.setMeas_kept | with_reducible apply State.store_kept | with_reducible apply State.setFld_kept
    | with_reducible apply State.stageEnd_kept | with_reducible apply State.castFlag_kept
    | with_reducible refine Kept.put ?_ (fun w => w) rfl rfl

theorem State.againFw_kept {s0 s : State} (hs : Kept s0 s) : Kept s0 (State.againFw s) := by
  unfold State.againFw
  try dsimp only
  repeat' first
    | with_reducible assumption | with_reducible refine Kept2.eq (by assumption) ?_ | with_reducible apply Kept.ite
    | with_reducible apply State.verifyCount_kept | with_reducible apply State.stageEnd_kept
    | with_reducible apply State.restartFailed_kept | (split <;> try dsimp only)

theorem State.repairNeedle_kept {s0 s : State} {b e : Nat} {field : Bool} (hs : Kept s0 s) : Kept2 s0 (State.repairNeedle s b e
    field) := by
  unfold State.repairNeedle
  try dsimp only
  repeat' first
    | with_reducible assumption | with_reducible apply Kept2.ite | with_reducible apply State.markBad_kept
    | with_reducible apply State.setFld_kept | with_reducible apply Kept2.mk

theorem State.countBank_kept {s0 s : State} {sl : Nat} (hs : Kept s0 s) : Kept s0 (State.countBank s sl) := by
  unfold State.countBank
  try dsimp only
  repeat' first | with_reducible assumption | with_reducible apply State.setFld_kept

theorem State.repairBank_kept {s0 s : State} {sl e : Nat} {field : Bool} (hs : Kept s0 s) : Kept2 s0 (State.repairBank s sl e
    field) := by
  unfold State.repairBank
  try dsimp only
  repeat' first
    | with_reducible assumption | with_reducible apply Kept2.ite | with_reducible apply State.countBank_kept
    | with_reducible apply State.setSpare_kept | with_reducible apply State.markBad_kept
    | with_reducible apply State.setFld_kept | with_reducible apply Kept2.mk

theorem State.mapRetire_kept {s0 s : State} {b : Nat} (hs : Kept s0 s) : Kept s0 (State.mapRetire s b) := by
  unfold State.mapRetire
  try dsimp only
  repeat' first | with_reducible assumption | with_reducible apply State.setFld_kept

theorem State.repairEntry_kept {s0 s : State} {kind u e : Nat} {field : Bool} (hs : Kept s0 s) : Kept2 s0 (State.repairEntry s
    kind u e field) := by
  unfold State.repairEntry
  try dsimp only
  repeat' first
    | with_reducible assumption | with_reducible apply Kept2.ite | with_reducible apply State.repairNeedle_kept
    | with_reducible apply State.repairBank_kept | with_reducible apply State.mapRetire_kept | with_reducible apply Kept2.mk

theorem State.applyFuses_kept {s0 s : State} (hs : Kept s0 s) : Kept s0 (State.applyFuses s) := by
  unfold State.applyFuses
  try dsimp only
  repeat' first
    | with_reducible assumption | with_reducible apply Kept.ite | with_reducible apply State.repairEntry_kept
    | with_reducible apply State.setFld_kept | with_reducible apply Kept.foldl | (with_reducible intro x a hx; try dsimp only)
    | with_reducible apply Kept2.snd

theorem State.applyRecord_kept {s0 s : State} {bytes : List Byte} (hs : Kept s0 s) : Kept s0 (State.applyRecord s bytes) := by
  unfold State.applyRecord
  try dsimp only
  repeat' first
    | with_reducible assumption | with_reducible refine Kept2.eq (by assumption) ?_ | with_reducible apply State.castFlag_kept
    | with_reducible apply State.setFld_kept | with_reducible apply State.verifyCount_kept
    | with_reducible apply State.repairEntry_kept | with_reducible apply State.bump_kept | with_reducible apply Kept.foldl
    | (with_reducible intro x a hx; try dsimp only) | (split <;> try dsimp only)

theorem State.spareFailed_kept {s0 s : State} (hs : Kept s0 s) : Kept s0 (State.spareFailed s) := by
  unfold State.spareFailed
  try dsimp only
  repeat' first | with_reducible assumption | with_reducible apply State.setFld_kept | with_reducible apply State.castFlag_kept

theorem State.moveNeedle_kept {s0 s : State} {bad : Nat → Nat → Nat → Bool} {b sp : Nat} (hs : Kept s0 s) : Kept s0
    (State.moveNeedle s bad b sp) := by
  unfold State.moveNeedle
  try dsimp only
  repeat' first
    | with_reducible assumption | with_reducible apply Kept.ite | with_reducible apply State.setFld_kept
    | with_reducible apply State.markBad_kept | with_reducible apply State.spareFailed_kept
    | with_reducible apply State.mapRetire_kept

theorem State.moveBank_kept {s0 s : State} {bad : Nat → Nat → Nat → Bool} {sl sp : Nat} (hs : Kept s0 s) : Kept s0
    (State.moveBank s bad sl sp) := by
  unfold State.moveBank
  try dsimp only
  repeat' first
    | with_reducible assumption | with_reducible apply Kept.ite | with_reducible apply State.setSpare_kept
    | with_reducible apply State.setFld_kept | with_reducible apply State.markBad_kept
    | with_reducible apply State.spareFailed_kept | (split <;> try dsimp only)
    | with_reducible refine Kept.put ?_ (fun w => w) rfl rfl

theorem State.testSpares_kept {s0 s : State} {fails : List (Nat × Nat × Nat)} (hs : Kept s0 s) : Kept s0 (State.testSpares s
    fails) := by
  unfold State.testSpares
  try dsimp only
  repeat' first
    | with_reducible assumption | with_reducible apply Kept.ite | with_reducible apply State.moveNeedle_kept
    | with_reducible apply State.moveBank_kept | with_reducible apply State.spareFailed_kept
    | with_reducible apply State.mapRetire_kept | with_reducible apply Kept.foldl
    | (with_reducible intro x a hx; try dsimp only)

theorem State.loadPatch_kept {s0 s : State} {bytes : List Byte} (hs : Kept s0 s) : Kept s0 (State.loadPatch s bytes) := by
  unfold State.loadPatch
  try dsimp only
  repeat' first
    | with_reducible assumption | with_reducible refine Kept2.eq (by assumption) ?_ | with_reducible apply Kept.ite
    | with_reducible apply State.castFlag_kept | with_reducible apply State.setFld_kept
    | with_reducible apply State.verifyCount_kept | with_reducible apply State.setMeas_kept | (split <;> try dsimp only)
    | with_reducible refine Kept.put ?_ (fun w => w) rfl rfl

theorem State.ucLock_kept {s0 s : State} (hs : Kept s0 s) : Kept s0 (State.ucLock s) := by
  unfold State.ucLock
  try dsimp only
  repeat' first | with_reducible assumption | with_reducible apply State.setFld_kept

theorem State.startChannel_kept {s0 s : State} {c : Nat} (hs : Kept s0 s) : Kept s0 (State.startChannel s c) := by
  unfold State.startChannel
  try dsimp only
  repeat' first | with_reducible assumption | with_reducible apply Kept.ite | with_reducible apply State.setFld_kept

theorem State.castDone_kept {s0 s : State} (hs : Kept s0 s) : Kept s0 (State.castDone s) := by
  unfold State.castDone
  try dsimp only
  repeat' first
    | with_reducible assumption | with_reducible apply Kept.ite | with_reducible apply State.setFld_kept
    | with_reducible apply State.armReq_kept | with_reducible apply State.kthGo_kept
    | with_reducible refine Kept.put ?_ (fun w => w) rfl rfl

theorem State.ddrDone_kept {s0 s : State} {r : DdrResp} (hs : Kept s0 s) : Kept s0 (State.ddrDone s r) := by
  unfold State.ddrDone
  try dsimp only
  repeat' first | with_reducible assumption | with_reducible refine Kept.put ?_ (fun w => w) rfl rfl

theorem State.ddrWriteBytes_kept {s0 s : State} {src : Option Poster} {a : Nat} {data : List Byte} {be : DWord} (hs : Kept s0 s)
    : Kept s0 (State.ddrWriteBytes s src a data be) := by
  unfold State.ddrWriteBytes
  try dsimp only
  repeat' first
    | with_reducible assumption | with_reducible apply Kept.ite | with_reducible apply State.storeBy_kept
    | with_reducible apply Kept.foldl | (with_reducible intro x a hx; try dsimp only)

theorem State.ddrWrite_kept {s0 s : State} {port a : Nat} {data : List Byte} {be : DWord} (hs : Kept s0 s) : Kept s0
    (State.ddrWrite s port a data be) := by
  unfold State.ddrWrite
  try dsimp only
  repeat' first
    | with_reducible assumption | with_reducible apply State.ddrWriteBytes_kept | with_reducible apply State.filterCheck_kept
    | (split <;> try dsimp only)

theorem State.ddrDrain_kept {s0 s : State} {key n : Nat} (hs : Kept s0 s) : Kept s0 (State.ddrDrain s key n) := by
  unfold State.ddrDrain
  try dsimp only
  repeat' first | with_reducible assumption | with_reducible refine Kept.put ?_ (fun w => w) rfl rfl

theorem State.ddrAdmit_kept {s0 s : State} {key : Nat} (hs : Kept s0 s) : Kept s0 (State.ddrAdmit s key) := by
  unfold State.ddrAdmit
  try dsimp only
  repeat' first
    | with_reducible assumption | with_reducible apply Kept.ite | with_reducible apply State.ddrWriteBytes_kept
    | with_reducible apply Kept.foldl | (with_reducible intro x a hx; try dsimp only) | (split <;> try dsimp only)
    | with_reducible refine Kept.put ?_ (fun w => w) rfl rfl

theorem State.ddrFound_kept {s0 s : State} {c a : Nat} {ecc : Ecc} {scrub : Bool} {dimm rank dev : Nat} (hs : Kept s0 s) : Kept
    s0 (State.ddrFound s c a ecc scrub dimm rank dev) := by
  unfold State.ddrFound
  try dsimp only
  repeat' first
    | with_reducible assumption | with_reducible apply Kept.ite | with_reducible apply State.bump_kept
    | with_reducible apply State.setPair_kept | with_reducible apply State.setReg_kept | with_reducible apply State.raise_kept
    | (split <;> try dsimp only) | refine Kept.put ?_ (fun w => w) rfl rfl
    | refine Kept.put ?_ (fun w => poisonAfter_wf w _ _ _) rfl rfl
    | refine Kept.put ?_ (fun w => poisonAfter_wf (poisonAfter_wf w _ _ _) _ _ _) rfl rfl
    | refine Kept.put ?_ (fun w => clearHook_wf w _) rfl rfl | refine Kept.put ?_ (fun w => dropStash_wf w) rfl rfl
    | refine Kept.put ?_ (fun w => splitMem_wf w) rfl rfl | refine Kept.put ?_ (fun w => mergeMem_wf w) rfl rfl
    | refine Kept.put ?_ (fun w => cellsFilter_wf w _) rfl rfl | refine Kept.put ?_ (fun w => cellsPut_wf w _ _) rfl rfl
    | refine Kept.put ?_ (fun w => cellsPutAll_wf w _ _) rfl rfl

theorem State.patrolNext_kept {s0 s : State} {c : Nat} (hs : Kept s0 s) : Kept s0 (State.patrolNext s c) := by
  unfold State.patrolNext
  try dsimp only
  repeat' first | with_reducible assumption | with_reducible refine Kept.put ?_ (fun w => w) rfl rfl

theorem State.ddrFlush_kept {s0 s : State} {c : Nat} (hs : Kept s0 s) : Kept s0 (State.ddrFlush s c) := by
  unfold State.ddrFlush
  try dsimp only
  repeat' first
    | with_reducible assumption | with_reducible apply State.ddrDone_kept | with_reducible apply State.bump_kept
    | with_reducible apply Kept.foldl | (with_reducible intro x a hx; try dsimp only) | (split <;> try dsimp only)
    | with_reducible refine Kept.put ?_ (fun w => w) rfl rfl

theorem State.ddrRecover_kept {s0 s : State} {c : Nat} (hs : Kept s0 s) : Kept s0 (State.ddrRecover s c) := by
  unfold State.ddrRecover
  try dsimp only
  repeat' first
    | with_reducible assumption | with_reducible apply Kept.ite | with_reducible apply State.raise_kept
    | with_reducible apply State.setFld_kept | with_reducible apply State.ddrFlush_kept
    | with_reducible apply State.emergency_kept | with_reducible refine Kept.put ?_ (fun w => w) rfl rfl

theorem State.ddrLoseWrites_kept {s0 s : State} {key : Nat} (hs : Kept s0 s) : Kept s0 (State.ddrLoseWrites s key) := by
  unfold State.ddrLoseWrites
  try dsimp only
  repeat' first
    | with_reducible assumption | with_reducible apply State.writeLost_kept | with_reducible apply Kept.foldl
    | (with_reducible intro x a hx; try dsimp only) | (split <;> try dsimp only) | refine Kept.put ?_ (fun w => w) rfl rfl
    | refine Kept.put ?_ (fun w => poisonAfter_wf w _ _ _) rfl rfl
    | refine Kept.put ?_ (fun w => poisonAfter_wf (poisonAfter_wf w _ _ _) _ _ _) rfl rfl
    | refine Kept.put ?_ (fun w => clearHook_wf w _) rfl rfl | refine Kept.put ?_ (fun w => dropStash_wf w) rfl rfl
    | refine Kept.put ?_ (fun w => splitMem_wf w) rfl rfl | refine Kept.put ?_ (fun w => mergeMem_wf w) rfl rfl
    | refine Kept.put ?_ (fun w => cellsFilter_wf w _) rfl rfl | refine Kept.put ?_ (fun w => cellsPut_wf w _ _) rfl rfl
    | refine Kept.put ?_ (fun w => cellsPutAll_wf w _ _) rfl rfl

theorem State.ddrLose_kept {s0 s : State} {c : Nat} (hs : Kept s0 s) : Kept s0 (State.ddrLose s c) := by
  unfold State.ddrLose
  try dsimp only
  repeat' first
    | with_reducible assumption | refine Kept.put ?_ (fun w => w) rfl rfl
    | refine Kept.put ?_ (fun w => poisonAfter_wf w _ _ _) rfl rfl
    | refine Kept.put ?_ (fun w => poisonAfter_wf (poisonAfter_wf w _ _ _) _ _ _) rfl rfl
    | refine Kept.put ?_ (fun w => clearHook_wf w _) rfl rfl | refine Kept.put ?_ (fun w => dropStash_wf w) rfl rfl
    | refine Kept.put ?_ (fun w => splitMem_wf w) rfl rfl | refine Kept.put ?_ (fun w => mergeMem_wf w) rfl rfl
    | refine Kept.put ?_ (fun w => cellsFilter_wf w _) rfl rfl | refine Kept.put ?_ (fun w => cellsPut_wf w _ _) rfl rfl
    | refine Kept.put ?_ (fun w => cellsPutAll_wf w _ _) rfl rfl

theorem State.raiseLink_kept {s0 s : State} {l : Nat} (hs : Kept s0 s) : Kept s0 (State.raiseLink s l) := by
  unfold State.raiseLink
  try dsimp only
  repeat' first | with_reducible assumption | with_reducible apply State.raise_kept

theorem State.linkDown_kept {s0 s : State} {l : Nat} (hs : Kept s0 s) : Kept s0 (State.linkDown s l) := by
  unfold State.linkDown
  try dsimp only
  repeat' first
    | with_reducible assumption | with_reducible apply Kept.ite | with_reducible apply State.raiseLink_kept
    | with_reducible apply State.setFld_kept | with_reducible apply State.emergency_kept
    | with_reducible apply State.failCam_kept | (split <;> try dsimp only)
    | with_reducible refine Kept.put ?_ (fun w => w) rfl rfl

theorem State.pairLine_kept {s0 s : State} {l k tag : Nat} {bad : Bool} (hs : Kept s0 s) : Kept s0 (State.pairLine s l k tag
    bad) := by
  unfold State.pairLine
  try dsimp only
  repeat' first
    | with_reducible assumption | with_reducible apply Kept.ite | with_reducible apply State.setFld_kept
    | with_reducible apply State.bump_kept | with_reducible apply State.setCam_kept | with_reducible apply State.setLine_kept
    | with_reducible apply Kept.foldl | (with_reducible intro x a hx; try dsimp only) | (split <;> try dsimp only)

theorem State.cameraBoundary_kept {s0 s : State} {l : Nat} (hs : Kept s0 s) : Kept s0 (State.cameraBoundary s l) := by
  unfold State.cameraBoundary
  try dsimp only
  repeat' first
    | with_reducible assumption | with_reducible apply Kept.ite | with_reducible apply State.encPosAt_kept
    | with_reducible apply State.boundaryAll_kept | with_reducible apply Kept.foldl
    | (with_reducible intro x a hx; try dsimp only) | (split <;> try dsimp only) | with_reducible apply Kept2.snd

theorem State.writePixels_kept {s0 s : State} {n row k p : Nat} {px : List Word} (hs : Kept s0 s) :
    Kept s0 (State.writePixels s n row k p px) := by
  induction px generalizing s p with
  | nil => exact hs
  | cons v t ih =>
    unfold State.writePixels
    refine ih ?_
    split
    · exact State.store_kept hs
    · exact hs

theorem State.resolveCourse_kept {s0 s : State} {n : Nat} {r : IRow} {ok : Bool} (hs : Kept s0 s) : Kept s0 (State.resolveCourse
    s n r ok) := by
  unfold State.resolveCourse
  try dsimp only
  repeat' first
    | with_reducible assumption | with_reducible apply Kept.ite | with_reducible apply State.delRow_kept
    | with_reducible apply State.setFld_kept | with_reducible apply State.noteFinal_kept
    | with_reducible apply State.writeMarker_kept | with_reducible apply State.setIch_kept
    | with_reducible apply State.resolveSpec_kept | with_reducible apply State.passRow_kept
    | with_reducible apply State.recordDrop_kept | with_reducible apply Kept.foldl
    | (with_reducible intro x a hx; try dsimp only)

theorem State.mailboxGo_kept {s0 s : State} {k : Nat} (hs : Kept s0 s) : Kept s0 (State.mailboxGo s k) := by
  unfold State.mailboxGo
  try dsimp only
  repeat' first
    | with_reducible assumption | with_reducible apply Kept.ite | with_reducible apply State.setFld_kept
    | with_reducible apply State.send_kept | with_reducible refine Kept.put ?_ (fun w => w) rfl rfl

theorem State.popEvent_kept {s0 s : State} (hs : Kept s0 s) : Kept s0 (State.popEvent s) := by
  unfold State.popEvent
  try dsimp only
  repeat' first | with_reducible assumption | with_reducible refine Kept.put ?_ (fun w => w) rfl rfl

theorem State.popDrop_kept {s0 s : State} {n : Nat} (hs : Kept s0 s) : Kept s0 (State.popDrop s n) := by
  unfold State.popDrop
  try dsimp only
  repeat' first | with_reducible assumption | with_reducible apply State.setIch_kept

theorem State.writeRel_kept {s0 s : State} {n k row : Nat} (hs : Kept s0 s) : Kept s0 (State.writeRel s n k row) := by
  unfold State.writeRel
  try dsimp only
  repeat' first | with_reducible assumption | with_reducible apply Kept.ite | with_reducible apply State.raiseRel_kept

theorem State.startIngestBindoff_kept {s0 s : State} {n : Nat} (hs : Kept s0 s) : Kept s0 (State.startIngestBindoff s n) := by
  unfold State.startIngestBindoff
  try dsimp only
  repeat' first | with_reducible assumption | with_reducible apply Kept.ite | with_reducible apply State.setFld_kept

theorem State.startChanBindoff_kept {s0 s : State} {n : Nat} (hs : Kept s0 s) : Kept s0 (State.startChanBindoff s n) := by
  unfold State.startChanBindoff
  try dsimp only
  repeat' first
    | with_reducible assumption | with_reducible apply Kept.ite | with_reducible apply State.setChan_kept
    | with_reducible apply State.setPlq_kept | with_reducible apply State.startIngestBindoff_kept
    | with_reducible apply State.settleChan_kept | with_reducible apply State.startQBindoff_kept
    | with_reducible apply Kept.foldl | (with_reducible intro x a hx; try dsimp only)

theorem State.bindoffGroup_kept {s0 s : State} {n : Nat} (hs : Kept s0 s) : Kept s0 (State.bindoffGroup s n) := by
  unfold State.bindoffGroup
  try dsimp only
  repeat' first
    | with_reducible assumption | with_reducible apply Kept.ite | with_reducible apply State.startChanBindoff_kept
    | with_reducible apply Kept.foldl

theorem State.endIngestBindoff_kept {s0 s : State} {n : Nat} (hs : Kept s0 s) : Kept s0 (State.endIngestBindoff s n) := by
  unfold State.endIngestBindoff
  try dsimp only
  repeat' first
    | with_reducible assumption | with_reducible apply Kept.ite | with_reducible apply State.raise_kept
    | with_reducible apply State.setFld_kept | with_reducible apply State.settleChan_kept
    | with_reducible apply State.startQBindoff_kept | with_reducible apply Kept.foldl
    | (with_reducible intro x a hx; try dsimp only)

theorem State.clearRsc_kept {s0 s : State} {r : Reg} (hs : Kept s0 s) : Kept s0 (State.clearRsc s r) := by
  unfold State.clearRsc
  try dsimp only
  repeat' first | with_reducible assumption | with_reducible apply Kept.ite | with_reducible apply State.setReg_kept

theorem State.popDs_kept {s0 s : State} (hs : Kept s0 s) : Kept s0 (State.popDs s) := by
  unfold State.popDs
  try dsimp only
  repeat' first | with_reducible assumption | with_reducible refine Kept.put ?_ (fun w => w) rfl rfl

theorem State.popCap_kept {s0 s : State} {n : Nat} (hs : Kept s0 s) : Kept s0 (State.popCap s n) := by
  unfold State.popCap
  try dsimp only
  repeat' first | with_reducible assumption | with_reducible apply State.setCap_kept

theorem State.popBy_kept {s0 s : State} {r : Reg} (hs : Kept s0 s) : Kept s0 (State.popBy s r) := by
  unfold State.popBy
  try dsimp only
  repeat' first
    | with_reducible assumption | with_reducible apply Kept.ite | with_reducible apply State.popCap_kept
    | with_reducible apply State.popDrop_kept | with_reducible apply State.popEvent_kept
    | with_reducible apply State.popCpl_kept | with_reducible apply State.popDs_kept | (split <;> try dsimp only)

theorem State.loadReg_kept {s0 s : State} {who : Who} {r : Reg} (hs : Kept s0 s) : Kept2 s0 (State.loadReg s who r) := by
  unfold State.loadReg
  try dsimp only
  repeat' first
    | with_reducible assumption | with_reducible apply State.popBy_kept | with_reducible apply State.clearRsc_kept
    | with_reducible apply Kept2.mk | (split <;> try dsimp only) | with_reducible refine Kept.put ?_ (fun w => w) rfl rfl

theorem State.loadAddr_kept {s0 s : State} {who : Who} {a : Nat} (hs : Kept s0 s) : Kept s0 (State.loadAddr s who a) := by
  unfold State.loadAddr
  try dsimp only
  repeat' first
    | with_reducible assumption | with_reducible apply State.loadReg_kept | (split <;> try dsimp only)
    | with_reducible apply Kept2.snd | with_reducible refine Kept.put ?_ (fun w => w) rfl rfl

theorem State.takeCounts_kept {s0 s : State} {r : Reg} (hs : Kept s0 s) : Kept s0 (State.takeCounts s r) := by
  unfold State.takeCounts
  try dsimp only
  repeat' first
    | with_reducible assumption | with_reducible apply Kept.ite | with_reducible apply State.count_kept
    | with_reducible apply State.setOd_kept | with_reducible apply Kept.foldl | (with_reducible intro x a hx; try dsimp only)

theorem State.pollReg_kept {s0 s : State} {r : Reg} (hs : Kept s0 s) : Kept s0 (State.pollReg s r) := by
  unfold State.pollReg
  try dsimp only
  repeat' first
    | with_reducible assumption | with_reducible apply State.clearRsc_kept | with_reducible apply State.takeCounts_kept

theorem State.takeLong_kept {s0 s : State} {sub now : Nat} (hs : Kept s0 s) : Kept s0 (State.takeLong s sub now) := by
  unfold State.takeLong
  try dsimp only
  repeat' first
    | with_reducible assumption | with_reducible apply State.count_kept | (split <;> try dsimp only)
    | with_reducible refine Kept.put ?_ (fun w => w) rfl rfl

theorem State.pollCounters_kept {s0 s : State} (hs : Kept s0 s) : Kept s0 (State.pollCounters s) := by
  unfold State.pollCounters
  try dsimp only
  repeat' first
    | with_reducible assumption | with_reducible apply State.pollReg_kept | with_reducible apply State.takeLong_kept
    | with_reducible apply Kept.foldl | (with_reducible intro x a hx; try dsimp only)

theorem State.clearTally_kept {s0 s : State} (hs : Kept s0 s) : Kept s0 (State.clearTally s) := by
  unfold State.clearTally
  try dsimp only
  repeat' first | with_reducible assumption | with_reducible refine Kept.put ?_ (fun w => w) rfl rfl

theorem State.readChanStat_kept {s0 s : State} {n sub : Nat} (hs : Kept s0 s) : Kept2 s0 (State.readChanStat s n sub) := by
  unfold State.readChanStat
  try dsimp only
  repeat' first
    | with_reducible assumption | with_reducible apply State.webSpeed_kept | with_reducible apply Kept2.mk
    | (split <;> try dsimp only) | with_reducible apply Kept2.snd

theorem State.odNum_kept {s0 s : State} {idx sub : Nat} (hs : Kept s0 s) : Kept2 s0 (State.odNum s idx sub) := by
  unfold State.odNum
  try dsimp only
  repeat' first
    | with_reducible assumption | with_reducible apply Kept2.ite | with_reducible apply State.readChanStat_kept
    | with_reducible apply Kept2.mk | (split <;> try dsimp only)

theorem State.odRead_kept {s0 s : State} {idx sub : Nat} (hs : Kept s0 s) : Kept2 s0 (State.odRead s idx sub) := by
  unfold State.odRead
  try dsimp only
  repeat' first
    | with_reducible assumption | with_reducible apply State.odNum_kept | with_reducible apply Kept2.mk
    | (split <;> try dsimp only) | with_reducible apply Kept2.snd

theorem State.setOffset_kept {s0 s : State} {off : Int} (hs : Kept s0 s) : Kept s0 (State.setOffset s off) := by
  unfold State.setOffset
  try dsimp only
  repeat' first
    | with_reducible assumption | with_reducible apply Kept.ite | with_reducible apply State.setFld_kept
    | with_reducible apply State.fresh_kept | with_reducible apply Kept2.snd

theorem State.setLocked_kept {s0 s : State} {v : Nat} (hs : Kept s0 s) : Kept s0 (State.setLocked s v) := by
  unfold State.setLocked
  try dsimp only
  repeat' first
    | with_reducible assumption | with_reducible apply Kept.ite | with_reducible apply State.raise_kept
    | with_reducible apply State.setFld_kept

theorem State.compareTb_kept {s0 s : State} {off : Int} {tol need : Nat} (hs : Kept s0 s) : Kept s0 (State.compareTb s off tol
    need) := by
  unfold State.compareTb
  try dsimp only
  repeat' first
    | with_reducible assumption | with_reducible apply Kept.ite | with_reducible apply State.setOffset_kept
    | with_reducible apply State.raise_kept | with_reducible apply State.setFld_kept
    | with_reducible apply State.setLocked_kept | (split <;> try dsimp only)
    | with_reducible refine Kept.put ?_ (fun w => w) rfl rfl

theorem State.encLevels_kept {s0 s : State} {e : Nat} {a b : Bool} (hs : Kept s0 s) : Kept s0 (State.encLevels s e a b) := by
  unfold State.encLevels
  try dsimp only
  repeat' first | with_reducible assumption | with_reducible apply State.setEnc_kept

theorem State.encCount_kept {s0 s : State} {e : Nat} {a b : Bool} (hs : Kept s0 s) : Kept s0 (State.encCount s e a b) := by
  unfold State.encCount
  try dsimp only
  repeat' first
    | with_reducible assumption | with_reducible apply Kept.ite | with_reducible apply State.setEnc_kept
    | with_reducible apply State.setFld_kept | with_reducible apply State.raise_kept
    | with_reducible apply State.reproject_kept | (split <;> try dsimp only)
    | with_reducible refine Kept.put ?_ (fun w => w) rfl rfl

theorem State.encPhaseError_kept {s0 s : State} {e : Nat} {a b : Bool} (hs : Kept s0 s) : Kept s0 (State.encPhaseError s e a b) := by
  unfold State.encPhaseError
  try dsimp only
  repeat' first
    | with_reducible assumption | with_reducible apply State.raise_kept | with_reducible apply State.setFld_kept
    | with_reducible apply State.bump_kept | with_reducible apply State.encLevels_kept

theorem State.putReg_kept {s0 s : State} {who : Who} {r : Reg} {v : Word} (hs : Kept s0 s) : Kept s0 (State.putReg s who r v) := by
  unfold State.putReg
  try dsimp only
  repeat' first | with_reducible assumption | with_reducible apply State.setReg_kept

theorem State.tbsSet_kept {s0 s : State} {v : Nat} (hs : Kept s0 s) : Kept s0 (State.tbsSet s v) := by
  unfold State.tbsSet
  try dsimp only
  repeat' first
    | with_reducible assumption | with_reducible apply Kept.ite | with_reducible apply State.raise_kept
    | with_reducible apply State.setFld_kept | with_reducible refine Kept.put ?_ (fun w => w) rfl rfl

theorem State.writeArm_kept {s0 s : State} {v : Word} (hs : Kept s0 s) : Kept s0 (State.writeArm s v) := by
  unfold State.writeArm
  try dsimp only
  repeat' first
    | with_reducible assumption | with_reducible apply Kept.ite | with_reducible apply State.disarm_kept
    | with_reducible apply State.armReq_kept

theorem State.writeEnc_kept {s0 s : State} {who : Who} {r : Reg} {v : Word} (hs : Kept s0 s) : Kept s0 (State.writeEnc s who r
    v) := by
  unfold State.writeEnc
  try dsimp only
  repeat' first
    | with_reducible assumption | with_reducible apply Kept.ite | with_reducible apply State.putReg_kept
    | with_reducible apply State.reproject_kept | with_reducible apply State.setFld_kept
    | with_reducible apply State.setEnc_kept

theorem State.writeChan_kept {s0 s : State} {who : Who} {r : Reg} {v : Word} (hs : Kept s0 s) : Kept s0 (State.writeChan s who r
    v) := by
  unfold State.writeChan
  try dsimp only
  repeat' first
    | with_reducible assumption | with_reducible apply Kept.ite | with_reducible apply State.putReg_kept
    | with_reducible apply State.setChan_kept | with_reducible apply State.reproject_kept

theorem State.writeOut_kept {s0 s : State} {who : Who} {r : Reg} {v : Word} (hs : Kept s0 s) : Kept s0 (State.writeOut s who r
    v) := by
  unfold State.writeOut
  try dsimp only
  repeat' first
    | with_reducible assumption | with_reducible apply Kept.ite | with_reducible apply State.putReg_kept
    | with_reducible apply State.startOutBindoff_kept | with_reducible apply State.drivePin_kept

theorem State.writeLink_kept {s0 s : State} {who : Who} {r : Reg} {v : Word} (hs : Kept s0 s) : Kept s0 (State.writeLink s who r
    v) := by
  unfold State.writeLink
  try dsimp only
  repeat' first
    | with_reducible assumption | with_reducible apply Kept.ite | with_reducible apply State.putReg_kept
    | with_reducible apply State.setFld_kept | with_reducible apply State.linkDown_kept

theorem State.writeIctrl_kept {s0 s : State} {who : Who} {r : Reg} {v : Word} (hs : Kept s0 s) : Kept s0 (State.writeIctrl s who
    r v) := by
  unfold State.writeIctrl
  try dsimp only
  repeat' first
    | with_reducible assumption | with_reducible apply Kept.ite | with_reducible apply State.putReg_kept
    | with_reducible apply State.startIngestBindoff_kept | with_reducible apply State.setFld_kept

theorem State.writeMbx_kept {s0 s : State} {who : Who} {r : Reg} {v : Word} (hs : Kept s0 s) : Kept s0 (State.writeMbx s who r
    v) := by
  unfold State.writeMbx
  try dsimp only
  repeat' first
    | with_reducible assumption | with_reducible apply Kept.ite | with_reducible apply State.setFld_kept
    | with_reducible apply State.mailboxGo_kept | with_reducible apply State.putReg_kept

theorem State.bedCtrl_kept {s0 s : State} {b : Nat} {was : Bool} (hs : Kept s0 s) : Kept s0 (State.bedCtrl s b was) := by
  unfold State.bedCtrl
  try dsimp only
  repeat' first
    | with_reducible assumption | with_reducible apply Kept.ite | with_reducible apply State.setFld_kept
    | with_reducible apply State.powerBed_kept | with_reducible apply State.setBed_kept
    | with_reducible apply State.retune_kept

theorem State.writeBed_kept {s0 s : State} {who : Who} {r : Reg} {v : Word} (hs : Kept s0 s) : Kept s0 (State.writeBed s who r
    v) := by
  unfold State.writeBed
  try dsimp only
  repeat' first
    | with_reducible assumption | with_reducible apply Kept.ite | with_reducible apply State.setFld_kept
    | with_reducible apply State.putReg_kept | with_reducible apply State.bedCtrl_kept
    | with_reducible apply State.bedReset_kept

theorem State.submit_kept {s0 s : State} {q : Nat} (hs : Kept s0 s) : Kept s0 (State.submit s q) := by
  unfold State.submit
  try dsimp only
  repeat' first
    | with_reducible assumption | with_reducible apply Kept.ite | with_reducible apply State.bump_kept
    | with_reducible apply State.setFld_kept | with_reducible apply State.postRefused_kept
    | with_reducible apply State.setPlq_kept

theorem State.writeSub_kept {s0 s : State} {q j : Nat} {v : Word} (hs : Kept s0 s) : Kept s0 (State.writeSub s q j v) := by
  unfold State.writeSub
  try dsimp only
  repeat' first
    | with_reducible assumption | with_reducible apply Kept.ite | with_reducible apply State.setPlq_kept
    | with_reducible apply State.submit_kept

theorem State.writePin_kept {s0 s : State} {who : Who} {r : Reg} {v : Word} (hs : Kept s0 s) : Kept s0 (State.writePin s who r
    v) := by
  unfold State.writePin
  try dsimp only
  repeat' first
    | with_reducible assumption | with_reducible apply Kept.ite | with_reducible apply State.putReg_kept
    | with_reducible apply State.setPlq_kept

theorem State.writePlq_kept {s0 s : State} {who : Who} {r : Reg} {v : Word} (hs : Kept s0 s) : Kept s0 (State.writePlq s who r
    v) := by
  unfold State.writePlq
  try dsimp only
  repeat' first
    | with_reducible assumption | with_reducible apply Kept.ite | with_reducible apply State.putReg_kept
    | with_reducible apply State.setFld_kept | with_reducible apply State.setPlq_kept
    | with_reducible apply State.startQBindoff_kept | with_reducible apply State.pinTry_kept

theorem State.writeBind_kept {s0 s : State} {who : Who} {r : Reg} {v : Word} (hs : Kept s0 s) : Kept s0 (State.writeBind s who r
    v) := by
  unfold State.writeBind
  try dsimp only
  repeat' first
    | with_reducible assumption | with_reducible apply Kept.ite | with_reducible apply State.putReg_kept
    | with_reducible apply State.raiseEpoch_kept | with_reducible apply State.setFld_kept
    | with_reducible apply State.startQBindoff_kept | with_reducible apply State.setPlq_kept

theorem State.writePlqCmd_kept {s0 s : State} {q : Nat} {v : Word} (hs : Kept s0 s) : Kept s0 (State.writePlqCmd s q v) := by
  unfold State.writePlqCmd
  try dsimp only
  repeat' first
    | with_reducible assumption | with_reducible apply Kept.ite | with_reducible apply State.abort_kept
    | with_reducible apply State.resume_kept

theorem State.writeMig_kept {s0 s : State} {who : Who} {r : Reg} {v : Word} (hs : Kept s0 s) : Kept s0 (State.writeMig s who r
    v) := by
  unfold State.writeMig
  try dsimp only
  repeat' first
    | with_reducible assumption | with_reducible apply Kept.ite | with_reducible apply State.putReg_kept
    | with_reducible apply State.migrate_kept

theorem State.writeSwi_kept {s0 s : State} {c : Nat} {v : Word} (hs : Kept s0 s) : Kept s0 (State.writeSwi s c v) := by
  unfold State.writeSwi
  try dsimp only
  repeat' first | with_reducible assumption | with_reducible apply Kept.ite | with_reducible apply State.setFld_kept

theorem State.runThread_kept {s0 s : State} {c t : Nat} (hs : Kept s0 s) : Kept s0 (State.runThread s c t) := by
  unfold State.runThread
  try dsimp only
  repeat' first | with_reducible assumption | with_reducible apply Kept.ite | with_reducible apply State.updTh_kept

theorem State.writeTctrl_kept {s0 s : State} {c t : Nat} {v : Word} (hs : Kept s0 s) : Kept s0 (State.writeTctrl s c t v) := by
  unfold State.writeTctrl
  try dsimp only
  repeat' first
    | with_reducible assumption | with_reducible apply Kept.ite | with_reducible apply State.updTh_kept
    | with_reducible apply State.runThread_kept

theorem State.writeTstat_kept {s0 s : State} {r : Reg} {v : Word} (hs : Kept s0 s) : Kept s0 (State.writeTstat s r v) := by
  unfold State.writeTstat
  try dsimp only
  repeat' first
    | with_reducible assumption | with_reducible apply Kept.ite | with_reducible apply State.setFld_kept
    | with_reducible apply State.setReg_kept

theorem State.writeStest_kept {s0 s : State} {v : Word} (hs : Kept s0 s) : Kept s0 (State.writeStest s v) := by
  unfold State.writeStest
  try dsimp only
  repeat' first
    | with_reducible assumption | with_reducible apply Kept.ite | with_reducible apply State.fresh_kept
    | with_reducible apply State.selfTest_kept | with_reducible apply Kept2.snd

theorem State.writeKth_kept {s0 s : State} {who : Who} {r : Reg} {v : Word} (hs : Kept s0 s) : Kept s0 (State.writeKth s who r
    v) := by
  unfold State.writeKth
  try dsimp only
  repeat' first
    | with_reducible assumption | with_reducible apply Kept.ite | with_reducible apply State.setFld_kept
    | with_reducible apply State.putReg_kept | with_reducible apply State.kthGo_kept

end Sys2Proof.Machine
end

