-- ==== Sys2Proof/Laws/Kept5.lean ====
section
/-!
SUPPORT. Sys2Proof/Laws/Kept5.lean: the operations that keep the queue, the form of memory and the legality of the AL state
(Sys2Proof/Laws/Kept.lean), one lemma each: RegWrite, Regs, OdWrite, Dict, Electrical, Esm.
-/
namespace Sys2Proof.Machine

theorem State.writeDmb_kept {s0 s : State} {who : Who} {r : Reg} {v : Word} (hs : Kept s0 s) : Kept s0 (State.writeDmb s who r
    v) := by
  unfold State.writeDmb
  try dsimp only
  repeat' first
    | with_reducible assumption | with_reducible apply Kept.ite | with_reducible apply State.setFld_kept
    | with_reducible apply State.raise_kept | with_reducible apply State.putReg_kept

theorem State.fenceGo_kept {s0 s : State} {v : Word} (hs : Kept s0 s) : Kept s0 (State.fenceGo s v) := by
  unfold State.fenceGo
  try dsimp only
  repeat' first
    | with_reducible assumption | with_reducible apply Kept.ite | with_reducible apply State.setFld_kept
    | with_reducible refine Kept.put ?_ (fun w => w) rfl rfl

theorem State.writeMsix_kept {s0 s : State} {fn w : Nat} {v : Word} (hs : Kept s0 s) : Kept s0 (State.writeMsix s fn w v) := by
  unfold State.writeMsix
  try dsimp only
  repeat' first
    | with_reducible assumption | with_reducible apply Kept.ite | with_reducible apply State.msix_kept
    | with_reducible refine Kept.put ?_ (fun w => w) rfl rfl

theorem State.writePwr_kept {s0 s : State} {who : Who} {r : Reg} {v : Word} (hs : Kept s0 s) : Kept s0 (State.writePwr s who r
    v) := by
  unfold State.writePwr
  try dsimp only
  repeat' first
    | with_reducible assumption | with_reducible apply Kept.ite | with_reducible apply State.putReg_kept
    | with_reducible apply State.enterStandby_kept | with_reducible apply State.leaveStandby_kept

theorem State.writeGau_kept {s0 s : State} {who : Who} {r : Reg} {v : Word} (hs : Kept s0 s) : Kept s0 (State.writeGau s who r
    v) := by
  unfold State.writeGau
  try dsimp only
  repeat' first
    | with_reducible assumption | with_reducible apply Kept.ite | with_reducible apply State.putReg_kept
    | with_reducible refine Kept.put ?_ (fun w => w) rfl rfl

theorem State.writeKick_kept {s0 s : State} {a : Who} (hs : Kept s0 s) : Kept s0 (State.writeKick s a) := by
  unfold State.writeKick
  try dsimp only
  repeat' first | with_reducible assumption | with_reducible apply State.updTh_kept | (split <;> try dsimp only)

theorem State.channelReset_kept {s0 s : State} {n : Nat} (hs : Kept s0 s) : Kept s0 (State.channelReset s n) := by
  unfold State.channelReset
  try dsimp only
  repeat' first
    | with_reducible assumption | with_reducible apply Kept.ite | with_reducible apply State.raiseEpoch_kept
    | with_reducible apply State.bindoffGroup_kept | with_reducible apply State.startChanBindoff_kept
    | with_reducible apply Kept.foldl

theorem State.writeReset_kept {s0 s : State} {who : Who} {r : Reg} {v : Word} (hs : Kept s0 s) : Kept s0 (State.writeReset s who
    r v) := by
  unfold State.writeReset
  try dsimp only
  repeat' first
    | with_reducible assumption | with_reducible apply Kept.ite | with_reducible apply State.putReg_kept
    | with_reducible apply State.systemReset_kept | with_reducible apply State.hookReset_kept
    | with_reducible apply State.channelReset_kept

theorem State.actWeb_kept {s0 s : State} {who : Who} {r : Reg} {v : Word} (hs : Kept s0 s) : Kept s0 (State.actWeb s who r v) := by
  unfold State.actWeb
  try dsimp only
  repeat' first
    | with_reducible assumption | with_reducible apply State.writeArm_kept | with_reducible apply State.writeEnc_kept
    | with_reducible apply State.writeChan_kept | with_reducible apply State.writeOut_kept
    | with_reducible apply State.evinWrite_kept | with_reducible apply State.putReg_kept | (split <;> try dsimp only)

theorem State.actIngest_kept {s0 s : State} {who : Who} {r : Reg} {v : Word} (hs : Kept s0 s) : Kept s0 (State.actIngest s who r
    v) := by
  unfold State.actIngest
  try dsimp only
  repeat' first
    | with_reducible assumption | with_reducible apply State.writeLink_kept | with_reducible apply State.writeIctrl_kept
    | with_reducible apply State.writeMbx_kept | with_reducible apply State.putReg_kept | (split <;> try dsimp only)

theorem State.actPly_kept {s0 s : State} {who : Who} {r : Reg} {v : Word} (hs : Kept s0 s) : Kept s0 (State.actPly s who r v) := by
  unfold State.actPly
  try dsimp only
  repeat' first
    | with_reducible assumption | with_reducible apply Kept.ite | with_reducible apply State.writeBed_kept
    | with_reducible apply State.ucLock_kept | with_reducible apply State.writePlq_kept
    | with_reducible apply State.writeBind_kept | with_reducible apply State.writePlqCmd_kept
    | with_reducible apply State.writeSub_kept | with_reducible apply State.writePin_kept
    | with_reducible apply State.writeMig_kept | with_reducible apply State.putReg_kept | (split <;> try dsimp only)

theorem State.actHook_kept {s0 s : State} {who : Who} {r : Reg} {v : Word} (hs : Kept s0 s) : Kept s0 (State.actHook s who r v) := by
  unfold State.actHook
  try dsimp only
  repeat' first
    | with_reducible assumption | with_reducible apply Kept.ite | with_reducible apply State.writeSwi_kept
    | with_reducible apply State.writeTctrl_kept | with_reducible apply State.writeTstat_kept
    | with_reducible apply State.resyncHeld_kept | with_reducible apply State.writeStest_kept
    | with_reducible apply State.putReg_kept | (split <;> try dsimp only)

theorem State.actSys_kept {s0 s : State} {who : Who} {r : Reg} {v : Word} (hs : Kept s0 s) : Kept s0 (State.actSys s who r v) := by
  unfold State.actSys
  try dsimp only
  repeat' first
    | with_reducible assumption | with_reducible apply Kept.ite | with_reducible apply State.putReg_kept
    | with_reducible apply State.ddrRecover_kept | with_reducible apply State.castDone_kept
    | with_reducible apply State.writeKick_kept | with_reducible apply State.writeReset_kept
    | with_reducible apply State.writeKth_kept | with_reducible apply State.setReg_kept
    | with_reducible apply State.writeDmb_kept | with_reducible apply State.fenceGo_kept
    | with_reducible apply State.writeMsix_kept | with_reducible apply State.writePwr_kept
    | with_reducible apply State.writeGau_kept | (split <;> try dsimp only)

theorem State.loadPair_kept {s0 s : State} {who : Who} {lo hi : Reg} {v : Word} (hs : Kept s0 s) : Kept s0 (State.loadPair s who
    lo hi v) := by
  unfold State.loadPair
  try dsimp only
  repeat' first
    | with_reducible assumption | with_reducible apply Kept.ite | with_reducible apply State.tbsSet_kept
    | with_reducible apply State.setReg_kept | with_reducible apply State.setChan_kept
    | with_reducible apply State.reproject_kept | with_reducible apply State.writeRel_kept
    | with_reducible apply State.putReg_kept | (split <;> try dsimp only)
    | with_reducible refine Kept.put ?_ (fun w => w) rfl rfl

theorem State.storeReg_kept {s0 s : State} {who : Who} {r : Reg} {v : Word} (hs : Kept s0 s) : Kept s0 (State.storeReg s who r
    v) := by
  unfold State.storeReg
  try dsimp only
  repeat' first
    | with_reducible assumption | with_reducible apply Kept.ite | with_reducible apply State.loadPair_kept
    | with_reducible apply State.actWeb_kept | with_reducible apply State.actIngest_kept
    | with_reducible apply State.actPly_kept | with_reducible apply State.actHook_kept | with_reducible apply State.actSys_kept
    | (split <;> try dsimp only) | with_reducible refine Kept.put ?_ (fun w => w) rfl rfl

theorem State.storeAddr_kept {s0 s : State} {who : Who} {a : Nat} {v : Word} (hs : Kept s0 s) : Kept s0 (State.storeAddr s who a
    v) := by
  unfold State.storeAddr
  try dsimp only
  repeat' first | with_reducible assumption | with_reducible apply State.storeReg_kept | (split <;> try dsimp only)

theorem State.hostStore_kept {s0 s : State} {fn : Nat} {r : Reg} {v : Word} (hs : Kept s0 s) : Kept s0 (State.hostStore s fn r
    v) := by
  unfold State.hostStore
  try dsimp only
  repeat' first
    | with_reducible assumption | with_reducible apply Kept.ite | with_reducible apply State.bump_kept
    | with_reducible apply State.writeMsix_kept | with_reducible apply State.storeReg_kept

theorem State.hostLoad_kept {s0 s : State} {fn : Nat} {r : Reg} (hs : Kept s0 s) : Kept2 s0 (State.hostLoad s fn r) := by
  unfold State.hostLoad
  try dsimp only
  repeat' first
    | with_reducible assumption | with_reducible apply Kept2.ite | with_reducible apply State.loadReg_kept
    | with_reducible apply Kept2.mk | (split <;> try dsimp only) | with_reducible apply Kept2.snd

theorem State.refusedPath_kept {s0 s : State} (hs : Kept s0 s) : Kept s0 (State.refusedPath s) := by
  unfold State.refusedPath
  try dsimp only
  repeat' first | with_reducible assumption | with_reducible apply State.bump_kept

theorem State.writeBy_kept {s0 s : State} {who : Who} {a : Nat} {v : Word} (hs : Kept s0 s) : Kept s0 (State.writeBy s who a v) := by
  unfold State.writeBy
  try dsimp only
  repeat' first
    | with_reducible assumption | with_reducible apply Kept.ite | with_reducible apply State.setFault_kept
    | with_reducible apply State.storeAddr_kept | with_reducible apply State.hostStore_kept
    | with_reducible apply State.bump_kept | with_reducible apply State.refusedPath_kept | (split <;> try dsimp only)

theorem State.readBy_kept {s0 s : State} {who : Who} {a : Nat} (hs : Kept s0 s) : Kept s0 (State.readBy s who a) := by
  unfold State.readBy
  try dsimp only
  repeat' first
    | with_reducible assumption | with_reducible apply Kept.ite | with_reducible apply State.loadAddr_kept
    | with_reducible apply State.setFault_kept | with_reducible apply State.hostLoad_kept
    | with_reducible apply State.bump_kept | with_reducible apply State.refusedPath_kept | (split <;> try dsimp only)
    | with_reducible apply Kept2.snd | with_reducible refine Kept.put ?_ (fun w => w) rfl rfl

theorem State.writeTo_kept {s0 s : State} {who : Who} {k : RegKind} {i j v : Nat} (hs : Kept s0 s) : Kept s0 (State.writeTo s
    who k i j v) := by
  unfold State.writeTo
  try dsimp only
  repeat' first | with_reducible assumption | with_reducible apply State.writeBy_kept

theorem State.readFrom_kept {s0 s : State} {who : Who} {k : RegKind} {i j : Nat} (hs : Kept s0 s) : Kept s0 (State.readFrom s
    who k i j) := by
  unfold State.readFrom
  try dsimp only
  repeat' first | with_reducible assumption | with_reducible apply State.readBy_kept

theorem State.writeField_kept {s0 s : State} {who : Who} {f : Fld} {v : Nat} {i j : optParam Nat 0} (hs : Kept s0 s) : Kept s0
    (State.writeField s who f v i j) := by
  unfold State.writeField
  try dsimp only
  repeat' first | with_reducible assumption | with_reducible apply State.writeTo_kept

theorem State.takeAt_kept {s0 s : State} {who : Who} {addr : Nat} (hs : Kept s0 s) : Kept s0 (State.takeAt s who addr) := by
  unfold State.takeAt
  try dsimp only
  repeat' first | with_reducible assumption | with_reducible apply State.takeCounts_kept | (split <;> try dsimp only)

theorem State.kthCmd_kept {s0 s : State} {who : Who} {op : Nat} (hs : Kept s0 s) : Kept s0 (State.kthCmd s who op) := by
  unfold State.kthCmd
  try dsimp only
  repeat' first | with_reducible assumption | with_reducible apply State.writeTo_kept

theorem State.fw_kept {s0 s : State} {f : Fld} {v : Nat} {i : optParam Nat 0} (hs : Kept s0 s) : Kept s0 (State.fw s f v i) := by
  unfold State.fw
  try dsimp only
  repeat' first | with_reducible assumption | with_reducible apply State.writeField_kept

theorem State.fwFields_kept {s0 s : State} {k : RegKind} {i : Nat} {fs : List (Fld × Nat)} (hs : Kept s0 s) : Kept s0
    (State.fwFields s k i fs) := by
  unfold State.fwFields
  try dsimp only
  repeat' first | with_reducible assumption | with_reducible apply State.writeTo_kept

theorem State.settleRun_kept {s0 s : State} {n : Nat} (hs : Kept s0 s) : Kept s0 (State.settleRun s n) := by
  unfold State.settleRun
  try dsimp only
  repeat' first
    | with_reducible assumption | with_reducible apply Kept.ite | with_reducible apply State.setOd_kept
    | with_reducible apply State.enterRun_kept | with_reducible apply State.startChanBindoff_kept | (split <;> try dsimp only)

theorem State.settleAll_kept {s0 s : State} (hs : Kept s0 s) : Kept s0 (State.settleAll s) := by
  unfold State.settleAll
  try dsimp only
  repeat' first
    | with_reducible assumption | with_reducible apply Kept.ite | with_reducible apply State.settleRun_kept
    | with_reducible apply Kept.foldl | (with_reducible intro x a hx; try dsimp only)

theorem State.enableChan_kept {s0 s : State} {n : Nat} (hs : Kept s0 s) : Kept2 s0 (State.enableChan s n) := by
  unfold State.enableChan
  try dsimp only
  repeat' first
    | with_reducible assumption | with_reducible apply Kept2.ite | with_reducible apply State.setOd_kept
    | with_reducible apply State.settleRun_kept | with_reducible apply State.fw_kept | with_reducible apply Kept2.mk
    | (split <;> try dsimp only) | with_reducible refine Kept.put ?_ (fun w => w) rfl rfl

theorem State.dropEnable_kept {s0 s : State} {n : Nat} (hs : Kept s0 s) : Kept s0 (State.dropEnable s n) := by
  unfold State.dropEnable
  try dsimp only
  repeat' first
    | with_reducible assumption | with_reducible apply State.setOd_kept | with_reducible apply State.settleChan_kept
    | with_reducible apply State.fw_kept | with_reducible apply State.startChanBindoff_kept
    | with_reducible refine Kept.put ?_ (fun w => w) rfl rfl

theorem State.disableChan_kept {s0 s : State} {n : Nat} (hs : Kept s0 s) : Kept2 s0 (State.disableChan s n) := by
  unfold State.disableChan
  try dsimp only
  repeat' first
    | with_reducible assumption | with_reducible apply Kept2.ite | with_reducible apply State.dropEnable_kept
    | with_reducible apply Kept2.mk

theorem State.putCam_kept {s0 s : State} {n : Nat} {r : CamRec} (hs : Kept s0 s) : Kept s0 (State.putCam s n r) := by
  unfold State.putCam
  try dsimp only
  repeat' first
    | with_reducible assumption | with_reducible apply Kept.ite | with_reducible apply State.fwFields_kept
    | with_reducible apply State.fw_kept | with_reducible apply Kept.foldl | (with_reducible intro x a hx; try dsimp only)

theorem State.putCamMap_kept {s0 s : State} {n : Nat} {b : List Byte} (hs : Kept s0 s) : Kept s0 (State.putCamMap s n b) := by
  unfold State.putCamMap
  try dsimp only
  repeat' first
    | with_reducible assumption | with_reducible apply Kept.ite | with_reducible apply State.fw_kept
    | with_reducible apply State.putCam_kept | with_reducible apply Kept.foldl | (with_reducible intro x a hx; try dsimp only)
    | (split <;> try dsimp only) | with_reducible refine Kept.put ?_ (fun w => w) rfl rfl

theorem State.putChan_kept {s0 s : State} {n sub v : Nat} (hs : Kept s0 s) : Kept s0 (State.putChan s n sub v) := by
  unfold State.putChan
  try dsimp only
  repeat' first
    | with_reducible assumption | with_reducible apply Kept.ite | with_reducible apply State.fw_kept
    | with_reducible apply State.writeTo_kept | with_reducible apply State.fwFields_kept
    | with_reducible apply State.setOd_kept | (split <;> try dsimp only)

theorem State.putMap_kept {s0 s : State} {idx sub v : Nat} (hs : Kept s0 s) : Kept2 s0 (State.putMap s idx sub v) := by
  unfold State.putMap
  try dsimp only
  repeat' first
    | with_reducible assumption | with_reducible apply Kept2.ite | with_reducible apply State.setOd_kept
    | with_reducible apply Kept2.mk

theorem State.mapMigrate_kept {s0 s : State} {b e n lpos : Nat} {nb : Option Nat} (hs : Kept s0 s) : Kept s0 (State.mapMigrate s
    b e n lpos nb) := by
  unfold State.mapMigrate
  try dsimp only
  repeat' first
    | with_reducible assumption | with_reducible apply State.setOd_kept | with_reducible apply State.setBed_kept
    | with_reducible apply State.migrate_kept

theorem State.putBed_kept {s0 s : State} {b v : Nat} (hs : Kept s0 s) : Kept2 s0 (State.putBed s b v) := by
  unfold State.putBed
  try dsimp only
  repeat' first
    | with_reducible assumption | with_reducible apply Kept2.ite | with_reducible apply State.mapMigrate_kept
    | with_reducible apply State.setFld_kept | with_reducible apply State.joinSet_kept
    | with_reducible apply State.fwFields_kept | with_reducible apply Kept2.mk

theorem State.putQueue_kept {s0 s : State} {q v : Nat} (hs : Kept s0 s) : Kept2 s0 (State.putQueue s q v) := by
  unfold State.putQueue
  try dsimp only
  repeat' first
    | with_reducible assumption | with_reducible apply Kept2.ite | with_reducible apply State.setOd_kept
    | with_reducible apply State.setPlq_kept | with_reducible apply State.fw_kept | with_reducible apply State.queueEntry_kept
    | with_reducible apply Kept2.mk

theorem State.storeRecords_kept {s0 s : State} {new : Option (List Byte)} (hs : Kept s0 s) : KeptO s0 (State.storeRecords s new) := by
  unfold State.storeRecords
  try dsimp only
  repeat' first | with_reducible assumption | with_reducible apply State.flashStore_kept

theorem State.recordRepairs_kept {s0 s : State} (hs : Kept s0 s) : Kept s0 (State.recordRepairs s) := by
  unfold State.recordRepairs
  try dsimp only
  repeat' first
    | with_reducible assumption | with_reducible refine Kept2.eq (by assumption) ?_
    | with_reducible refine KeptO.eq (by assumption) ?_ | with_reducible apply Kept.ite | with_reducible apply State.setOd_kept
    | with_reducible apply State.setFld_kept | with_reducible apply State.kthSign_kept
    | with_reducible apply State.storeRecords_kept | (split <;> try dsimp only)

theorem State.discardRecords_kept {s0 s : State} (hs : Kept s0 s) : Kept s0 (State.discardRecords s) := by
  unfold State.discardRecords
  try dsimp only
  repeat' first
    | with_reducible assumption | with_reducible refine KeptO.eq (by assumption) ?_
    | with_reducible apply State.storeRecords_kept | with_reducible apply State.setOd_kept | (split <;> try dsimp only)

theorem State.putGauge_kept {s0 s : State} {idx sub v : Nat} (hs : Kept s0 s) : Kept2 s0 (State.putGauge s idx sub v) := by
  unfold State.putGauge
  try dsimp only
  repeat' first
    | with_reducible assumption | with_reducible apply Kept.ite | with_reducible apply State.fw_kept
    | with_reducible apply State.setOd_kept | with_reducible apply State.planBeds_kept
    | with_reducible apply State.recordRepairs_kept | with_reducible apply State.discardRecords_kept
    | with_reducible apply Kept2.mk | (split <;> try dsimp only) | with_reducible refine Kept.put ?_ (fun w => w) rfl rfl

theorem State.putOut_kept {s0 s : State} {o sub v : Nat} (hs : Kept s0 s) : Kept2 s0 (State.putOut s o sub v) := by
  unfold State.putOut
  try dsimp only
  repeat' first
    | with_reducible assumption | with_reducible apply State.setOd_kept | with_reducible apply State.fw_kept
    | with_reducible apply State.fwFields_kept | with_reducible apply Kept2.mk | (split <;> try dsimp only)

theorem State.putEnc_kept {s0 s : State} {e sub v : Nat} (hs : Kept s0 s) : Kept s0 (State.putEnc s e sub v) := by
  unfold State.putEnc
  try dsimp only
  repeat' first
    | with_reducible assumption | with_reducible apply Kept.ite | with_reducible apply State.fwFields_kept
    | with_reducible apply State.fw_kept

theorem State.putTb_kept {s0 s : State} {sub v : Nat} (hs : Kept s0 s) : Kept2 s0 (State.putTb s sub v) := by
  unfold State.putTb
  try dsimp only
  repeat' first
    | with_reducible assumption | with_reducible apply State.fwFields_kept | with_reducible apply State.fw_kept
    | with_reducible apply State.writeTo_kept | with_reducible apply Kept2.mk | (split <;> try dsimp only)

theorem State.putTimeout_kept {s0 s : State} {sub v : Nat} (hs : Kept s0 s) : Kept s0 (State.putTimeout s sub v) := by
  unfold State.putTimeout
  try dsimp only
  repeat' first
    | with_reducible assumption | with_reducible apply State.fw_kept | with_reducible apply State.setOd_kept
    | with_reducible apply Kept.foldl | (with_reducible intro x a hx; try dsimp only) | (split <;> try dsimp only)

theorem State.putPower_kept {s0 s : State} {sub v : Nat} (hs : Kept s0 s) : Kept2 s0 (State.putPower s sub v) := by
  unfold State.putPower
  try dsimp only
  repeat' first
    | with_reducible assumption | with_reducible apply Kept2.ite | with_reducible apply State.fw_kept
    | with_reducible apply State.setOd_kept | with_reducible apply Kept2.mk

theorem State.odKeth_kept {s0 s : State} {o : KOp} (hs : Kept s0 s) : Kept2 s0 (State.odKeth s o) := by
  unfold State.odKeth
  try dsimp only
  repeat' first
    | with_reducible assumption | with_reducible apply Kept2.ite | with_reducible apply State.setOd_kept
    | with_reducible apply State.kthStart_kept | with_reducible apply Kept2.mk

theorem State.putTrust_kept {s0 s : State} {sub v : Nat} {bs : List Byte} (hs : Kept s0 s) : Kept2 s0 (State.putTrust s sub v
    bs) := by
  unfold State.putTrust
  try dsimp only
  repeat' first
    | with_reducible assumption | with_reducible apply State.fw_kept | with_reducible apply State.odKeth_kept
    | with_reducible apply Kept2.mk | with_reducible apply Kept.foldl | (with_reducible intro x a hx; try dsimp only)
    | (split <;> try dsimp only) | with_reducible apply Kept2.snd

theorem State.setSlot_kept {s0 s : State} {k : Nat} {x : ProgSlot} (hs : Kept s0 s) : Kept s0 (State.setSlot s k x) := by
  unfold State.setSlot
  try dsimp only
  repeat' first | with_reducible assumption | with_reducible refine Kept.put ?_ (fun w => w) rfl rfl

theorem State.slotVerify_kept {s0 s : State} {k : Nat} {im : List Byte} {fresh : Bool} (hs : Kept s0 s) : Kept s0
    (State.slotVerify s k im fresh) := by
  unfold State.slotVerify
  try dsimp only
  repeat' first
    | with_reducible assumption | with_reducible refine Kept2.eq (by assumption) ?_ | with_reducible apply Kept.ite
    | with_reducible apply Kept2.ite | with_reducible apply State.verifyCount_kept | with_reducible apply State.bump_kept
    | with_reducible apply State.setSlot_kept | with_reducible apply State.extend_kept | with_reducible apply Kept2.mk
    | (split <;> try dsimp only)

theorem State.slotStore_kept {s0 s : State} {k typ : Nat} {im : List Byte} (hs : Kept s0 s) : KeptO s0 (State.slotStore s k typ
    im) := by
  unfold State.slotStore
  try dsimp only
  repeat' first | with_reducible assumption | with_reducible apply State.flashStore_kept

theorem State.slotWrite_kept {s0 s : State} {k : Nat} {im : List Byte} (hs : Kept s0 s) : Kept2 s0 (State.slotWrite s k im) := by
  unfold State.slotWrite
  try dsimp only
  repeat' first
    | with_reducible assumption | with_reducible apply Kept2.ite | with_reducible apply State.slotVerify_kept
    | with_reducible apply Kept2.mk

theorem State.slotCommand_kept {s0 s : State} {k v : Nat} (hs : Kept s0 s) : Kept2 s0 (State.slotCommand s k v) := by
  unfold State.slotCommand
  try dsimp only
  repeat' first
    | with_reducible assumption | with_reducible refine KeptO.eq (by assumption) ?_ | with_reducible apply Kept2.ite
    | with_reducible apply State.setSlot_kept | with_reducible apply State.slotVerify_kept
    | with_reducible apply State.slotStore_kept | with_reducible apply Kept2.mk | (split <;> try dsimp only)

theorem State.startDevBindoff_kept {s0 s : State} {t : Nat} (hs : Kept s0 s) (ht : alLegal s0 = true → t = 0 ∨ t = 1 ∨ t = 2) :
    Kept s0 (State.startDevBindoff s t) := by
  unfold State.startDevBindoff
  refine Kept.foldl (Kept.foldl ⟨hs.queue, hs.mem, fun w => ?_⟩ fun x a hx => ?_) fun x a hx => ?_
  · have := hs.al w
    unfold alLegal at *
    simp only [Bool.and_eq_true] at *
    exact ⟨this.1, by simpa using ht (by simpa using w)⟩
  · split
    · exact State.dropEnable_kept hx
    · exact hx
  · split
    · exact State.fw_kept hx
    · exact hx

theorem State.devCommand_kept {s0 s : State} {v : Nat} (hs : Kept s0 s) : Kept2 s0 (State.devCommand s v) := by
  unfold State.devCommand
  try dsimp only
  repeat' first
    | with_reducible assumption | with_reducible apply State.startDevBindoff_kept | with_reducible apply State.setOd_kept
    | with_reducible apply State.fw_kept | with_reducible apply Kept2.mk | (intro _; decide) | (split <;> try dsimp only)

theorem State.odAct_kept {s0 s : State} {idx sub : Nat} {bs : List Byte} (hs : Kept s0 s) : Kept2 s0 (State.odAct s idx sub bs) := by
  unfold State.odAct
  try dsimp only
  repeat' first
    | with_reducible assumption | with_reducible apply Kept2.ite | with_reducible apply State.putMap_kept
    | with_reducible apply State.devCommand_kept | with_reducible apply State.enableChan_kept
    | with_reducible apply State.disableChan_kept | with_reducible apply State.putCamMap_kept
    | with_reducible apply State.putChan_kept | with_reducible apply State.putBed_kept
    | with_reducible apply State.putQueue_kept | with_reducible apply State.putGauge_kept
    | with_reducible apply State.putOut_kept | with_reducible apply State.putEnc_kept | with_reducible apply State.putTb_kept
    | with_reducible apply State.putTimeout_kept | with_reducible apply State.putPower_kept
    | with_reducible apply State.putTrust_kept | with_reducible apply State.clearTally_kept
    | with_reducible apply State.slotWrite_kept | with_reducible apply State.slotCommand_kept
    | with_reducible apply State.setOd_kept | with_reducible apply Kept2.mk

theorem State.odWrite_kept {s0 s : State} {path : Path} {idx sub : Nat} {bs : List Byte} (hs : Kept s0 s) :
    Kept2 s0 (State.odWrite s path idx sub bs) := by
  unfold State.odWrite
  dsimp only
  split
  · exact Kept2.mk hs
  · split
    · exact Kept2.mk hs
    · exact State.odAct_kept hs

theorem State.odWrites_kept {s0 s : State} {path : Path} {idx : Nat} {a : List (Nat × List Byte)} (hs : Kept s0 s) : Kept2 s0
    (State.odWrites s path idx a) := by
  induction a generalizing s with
  | nil =>
    unfold State.odWrites
    try dsimp only
    repeat' first
      | with_reducible assumption | with_reducible apply Kept2.ite | with_reducible apply State.odWrite_kept
      | with_reducible apply Kept2.mk | with_reducible apply Kept2.snd
  | cons e l ih =>
    unfold State.odWrites
    try dsimp only
    repeat' first
      | with_reducible apply ih | with_reducible assumption | with_reducible apply Kept2.ite
      | with_reducible apply State.odWrite_kept | with_reducible apply Kept2.mk | with_reducible apply Kept2.snd

theorem State.odDownload_kept {s0 s : State} {path : Path} {idx sub : Nat} {ca : Bool} {bs : List Byte} (hs : Kept s0 s) : Kept2
    s0 (State.odDownload s path idx sub ca bs) := by
  unfold State.odDownload
  try dsimp only
  repeat' first
    | with_reducible assumption | with_reducible apply Kept2.ite | with_reducible apply State.odWrite_kept
    | with_reducible apply State.odWrites_kept | with_reducible apply Kept2.mk | (split <;> try dsimp only)
    | with_reducible apply Kept2.snd

theorem State.odUpload_kept {s0 s : State} {idx sub : Nat} {ca : Bool} (hs : Kept s0 s) :
    Kept3 s0 (State.odUpload s idx sub ca) := by
  unfold State.odUpload
  split
  · split
    · exact hs
    · refine Kept3.mk (Kept2.snd (Kept2.foldl (Kept2.mk hs) fun x a hx => ?_))
      dsimp only
      split
      · split
        · exact Kept2.mk (Kept2.snd (State.odRead_kept (Kept2.snd hx)))
        · exact Kept2.mk (Kept2.snd hx)
      · exact hx
  · split
    · exact hs
    · split
      · split <;> exact hs
      · exact Kept3.mk (Kept2.snd (State.odRead_kept hs))

theorem State.safeDownload_kept {s0 s : State} {idx sub : Nat} {bs : List Byte} (hs : Kept s0 s) : Kept2 s0 (State.safeDownload
    s idx sub bs) := by
  unfold State.safeDownload
  try dsimp only
  repeat' first
    | with_reducible assumption | with_reducible refine KeptO.eq (by assumption) ?_ | with_reducible apply Kept2.ite
    | with_reducible apply State.slotStore_kept | with_reducible apply Kept2.mk | (split <;> try dsimp only)

theorem State.safeUpload_kept {s0 s : State} {idx sub : Nat} {ca : Bool} (hs : Kept s0 s) : Kept3 s0 (State.safeUpload s idx sub
    ca) := by
  unfold State.safeUpload
  try dsimp only
  repeat' first
    | with_reducible assumption | with_reducible apply Kept3.ite | with_reducible apply State.odUpload_kept
    | with_reducible apply Kept3.mk

theorem State.serveDownload_kept {s0 s : State} {path : Path} {idx sub : Nat} {ca : Bool} {bs : List Byte} (hs : Kept s0 s) :
    Kept2 s0 (State.serveDownload s path idx sub ca bs) := by
  unfold State.serveDownload
  try dsimp only
  repeat' first
    | with_reducible assumption | with_reducible apply Kept2.ite | with_reducible apply State.safeDownload_kept
    | with_reducible apply State.odDownload_kept

theorem State.serveUpload_kept {s0 s : State} {idx sub : Nat} {ca : Bool} (hs : Kept s0 s) : Kept3 s0 (State.serveUpload s idx
    sub ca) := by
  unfold State.serveUpload
  try dsimp only
  repeat' first
    | with_reducible assumption | with_reducible apply Kept3.ite | with_reducible apply State.safeUpload_kept
    | with_reducible apply State.odUpload_kept

theorem State.answerHost_kept {s0 s : State} {idx sub a : Nat} {data : List Byte} {seg more : Nat} (hs : Kept s0 s) : Kept s0
    (State.answerHost s idx sub a data seg more) := by
  unfold State.answerHost
  try dsimp only
  repeat' first
    | with_reducible assumption | with_reducible apply State.setFld_kept | with_reducible apply State.msix_kept
    | with_reducible apply State.send_kept

theorem State.answerPlc_kept {s0 s : State} {idx sub a : Nat} {data : List Byte} (hs : Kept s0 s) : Kept s0 (State.answerPlc s
    idx sub a data) := by
  unfold State.answerPlc
  try dsimp only
  repeat' first | with_reducible assumption | with_reducible apply State.send_kept

theorem State.setSegs_kept {s0 s : State} {x : Option Segs} (hs : Kept s0 s) : Kept s0 (State.setSegs s x) := by
  unfold State.setSegs
  try dsimp only
  repeat' first
    | with_reducible assumption | (split <;> try dsimp only) | with_reducible refine Kept.put ?_ (fun w => w) rfl rfl

theorem State.afterAnswer_kept {s0 s : State} {idx sub a : Nat} {bs : List Byte} (hs : Kept s0 s) : Kept s0 (State.afterAnswer s
    idx sub a bs) := by
  unfold State.afterAnswer
  try dsimp only
  repeat' first | with_reducible assumption | with_reducible apply Kept.ite | with_reducible apply State.systemReset_kept

theorem State.plcDownload_kept {s0 s : State} {idx sub : Nat} {ca : Bool} {bs : List Byte} (hs : Kept s0 s) : Kept s0
    (State.plcDownload s idx sub ca bs) := by
  unfold State.plcDownload
  try dsimp only
  repeat' first
    | with_reducible assumption | with_reducible apply State.serveDownload_kept | with_reducible apply State.afterAnswer_kept
    | with_reducible apply State.answerPlc_kept | with_reducible apply Kept2.snd

theorem State.hostRun_kept {s0 s : State} {idx sub : Nat} {ca : Bool} {bs : List Byte} (hs : Kept s0 s) : Kept s0 (State.hostRun
    s idx sub ca bs) := by
  unfold State.hostRun
  try dsimp only
  repeat' first
    | with_reducible assumption | with_reducible apply State.serveDownload_kept | with_reducible apply State.afterAnswer_kept
    | with_reducible apply State.answerHost_kept | with_reducible apply Kept2.snd

theorem State.hostDownload_kept {s0 s : State} {idx sub : Nat} {ca : Bool} (hs : Kept s0 s) : Kept s0 (State.hostDownload s idx
    sub ca) := by
  unfold State.hostDownload
  try dsimp only
  repeat' first
    | with_reducible assumption | with_reducible apply Kept.ite | with_reducible apply State.answerHost_kept
    | with_reducible apply State.setSegs_kept | with_reducible apply State.hostRun_kept | (split <;> try dsimp only)

theorem State.hostUpload_kept {s0 s : State} {idx sub : Nat} {ca : Bool} (hs : Kept s0 s) : Kept s0 (State.hostUpload s idx sub
    ca) := by
  unfold State.hostUpload
  try dsimp only
  repeat' first
    | with_reducible assumption | with_reducible apply Kept.ite | with_reducible apply State.serveUpload_kept
    | with_reducible apply State.answerHost_kept | with_reducible apply State.setFld_kept | with_reducible apply Kept.foldl
    | (with_reducible intro x a hx; try dsimp only) | with_reducible apply Kept3.snd

theorem State.download_kept {s0 s : State} {path : Path} {idx sub : Nat} {ca : Bool} {bs : List Byte} (hs : Kept s0 s) : Kept s0
    (State.download s path idx sub ca bs) := by
  unfold State.download
  try dsimp only
  repeat' first
    | with_reducible assumption | with_reducible apply State.when_kept | with_reducible apply State.plcDownload_kept
    | with_reducible apply State.raise_kept | with_reducible apply State.hostDownload_kept
    | (with_reducible intro x hx; try dsimp only) | (split <;> try dsimp only)

theorem State.upload_kept {s0 s : State} {path : Path} {idx sub : Nat} {ca : Bool} (hs : Kept s0 s) : Kept s0 (State.upload s
    path idx sub ca) := by
  unfold State.upload
  try dsimp only
  repeat' first
    | with_reducible assumption | with_reducible apply State.when_kept | with_reducible apply State.serveUpload_kept
    | with_reducible apply State.raise_kept | with_reducible apply State.answerPlc_kept
    | with_reducible apply State.hostUpload_kept | (with_reducible intro x hx; try dsimp only) | (split <;> try dsimp only)
    | with_reducible apply Kept3.snd

theorem State.foeWrite_kept {s0 s : State} {file : Nat} {data : List Byte} (hs : Kept s0 s) : Kept2 s0 (State.foeWrite s file
    data) := by
  unfold State.foeWrite
  try dsimp only
  repeat' first
    | with_reducible assumption | with_reducible refine KeptO.eq (by assumption) ?_ | with_reducible apply Kept2.ite
    | with_reducible apply State.slotStore_kept | with_reducible apply State.slotVerify_kept | with_reducible apply Kept2.mk
    | (split <;> try dsimp only)

theorem State.driveCore_kept {s0 s : State} {on : Bool} (hs : Kept s0 s) : Kept s0 (State.driveCore s on) := by
  unfold State.driveCore
  try dsimp only
  repeat' first
    | with_reducible assumption | with_reducible apply State.send_kept | with_reducible refine Kept.put ?_ (fun w => w) rfl rfl

theorem State.noteSupply_kept {s0 s : State} {x : Supply} (hs : Kept s0 s) : Kept s0 (State.noteSupply s x) := by
  unfold State.noteSupply
  try dsimp only
  repeat' first | with_reducible assumption | with_reducible apply State.setFld_kept | (split <;> try dsimp only)

theorem State.setAl_kept {s0 s : State} {al code : Nat} (hs : Kept s0 s)
    (ha : alLegal s0 = true → al = 1 ∨ al = 2 ∨ al = 3 ∨ al = 4 ∨ al = 8) : Kept s0 (State.setAl s al code) := by
  unfold State.setAl
  refine State.raise_kept (State.send_kept ⟨hs.queue, hs.mem, fun w => ?_⟩)
  have := hs.al w
  unfold alLegal at *
  simp only [Bool.and_eq_true] at *
  exact ⟨by simpa using ha (by simpa using w), this.2⟩

theorem State.refuseAl_kept {s0 s : State} {code : Nat} (hs : Kept s0 s) : Kept s0 (State.refuseAl s code) := by
  unfold State.refuseAl
  refine State.setAl_kept hs fun w => ?_
  have := hs.al w
  unfold alLegal at this
  simp only [Bool.and_eq_true] at this
  simpa using this.1

theorem State.toPreop_kept {s0 s : State} {smOk : Bool} (hs : Kept s0 s) : Kept s0 (State.toPreop s smOk) := by
  unfold State.toPreop
  try dsimp only
  repeat' first
    | with_reducible assumption | with_reducible apply Kept.ite | with_reducible apply State.refuseAl_kept
    | with_reducible apply State.setAl_kept | (intro _; decide) | with_reducible refine Kept.put ?_ (fun w => w) rfl rfl

theorem State.checkEnabled_kept {s0 s : State} (hs : Kept s0 s) : Kept s0 (State.checkEnabled s) := by
  unfold State.checkEnabled
  try dsimp only
  repeat' first
    | with_reducible assumption | with_reducible apply Kept.ite | with_reducible apply State.setOd_kept
    | with_reducible apply Kept.foldl | (with_reducible intro x a hx; try dsimp only)

theorem State.toSafeop_kept {s0 s : State} {dcOk : Bool} (hs : Kept s0 s) : Kept s0 (State.toSafeop s dcOk) := by
  unfold State.toSafeop
  try dsimp only
  repeat' first
    | with_reducible assumption | with_reducible apply Kept.ite | with_reducible apply State.refuseAl_kept
    | with_reducible apply State.checkEnabled_kept | with_reducible apply State.settleAll_kept
    | with_reducible apply State.setAl_kept | (intro _; decide)

theorem State.toOp_kept {s0 s : State} (hs : Kept s0 s) : Kept s0 (State.toOp s) := by
  unfold State.toOp
  try dsimp only
  repeat' first
    | with_reducible assumption | with_reducible apply Kept.ite | with_reducible apply State.refuseAl_kept
    | with_reducible apply State.setAl_kept | with_reducible apply State.fw_kept | (intro _; decide)
    | with_reducible refine Kept.put ?_ (fun w => w) rfl rfl

theorem State.fallArm_kept {s0 s : State} (hs : Kept s0 s) : Kept s0 (State.fallArm s) := by
  unfold State.fallArm
  try dsimp only
  repeat' first | with_reducible assumption | with_reducible apply Kept.ite | with_reducible apply State.fw_kept

theorem State.fieldbusLoss_kept {s0 s : State} (hs : Kept s0 s) : Kept s0 (State.fieldbusLoss s) := by
  unfold State.fieldbusLoss
  try dsimp only
  repeat' first
    | with_reducible assumption | with_reducible apply Kept.ite | with_reducible apply State.dropEnable_kept
    | with_reducible apply Kept.foldl | (with_reducible intro x a hx; try dsimp only)

theorem State.fallTo_kept {s0 s : State} {t : Nat} (hs : Kept s0 s) (ht : alLegal s0 = true → t = 0 ∨ t = 1 ∨ t = 2) :
    Kept s0 (State.fallTo s t) := by
  unfold State.fallTo
  split
  · exact State.setAl_kept hs fun _ => by decide
  · split
    · refine ⟨hs.queue, hs.mem, fun w => ?_⟩
      have := hs.al w
      unfold alLegal at *
      simp only [Bool.and_eq_true] at *
      exact ⟨this.1, by simpa using ht (by simpa using w)⟩
    · exact State.startDevBindoff_kept hs ht

theorem State.endDevBindoff_kept {s0 s : State} (hs : Kept s0 s) : Kept s0 (State.endDevBindoff s) := by
  unfold State.endDevBindoff
  split
  · exact hs
  · rename_i t ht
    have h0 : Kept s0 { s with ect := { s.ect with bindoff := none, cut := false } } :=
      ⟨hs.queue, hs.mem, fun w => by
        have := hs.al w
        unfold alLegal at *
        simp only [Bool.and_eq_true] at *
        exact ⟨this.1, trivial⟩⟩
    have h1 : Kept s0 (({ s with ect := { s.ect with bindoff := none, cut := false } }.finish 0x2000 3 true).fw F.TIO_ARM_DISARM 1) :=
      State.fw_kept (State.finish_kept h0)
    dsimp only
    split
    · exact h1
    · refine State.setAl_kept h1 fun w => ?_
      have := hs.al w
      unfold alLegal at this
      rw [ht] at this
      simp only [Bool.and_eq_true, decide_eq_true_eq] at this
      omega

end Sys2Proof.Machine
end

