-- ==== Sys2Proof/Laws/Kept6.lean ====
section
/-!
SUPPORT. Sys2Proof/Laws/Kept6.lean: the operations that keep the queue, the form of memory and the legality of the AL state
(Sys2Proof/Laws/Kept.lean), one lemma each: Esm, HookFp, HookSys, HookMem, HookCall, HookCap, HookExc, HookInt, HookRep,
HostIf.
-/
namespace Sys2Proof.Machine

theorem State.copyResults_kept {s0 s : State} {n : Nat} (hs : Kept s0 s) : Kept s0 (State.copyResults s n) := by
  unfold State.copyResults
  try dsimp only
  repeat' first
    | with_reducible assumption | with_reducible apply Kept.ite | with_reducible apply State.setOd_kept
    | with_reducible apply Kept.foldl | (with_reducible intro x a hx; try dsimp only)

theorem State.txEntry_kept {s0 s : State} {e : Nat} (hs : Kept s0 s) : Kept2 s0 (State.txEntry s e) := by
  unfold State.txEntry
  try dsimp only
  repeat' first
    | with_reducible assumption | with_reducible apply Kept2.ite | with_reducible apply State.odRead_kept
    | with_reducible apply Kept2.mk | with_reducible apply Kept2.snd

theorem State.latchInputs_kept {s0 s : State} (hs : Kept s0 s) : Kept s0 (State.latchInputs s) := by
  unfold State.latchInputs
  have h : Kept s0 ((List.range 16).foldl State.copyResults s) := Kept.foldl hs fun x a hx => State.copyResults_kept hx
  generalize (List.range 16).foldl State.copyResults s = u at h
  dsimp only
  have k : Kept2 s0 (u.txMap.foldl (fun (a : List Byte × State) e => (a.1 ++ (a.2.txEntry e).1, (a.2.txEntry e).2)) ([], u)) :=
    Kept2.foldl (Kept2.mk h) fun x a hx => Kept2.mk (Kept2.snd (State.txEntry_kept (Kept2.snd hx)))
  generalize u.txMap.foldl (fun (a : List Byte × State) e => (a.1 ++ (a.2.txEntry e).1, (a.2.txEntry e).2)) ([], u) = r at k
  exact State.send_kept (Kept.put (Kept2.snd k) (fun w => w) rfl rfl)

theorem State.applyRx_kept {s0 s : State} {m : List Nat} {bs : List Byte} (hs : Kept s0 s) : Kept s0 (State.applyRx m bs s) := by
  induction m generalizing s bs with
  | nil => exact hs
  | cons e t ih =>
    unfold State.applyRx
    refine ih ?_
    split
    · exact hs
    · exact State.setOd_kept hs

theorem State.commandBlock_kept {s0 s : State} {n : Nat} (hs : Kept s0 s) : Kept s0 (State.commandBlock s n) := by
  unfold State.commandBlock
  try dsimp only
  repeat' first | with_reducible assumption | with_reducible apply Kept.ite | with_reducible apply State.store_kept

theorem State.dcSync_kept {s0 s : State} {k : Nat} {missed : Bool} (hs : Kept s0 s) : Kept s0 (State.dcSync s k missed) := by
  unfold State.dcSync
  try dsimp only
  repeat' first
    | with_reducible assumption | with_reducible apply Kept.ite | with_reducible apply State.raise_kept
    | with_reducible apply State.setOd_kept | with_reducible apply State.emergency_kept
    | with_reducible refine Kept.put ?_ (fun w => w) rfl rfl

theorem State.hookFp_kept {s0 s : State} {a : HI} {m : Fmt} {srcs : List Nat} {fd count : Nat} {f : FCtl → Thread → Nat × Nat}
    (hs : Kept s0 s) : KeptX s0 (State.hookFp s a m srcs fd count f) := by
  unfold State.hookFp
  try dsimp only
  repeat' first
    | with_reducible assumption | with_reducible apply State.hookIssue_kept | with_reducible apply State.setF_kept
    | with_reducible apply State.updTh_kept | with_reducible apply KeptX.next | with_reducible apply KeptH.ok
    | (with_reducible intro x hx; try dsimp only)

theorem State.hookFcmp_kept {s0 s : State} {a : HI} {m : Fmt} {fa fb : Nat} {signal : Bool} (hs : Kept s0 s) : KeptX s0
    (State.hookFcmp s a m fa fb signal) := by
  unfold State.hookFcmp
  try dsimp only
  repeat' first | with_reducible assumption | with_reducible apply State.hookReg_kept

theorem State.jump_kept {s0 s : State} {a : HI} {target : Nat} (hs : Kept s0 s) : KeptH s0 (State.jump s a target) := by
  unfold State.jump
  try dsimp only
  repeat' first
    | with_reducible assumption | with_reducible apply State.updTh_kept | with_reducible apply KeptH.ok
    | with_reducible apply KeptH.fault | (split <;> try dsimp only)

theorem State.jumpCap_kept {s0 s : State} {a : HI} {c : CapV} (hs : Kept s0 s) : KeptH s0 (State.jumpCap s a c) := by
  unfold State.jumpCap
  try dsimp only
  repeat' first
    | with_reducible assumption | with_reducible apply State.updTh_kept | with_reducible apply KeptH.ok
    | with_reducible apply KeptH.fault | (split <;> try dsimp only)

theorem State.branch_kept {s0 s : State} {a : HI} {rel : DWord} (hs : Kept s0 s) : KeptH s0 (State.branch s a rel) := by
  unfold State.branch
  try dsimp only
  repeat' first | with_reducible assumption | with_reducible apply State.jump_kept

theorem State.cbranch_kept {s0 s : State} {a : HI} {rn : Nat} {rel : DWord} {zero : Bool} (hs : Kept s0 s) : Kept s0
    (State.cbranch s a rn rel zero) := by
  unfold State.cbranch
  try dsimp only
  repeat' first
    | with_reducible assumption | with_reducible apply State.hookIssue_kept | with_reducible apply State.branch_kept
    | with_reducible apply KeptH.ok | (with_reducible intro x hx; try dsimp only) | (split <;> try dsimp only)

theorem State.haltThread_kept {s0 s : State} {c t : Nat} {e : Exc} (hs : Kept s0 s) : Kept s0 (State.haltThread s c t e) := by
  unfold State.haltThread
  try dsimp only
  repeat' first
    | with_reducible assumption | with_reducible apply State.updTh_kept | with_reducible apply State.setFld_kept
    | with_reducible apply State.setReg_kept | with_reducible apply State.setPair_kept

theorem State.arrive_kept {s0 s : State} {a : HI} {b : Barrier} {legal : Bool} (hs : Kept s0 s) : Kept s0 (State.arrive s a b
    legal) := by
  unfold State.arrive
  try dsimp only
  repeat' first
    | with_reducible assumption | with_reducible apply State.hookIssue_kept | with_reducible apply State.updTh_kept
    | with_reducible apply KeptH.ok | with_reducible apply KeptH.fault | (with_reducible intro x hx; try dsimp only)
    | (split <;> try dsimp only)

theorem State.storePlqCap_kept {s0 s : State} {who : Who} {a : Nat} {bits : Quad} {tag : Bool} (hs : Kept s0 s) : Kept s0
    (State.storePlqCap s who a bits tag) := by
  unfold State.storePlqCap
  try dsimp only
  repeat' first
    | with_reducible assumption | with_reducible apply Kept.ite | with_reducible apply State.storeAddr_kept
    | with_reducible apply State.setPlq_kept | with_reducible apply Kept.foldl | (with_reducible intro x a hx; try dsimp only)
    | (split <;> try dsimp only)

theorem State.performStore_kept {s0 s : State} {core thr : Nat} {e : SbEntry} (hs : Kept s0 s) : Kept s0 (State.performStore s
    core thr e) := by
  unfold State.performStore
  try dsimp only
  repeat' first
    | with_reducible assumption | with_reducible apply Kept.ite | with_reducible apply State.storePlqCap_kept
    | with_reducible apply State.storeAddr_kept | with_reducible apply State.storeCap_kept
    | with_reducible apply State.store_kept | with_reducible apply Kept.foldl | (with_reducible intro x a hx; try dsimp only)

theorem State.drainOldest_kept {s0 s : State} {c t : Nat} (hs : Kept s0 s) : Kept s0 (State.drainOldest s c t) := by
  unfold State.drainOldest
  try dsimp only
  repeat' first
    | with_reducible assumption | with_reducible apply State.performStore_kept | with_reducible apply State.updTh_kept
    | (split <;> try dsimp only)

theorem State.drainN_kept {s0 s : State} {c t a : Nat} (hs : Kept s0 s) : Kept s0 (State.drainN s c t a) := by
  induction a generalizing s with
  | zero =>
    unfold State.drainN
    try dsimp only
    repeat' first | with_reducible assumption | with_reducible apply State.drainOldest_kept
  | succ k ih =>
    unfold State.drainN
    try dsimp only
    repeat' first | with_reducible apply ih | with_reducible assumption | with_reducible apply State.drainOldest_kept

theorem State.drainAll_kept {s0 s : State} {c t : Nat} (hs : Kept s0 s) : Kept s0 (State.drainAll s c t) := by
  unfold State.drainAll
  try dsimp only
  repeat' first | with_reducible assumption | with_reducible apply State.drainN_kept

theorem State.drainThrough_kept {s0 s : State} {c t : Nat} {p : SbEntry → Bool} (hs : Kept s0 s) : Kept s0 (State.drainThrough s
    c t p) := by
  unfold State.drainThrough
  try dsimp only
  repeat' first | with_reducible assumption | with_reducible apply State.drainN_kept

theorem State.enterStore_kept {s0 s : State} {c t : Nat} {e : SbEntry} (hs : Kept s0 s) : Kept s0 (State.enterStore s c t e) := by
  unfold State.enterStore
  try dsimp only
  repeat' first
    | with_reducible assumption | with_reducible apply Kept.ite | with_reducible apply State.updTh_kept
    | with_reducible apply State.drainThrough_kept | (split <;> try dsimp only)

theorem State.notePrefetch_kept {s0 s : State} {c t a n : Nat} (hs : Kept s0 s) : Kept s0 (State.notePrefetch s c t a n) := by
  unfold State.notePrefetch
  try dsimp only
  repeat' first | with_reducible assumption | with_reducible apply Kept.ite | with_reducible apply State.bump_kept

theorem State.bufStore_kept {s0 s : State} {c t : Nat} {cap : CapV} {ea n v : Nat} {tag : Bool} (hs : Kept s0 s) : Kept s0
    (State.bufStore s c t cap ea n v tag) := by
  unfold State.bufStore
  try dsimp only
  repeat' first
    | with_reducible assumption | with_reducible apply State.enterStore_kept | with_reducible apply State.notePrefetch_kept

theorem State.fpstWait_kept {s0 s : State} {c t ea : Nat} (hs : Kept s0 s) : Kept s0 (State.fpstWait s c t ea) := by
  unfold State.fpstWait
  try dsimp only
  repeat' first | with_reducible assumption | with_reducible apply Kept.ite | with_reducible apply State.settle_kept

theorem State.getCtrl_kept {s0 s : State} {c t : Nat} {cap : CapV} {ea : Nat} (hs : Kept s0 s) : KeptG s0 (State.getCtrl s c t
    cap ea) := by
  unfold State.getCtrl
  try dsimp only
  repeat' first
    | with_reducible assumption | with_reducible apply State.fpstWait_kept | with_reducible apply State.drainThrough_kept
    | with_reducible apply State.loadReg_kept | with_reducible apply KeptG.mk | (split <;> try dsimp only)
    | with_reducible apply Kept2.snd

theorem State.beforeLoad_kept {s0 s : State} {c t : Nat} {cap : CapV} {ea n : Nat} (hs : Kept s0 s) : Kept s0 (State.beforeLoad
    s c t cap ea n) := by
  unfold State.beforeLoad
  try dsimp only
  repeat' first | with_reducible assumption | with_reducible apply Kept.ite | with_reducible apply State.drainThrough_kept

theorem State.getMem_kept {s0 s : State} {c t : Nat} {cap : CapV} {ea n : Nat} (hs : Kept s0 s) : KeptG s0 (State.getMem s c t
    cap ea n) := by
  unfold State.getMem
  try dsimp only
  repeat' first
    | with_reducible assumption | with_reducible apply State.getCtrl_kept | with_reducible apply State.beforeLoad_kept
    | with_reducible apply State.load_kept | with_reducible apply KeptG.mk | (split <;> try dsimp only)
    | with_reducible apply Kept3.snd | with_reducible apply KeptG.proj

theorem State.doLoad_kept {s0 s : State} {a : HI} {m : MOp} {n : Nat} {perms : List Nat} {vec : Bool} {dest : Thread → HReg}
    {conv : Nat → Nat} (hs : Kept s0 s) : KeptH s0 (State.doLoad s a m n perms vec dest conv) := by
  unfold State.doLoad
  try dsimp only
  repeat' first
    | with_reducible assumption | with_reducible apply State.getMem_kept | with_reducible apply State.updTh_kept
    | with_reducible apply KeptH.ok | with_reducible apply KeptH.fault | (split <;> try dsimp only)
    | with_reducible apply KeptG.proj

theorem State.loadIns_kept {s0 s : State} {a : HI} {m : MOp} {n count : Nat} {perms : List Nat} {vec : Bool} {dest : Thread →
    HReg} {conv : Nat → Nat} (hs : Kept s0 s) : KeptX s0 (State.loadIns s a m n count perms vec dest conv) := by
  unfold State.loadIns
  try dsimp only
  repeat' first
    | with_reducible assumption | with_reducible apply State.hookIssue_kept | with_reducible apply State.doLoad_kept
    | with_reducible apply KeptX.next | (with_reducible intro x hx; try dsimp only)

theorem State.doStore_kept {s0 s : State} {a : HI} {m : MOp} {n : Nat} {perms : List Nat} {v : Nat} {tag : Bool} (hs : Kept s0
    s) : KeptH s0 (State.doStore s a m n perms v tag) := by
  unfold State.doStore
  try dsimp only
  repeat' first
    | with_reducible assumption | with_reducible apply State.updTh_kept | with_reducible apply State.bufStore_kept
    | with_reducible apply KeptH.ok | with_reducible apply KeptH.fault | (split <;> try dsimp only)

theorem State.storeIns_kept {s0 s : State} {a : HI} {m : MOp} {n : Nat} {perms : List Nat} {src : Thread → List HReg} {val :
    Thread → Nat × Bool} (hs : Kept s0 s) : KeptX s0 (State.storeIns s a m n perms src val) := by
  unfold State.storeIns
  try dsimp only
  repeat' first
    | with_reducible assumption | with_reducible apply State.hookIssue_kept | with_reducible apply State.doStore_kept
    | with_reducible apply KeptX.next | (with_reducible intro x hx; try dsimp only)

theorem State.doStv_kept {s0 s : State} {a : HI} {m : MOp} {n v : Nat} (hs : Kept s0 s) : KeptH s0 (State.doStv s a m n v) := by
  unfold State.doStv
  try dsimp only
  repeat' first
    | with_reducible assumption | with_reducible apply State.updTh_kept | with_reducible apply State.store_kept
    | with_reducible apply State.notePrefetch_kept | with_reducible apply State.drainAll_kept | with_reducible apply KeptH.ok
    | with_reducible apply KeptH.fault | (split <;> try dsimp only)

theorem State.gather_kept {s0 s : State} {a : HI} {cap : CapV} {n e : Nat} {l : List Nat} (hs : Kept s0 s) :
    Kept2 s0 (State.gather s a cap n e l) := by
  induction l generalizing s e with
  | nil => exact Kept2.mk hs
  | cons x t ih =>
    unfold State.gather
    split
    · exact Kept2.mk hs
    · split
      · exact Kept2.mk hs
      · have hg := KeptG.proj (State.getMem_kept (c := a.core) (t := a.thr) (cap := cap) (ea := x) (n := n) hs)
        dsimp only
        split
        · exact Kept2.mk hg
        · split
          · rename_i h; exact Kept2.mk (Kept2.eq h (ih hg))
          · rename_i h; exact Kept2.mk (Kept2.eq h (ih hg))

theorem State.doCas_kept {s0 s : State} {a : HI} {z : Sz} {rd rs : Nat} {m : MOp} (hs : Kept s0 s) : KeptH s0 (State.doCas s a z
    rd rs m) := by
  unfold State.doCas
  try dsimp only
  repeat' first
    | with_reducible assumption | with_reducible apply Kept.ite | with_reducible apply State.drainAll_kept
    | with_reducible apply State.load_kept | with_reducible apply State.store_kept
    | with_reducible apply State.notePrefetch_kept | with_reducible apply State.updTh_kept | with_reducible apply KeptH.ok
    | with_reducible apply KeptH.fault | (split <;> try dsimp only) | with_reducible apply Kept3.snd

theorem State.busTimeout_kept {s0 s : State} {who : Who} {a : Nat} {wr : Bool} (hs : Kept s0 s) : Kept s0 (State.busTimeout s
    who a wr) := by
  unfold State.busTimeout
  try dsimp only
  repeat' first
    | with_reducible assumption | with_reducible apply Kept.ite | with_reducible apply State.expiry_kept
    | with_reducible apply State.bump_kept | with_reducible apply State.setReg_kept | with_reducible apply State.raise_kept
    | with_reducible apply State.updTh_kept | (split <;> try dsimp only)
    | with_reducible refine Kept.put ?_ (fun w => w) rfl rfl

theorem State.callTo_kept {s0 s : State} {a : HI} {p : CapV} (hs : Kept s0 s) : KeptH s0 (State.callTo s a p) := by
  unfold State.callTo
  try dsimp only
  repeat' first
    | with_reducible assumption | with_reducible apply State.bufStore_kept | with_reducible apply State.updTh_kept
    | with_reducible apply KeptH.ok | with_reducible apply KeptH.fault | (split <;> try dsimp only)

theorem State.doRet_kept {s0 s : State} {a : HI} (hs : Kept s0 s) : KeptH s0 (State.doRet s a) := by
  unfold State.doRet
  try dsimp only
  repeat' first
    | with_reducible assumption | with_reducible apply State.getMem_kept | with_reducible apply State.updTh_kept
    | with_reducible apply KeptH.ok | with_reducible apply KeptH.fault | (split <;> try dsimp only)
    | with_reducible apply KeptG.proj

theorem State.spillRegs_kept {s0 s : State} {a : HI} {w : CapV} {ea : Nat} {l : List Nat} (hs : Kept s0 s) :
    Kept2 s0 (State.spillRegs s a w ea l) := by
  induction l generalizing s ea with
  | nil => exact Kept2.mk hs
  | cons x t ih =>
    unfold State.spillRegs
    dsimp only
    split
    · exact Kept2.mk hs
    · exact ih (State.bufStore_kept hs)

theorem State.fillRegs_kept {s0 s : State} {a : HI} {w : CapV} {ea : Nat} {l : List Nat} (hs : Kept s0 s) :
    Kept2 s0 (State.fillRegs s a w ea l) := by
  induction l generalizing s ea with
  | nil => exact Kept2.mk hs
  | cons x t ih =>
    unfold State.fillRegs
    split
    · exact Kept2.mk hs
    · have hg := KeptG.proj (State.getMem_kept (c := a.core) (t := a.thr) (cap := w) (ea := ea) (n := 8) hs)
      dsimp only
      split
      · exact Kept2.mk hg
      · split
        · rename_i h; exact Kept2.mk (Kept2.eq h (ih hg))
        · rename_i h; exact Kept2.mk (Kept2.eq h (ih hg))

theorem State.doWopen_kept {s0 s : State} {a : HI} (hs : Kept s0 s) : KeptH s0 (State.doWopen s a) := by
  unfold State.doWopen
  try dsimp only
  repeat' first
    | with_reducible assumption | with_reducible refine Kept2.eq (by assumption) ?_ | with_reducible apply State.updTh_kept
    | with_reducible apply State.spillRegs_kept | with_reducible apply State.bump_kept | with_reducible apply KeptH.ok
    | with_reducible apply KeptH.fault | (split <;> try dsimp only)

theorem State.doWclose_kept {s0 s : State} {a : HI} (hs : Kept s0 s) : KeptH s0 (State.doWclose s a) := by
  unfold State.doWclose
  try dsimp only
  repeat' first
    | with_reducible assumption | with_reducible refine Kept2.eq (by assumption) ?_ | with_reducible apply State.updTh_kept
    | with_reducible apply State.fillRegs_kept | with_reducible apply State.bump_kept | with_reducible apply KeptH.ok
    | with_reducible apply KeptH.fault | (split <;> try dsimp only)

theorem State.readFrame_kept {s0 s : State} {a : HI} {c : CapV} {f : Nat} (hs : Kept s0 s) : Kept3 s0 (State.readFrame s a c f) := by
  unfold State.readFrame
  try dsimp only
  repeat' first
    | with_reducible assumption | with_reducible apply State.getMem_kept | with_reducible apply Kept3.mk
    | with_reducible apply KeptG.proj

theorem State.doRetx_kept {s0 s : State} {a : HI} (hs : Kept s0 s) : KeptH s0 (State.doRetx s a) := by
  unfold State.doRetx
  try dsimp only
  repeat' first
    | with_reducible assumption | with_reducible apply State.readFrame_kept | with_reducible apply State.updTh_kept
    | with_reducible apply State.dropEvIn_kept | with_reducible apply KeptH.ok | with_reducible apply KeptH.fault
    | (split <;> try dsimp only) | with_reducible apply Kept3.snd

theorem State.capGet_kept {s0 s : State} {a : HI} {rd cs : Nat} {f : CapV → Nat} (hs : Kept s0 s) : KeptX s0 (State.capGet s a
    rd cs f) := by
  unfold State.capGet
  try dsimp only
  repeat' first | with_reducible assumption | with_reducible apply State.hookReg_kept

theorem State.capDerive_kept {s0 s : State} {a : HI} {cd cs rg count : Nat} {f : CapV → Nat → CapV} (hs : Kept s0 s) : KeptX s0
    (State.capDerive s a cd cs rg count f) := by
  unfold State.capDerive
  try dsimp only
  repeat' first | with_reducible assumption | with_reducible apply State.hookReg_kept

theorem State.capPair_kept {s0 s : State} {a : HI} {cd cs ct : Nat} {f : CapV → CapV → CapV} (hs : Kept s0 s) : KeptX s0
    (State.capPair s a cd cs ct f) := by
  unfold State.capPair
  try dsimp only
  repeat' first | with_reducible assumption | with_reducible apply State.hookReg_kept

theorem State.countEntry_kept {s0 s : State} {core thr : Nat} {e : Exc} {lvl : Nat} (hs : Kept s0 s) : Kept s0 (State.countEntry
    s core thr e lvl) := by
  unfold State.countEntry
  try dsimp only
  repeat' first | with_reducible assumption | with_reducible apply Kept.ite | with_reducible apply State.bump_kept

theorem State.enterExc_kept {s0 s : State} {core thr : Nat} {e : Exc} {lvl hv : Nat} (hs : Kept s0 s) : Kept2 s0 (State.enterExc
    s core thr e lvl hv) := by
  unfold State.enterExc
  try dsimp only
  repeat' first
    | with_reducible assumption | with_reducible apply Kept.ite | with_reducible apply Kept2.ite
    | with_reducible apply State.countEntry_kept | with_reducible apply State.updTh_kept
    | with_reducible apply State.haltThread_kept | with_reducible apply State.escalate_kept | with_reducible apply Kept2.mk

theorem State.faultEntry_kept {s0 s : State} {core thr : Nat} (hs : Kept s0 s) : Kept s0 (State.faultEntry s core thr) := by
  unfold State.faultEntry
  try dsimp only
  repeat' first
    | with_reducible assumption | with_reducible apply Kept.ite | with_reducible apply State.enterExc_kept
    | with_reducible apply State.updTh_kept | (split <;> try dsimp only) | with_reducible apply Kept2.snd

theorem State.interruptEntry_kept {s0 s : State} {core thr : Nat} {abandoned : Bool} (hs : Kept s0 s) : Kept s0
    (State.interruptEntry s core thr abandoned) := by
  unfold State.interruptEntry
  try dsimp only
  repeat' first
    | with_reducible assumption | with_reducible apply Kept.ite | with_reducible apply State.updTh_kept
    | with_reducible apply State.bump_kept | with_reducible apply State.enterExc_kept | with_reducible apply State.setFld_kept
    | (split <;> try dsimp only) | with_reducible apply Kept2.snd

theorem State.lifelineEntry_kept {s0 s : State} {core thr : Nat} (hs : Kept s0 s) : Kept s0 (State.lifelineEntry s core thr) := by
  unfold State.lifelineEntry
  try dsimp only
  repeat' first
    | with_reducible assumption | with_reducible apply Kept.ite | with_reducible apply State.enterExc_kept
    | with_reducible apply State.updTh_kept | (split <;> try dsimp only) | with_reducible apply Kept2.snd

theorem State.threadWatchdog_kept {s0 s : State} {core thr : Nat} (hs : Kept s0 s) : Kept s0 (State.threadWatchdog s core thr) := by
  unfold State.threadWatchdog
  try dsimp only
  repeat' first
    | with_reducible assumption | with_reducible apply Kept.ite | with_reducible apply State.expiry_kept
    | with_reducible apply State.bump_kept | with_reducible apply State.hookReset_kept | with_reducible apply State.updTh_kept
    | with_reducible refine Kept.put ?_ (fun w => w) rfl rfl

theorem State.threadReset_kept {s0 s : State} {core thr : Nat} (hs : Kept s0 s) : Kept s0 (State.threadReset s core thr) := by
  unfold State.threadReset
  try dsimp only
  repeat' first
    | with_reducible assumption | with_reducible apply State.drainAll_kept | with_reducible apply State.updTh_kept
    | with_reducible apply State.dropEvIn_kept | with_reducible apply State.bump_kept

theorem State.splitRegs_kept {s0 s : State} (hs : Kept s0 s) : Kept s0 (State.splitRegs s) := by
  unfold State.splitRegs
  try dsimp only
  repeat' first | with_reducible assumption | with_reducible refine Kept.put ?_ (fun w => w) rfl rfl

theorem State.splitComplete_kept {s0 s : State} (hs : Kept s0 s) : Kept s0 (State.splitComplete s) := by
  unfold State.splitComplete
  dsimp only
  have h1 : Kept s0 ((List.range 4).foldl (fun s t => s.drainAll 0 t) s) := Kept.foldl hs fun x a hx => State.drainAll_kept hx
  have h2 : Kept s0 { ((List.range 4).foldl (fun s t => s.drainAll 0 t) s).disarm with
      mem := splitMem ((List.range 4).foldl (fun s t => s.drainAll 0 t) s).disarm.mem } :=
    Kept.put (State.disarm_kept h1) (fun w => splitMem_wf w) rfl rfl
  refine Kept.foldl (Kept.foldl (Kept.ite (State.setFld_kept ?_) ?_) fun x a hx => Kept.foldl hx fun y b hy => State.setTh_kept hy)
    fun x a hx => State.updTh_kept hx
  · exact State.setFld_kept (State.splitRegs_kept h2)
  · exact State.setFld_kept (State.splitRegs_kept h2)

theorem State.mergeComplete_kept {s0 s : State} (hs : Kept s0 s) : Kept s0 (State.mergeComplete s) := by
  unfold State.mergeComplete
  dsimp only
  have h1 : Kept s0 ((List.range 4).foldl (fun s t => s.drainAll 0 t) s) := Kept.foldl hs fun x a hx => State.drainAll_kept hx
  refine Kept.foldl (State.setFld_kept ?_) fun x a hx => State.updTh_kept hx
  exact Kept.put h1 (fun w => mergeMem_wf w) rfl rfl

theorem State.hookInt_kept {s0 s : State} {a : HI} {z : Sz} {srcs : List Nat} {rd count : Nat} {f : Thread → IRes} (hs : Kept s0
    s) : KeptX s0 (State.hookInt s a z srcs rd count f) := by
  unfold State.hookInt
  try dsimp only
  repeat' first | with_reducible assumption | with_reducible apply State.hookReg_kept

theorem State.hookOpenC_kept {s0 s : State} {a : HI} {z : Sz} {rd ra rb count : Nat} {f : Nat → Nat → Nat} (hs : Kept s0 s) :
    KeptX s0 (State.hookOpenC s a z rd ra rb count f) := by
  unfold State.hookOpenC
  try dsimp only
  repeat' first
    | with_reducible assumption | with_reducible apply State.hookIssue_kept | with_reducible apply State.fresh_kept
    | with_reducible apply State.updTh_kept | with_reducible apply KeptX.next | with_reducible apply KeptH.ok
    | (with_reducible intro x hx; try dsimp only) | with_reducible apply Kept2.snd

theorem State.hookDiv_kept {s0 s : State} {a : HI} {z : Sz} {rd ra rb : Nat} {f : Nat → Nat → IRes} (hs : Kept s0 s) : KeptX s0
    (State.hookDiv s a z rd ra rb f) := by
  unfold State.hookDiv
  try dsimp only
  repeat' first
    | with_reducible assumption | with_reducible apply State.hookIssue_kept | with_reducible apply State.updTh_kept
    | with_reducible apply KeptX.next | with_reducible apply KeptH.ok | with_reducible apply KeptH.fault
    | (with_reducible intro x hx; try dsimp only) | (split <;> try dsimp only)

theorem State.hookPd_kept {s0 s : State} {a : HI} {rd ra rb : Nat} {f : Int → Int → Int} (hs : Kept s0 s) : KeptX s0
    (State.hookPd s a rd ra rb f) := by
  unfold State.hookPd
  try dsimp only
  repeat' first
    | with_reducible assumption | with_reducible apply State.hookIssue_kept | with_reducible apply State.updTh_kept
    | with_reducible apply KeptX.next | with_reducible apply KeptH.ok | with_reducible apply KeptH.fault
    | (with_reducible intro x hx; try dsimp only) | (split <;> try dsimp only)

theorem State.repLoad_kept {s0 s : State} {a : HI} {cap ea n : Nat} (hs : Kept s0 s) : KeptE2 s0 (State.repLoad s a cap ea n) := by
  unfold State.repLoad
  try dsimp only
  repeat' first
    | with_reducible assumption | with_reducible apply State.getMem_kept | with_reducible apply KeptE2.ok
    | with_reducible apply KeptE2.error | (split <;> try dsimp only) | with_reducible apply KeptG.proj

theorem State.repStore_kept {s0 s : State} {a : HI} {cap ea n v : Nat} (hs : Kept s0 s) : KeptE s0 (State.repStore s a cap ea n
    v) := by
  unfold State.repStore
  try dsimp only
  repeat' first
    | with_reducible assumption | with_reducible apply State.bufStore_kept | with_reducible apply KeptE.ok
    | with_reducible apply KeptE.error | (split <;> try dsimp only)

theorem State.repAdvance_kept {s0 s : State} {a : HI} {g2 g3 : Option Nat} (hs : Kept s0 s) : Kept s0 (State.repAdvance s a g2
    g3) := by
  unfold State.repAdvance
  try dsimp only
  repeat' first | with_reducible assumption | with_reducible apply State.updTh_kept

theorem State.repCopy_kept {s0 s : State} {a : HI} {src dst p q n g2 g3 : Nat} (hs : Kept s0 s) : KeptR s0 (State.repCopy s a
    src dst p q n g2 g3) := by
  unfold State.repCopy
  try dsimp only
  repeat' first
    | with_reducible assumption | with_reducible refine KeptE.eqOk (by assumption) ?_
    | with_reducible refine KeptE.eqError (by assumption) ?_ | with_reducible refine KeptE2.eqOk (by assumption) ?_
    | with_reducible refine KeptE2.eqError (by assumption) ?_ | with_reducible apply State.repLoad_kept
    | with_reducible apply State.repStore_kept | with_reducible apply State.repAdvance_kept | with_reducible apply KeptR.ok
    | with_reducible apply KeptR.fault | (split <;> try dsimp only)

theorem State.repIter_kept {s0 s : State} {a : HI} {op : RepOp} {z : Sz} {src dst : Nat} (hs : Kept s0 s) : KeptR s0
    (State.repIter s a op z src dst) := by
  unfold State.repIter
  try dsimp only
  repeat' first
    | with_reducible assumption | with_reducible refine KeptE.eqOk (by assumption) ?_
    | with_reducible refine KeptE.eqError (by assumption) ?_ | with_reducible refine KeptE2.eqOk (by assumption) ?_
    | with_reducible refine KeptE2.eqError (by assumption) ?_ | with_reducible apply State.repCopy_kept
    | with_reducible apply State.repStore_kept | with_reducible apply State.repAdvance_kept
    | with_reducible apply State.repLoad_kept | with_reducible apply State.updTh_kept | with_reducible apply KeptR.ok
    | with_reducible apply KeptR.fault | (split <;> try dsimp only)

theorem State.repLoop_kept {s0 s : State} {a : HI} {op : RepOp} {z : Sz} {src dst : Nat} {rep : Rpt} {v7 : Nat} (hs : Kept s0 s)
    : KeptH s0 (State.repLoop s a op z src dst rep v7) := by
  induction v7 generalizing s with
  | zero =>
    unfold State.repLoop
    try dsimp only
    repeat' first
      | with_reducible assumption | with_reducible refine KeptR.eqOk (by assumption) ?_
      | with_reducible refine KeptR.eqFault (by assumption) ?_ | with_reducible apply State.updTh_kept
      | with_reducible apply State.repIter_kept | with_reducible apply KeptH.ok | with_reducible apply KeptH.fault
      | with_reducible apply KeptH.again | (split <;> try dsimp only)
  | succ k ih =>
    unfold State.repLoop
    try dsimp only
    repeat' first
      | with_reducible apply ih | with_reducible assumption | with_reducible refine KeptR.eqOk (by assumption) ?_
      | with_reducible refine KeptR.eqFault (by assumption) ?_ | with_reducible apply State.updTh_kept
      | with_reducible apply State.repIter_kept | with_reducible apply KeptH.ok | with_reducible apply KeptH.fault
      | with_reducible apply KeptH.again | (split <;> try dsimp only)

theorem State.repIns_kept {s0 s : State} {a : HI} {op : RepOp} {z : Sz} {rep : Rpt} {src dst steps : Nat} (hs : Kept s0 s) :
    KeptX s0 (State.repIns s a op z rep src dst steps) := by
  unfold State.repIns
  try dsimp only
  repeat' first
    | with_reducible assumption | with_reducible refine KeptR.eqOk (by assumption) ?_
    | with_reducible refine KeptR.eqFault (by assumption) ?_ | with_reducible apply State.hookIssue_kept
    | with_reducible apply State.repIter_kept | with_reducible apply State.repLoop_kept | with_reducible apply KeptX.next
    | with_reducible apply KeptH.ok | with_reducible apply KeptH.fault | with_reducible apply KeptH.again
    | (with_reducible intro x hx; try dsimp only) | (split <;> try dsimp only)

theorem State.allOnes_kept {s0 s : State} {n : Nat} (hs : Kept s0 s) : Kept s0 (State.allOnes s n) := by
  unfold State.allOnes
  try dsimp only
  repeat' first | with_reducible assumption | with_reducible refine Kept.put ?_ (fun w => w) rfl rfl

theorem State.bar0Write_kept {s0 s : State} {fn off : Nat} {v : Word} {full : Bool} (hs : Kept s0 s) : Kept s0 (State.bar0Write
    s fn off v full) := by
  unfold State.bar0Write
  try dsimp only
  repeat' first
    | with_reducible assumption | with_reducible apply Kept.ite | with_reducible apply State.bump_kept
    | with_reducible apply State.writeBy_kept | with_reducible apply State.writeMsix_kept | (split <;> try dsimp only)

theorem State.bar0Read_kept {s0 s : State} {fn off : Nat} {full : Bool} (hs : Kept s0 s) : Kept s0 (State.bar0Read s fn off
    full) := by
  unfold State.bar0Read
  try dsimp only
  repeat' first
    | with_reducible assumption | with_reducible apply Kept.ite | with_reducible apply State.allOnes_kept
    | with_reducible apply State.bump_kept | with_reducible apply State.readBy_kept | (split <;> try dsimp only)
    | with_reducible refine Kept.put ?_ (fun w => w) rfl rfl

theorem State.window_kept {s0 s : State} {fn h lo hi a n : Nat} {wr : Bool} {data : List Byte} (hs : Kept s0 s) :
    Kept s0 (State.window s fn h lo hi a n wr data) := by
  unfold State.window
  have k := Kept2.snd (State.resolveHandle_kept (h := h) (fn := fn) hs)
  generalize s.resolveHandle h fn = r at k
  obtain ⟨r, u⟩ := r
  dsimp only at k ⊢
  refine Kept.ite (Kept.ite (State.bump_kept k) (State.allOnes_kept (State.bump_kept k))) (Kept.ite (State.store_kept k) ?_)
  exact Kept.put (Kept3.snd (State.load_kept k)) (fun w => w) rfl rfl

theorem State.toHost_kept {s0 s : State} {a : Nat} {bs : List Byte} {poisoned : optParam Bool false} (hs : Kept s0 s) : Kept s0
    (State.toHost s a bs poisoned) := by
  unfold State.toHost
  try dsimp only
  repeat' first | with_reducible assumption | with_reducible apply State.send_kept

theorem State.dmaHandle_kept {s0 s : State} {c h fn : Nat} (hs : Kept s0 s) : Kept2 s0 (State.dmaHandle s c h fn) := by
  unfold State.dmaHandle
  try dsimp only
  repeat' first
    | with_reducible assumption | with_reducible apply Kept2.ite | with_reducible apply State.fresh_kept
    | with_reducible apply State.resolveHandle_kept | with_reducible apply Kept2.mk | (split <;> try dsimp only)
    | with_reducible apply Kept2.snd

theorem State.dmaMove_kept {s0 s : State} {c fn : Nat} {d data : List Byte} {ok : Bool} (hs : Kept s0 s) :
    Kept2 s0 (State.dmaMove s c fn d data ok) := by
  unfold State.dmaMove
  have k := Kept2.snd (State.dmaHandle_kept (c := c) (h := leAt d 0 2) (fn := fn) hs)
  dsimp only
  generalize s.dmaHandle c (leAt d 0 2) fn = r at k ⊢
  obtain ⟨r, u⟩ := r
  dsimp only at k ⊢
  cases r with
  | invalid => exact Kept2.mk k
  | poison _ => exact Kept2.mk k
  | ok cap =>
    dsimp only
    have ks : Kept s0 (u.store (capBase cap + leAt d 8 8) (data.take (leAt d 4 4))) := State.store_kept k
    have kl := Kept3.snd (State.load_kept (a := capBase cap + leAt d 8 8) (n := leAt d 4 4) k)
    generalize u.load (capBase cap + leAt d 8 8) (leAt d 4 4) = g at kl ⊢
    generalize u.store (capBase cap + leAt d 8 8) (data.take (leAt d 4 4)) = v at ks ⊢
    obtain ⟨bs, p, w⟩ := g
    dsimp only at kl ⊢
    have kt : Kept s0 (w.toHost (leAt d 16 8) bs p) := State.toHost_kept kl
    generalize w.toHost (leAt d 16 8) bs p = z at kt ⊢
    repeat' first | exact k | exact ks | exact kt | split

theorem State.dmaEnd_kept {s0 s : State} {c fn : Nat} {d : List Byte} {st : Nat} (hs : Kept s0 s) : Kept s0 (State.dmaEnd s c fn
    d st) := by
  unfold State.dmaEnd
  try dsimp only
  repeat' first
    | with_reducible assumption | with_reducible apply State.toHost_kept | with_reducible apply State.setFld_kept
    | with_reducible apply State.msix_kept | (split <;> try dsimp only)
    | with_reducible refine Kept.put ?_ (fun w => w) rfl rfl

theorem State.dmaDone_kept {s0 s : State} {c : Nat} {d data : List Byte} {ok : Bool} (hs : Kept s0 s) :
    Kept s0 (State.dmaDone s c d data ok) := by
  unfold State.dmaDone
  dsimp only
  exact Kept.ite (State.dmaEnd_kept (Kept2.snd (State.dmaMove_kept hs))) hs

theorem State.rowDone_kept {s0 s : State} {r : Nat} (hs : Kept s0 s) : Kept s0 (State.rowDone s r) := by
  unfold State.rowDone
  try dsimp only
  repeat' first | with_reducible assumption | with_reducible refine Kept.put ?_ (fun w => w) rfl rfl

theorem State.rrEntry_kept {s0 s : State} {r row : Nat} (hs : Kept s0 s) : Kept2 s0 (State.rrEntry s r row) := by
  unfold State.rrEntry
  dsimp only
  have h := State.resolveHandle_kept (h := s.fld F.PCI_RR_H r) (fn := s.fld F.PCI_RR_CTRL_FN r) hs
  split
  · split
    · exact Kept2.mk (Kept3.snd (State.load_kept (Kept2.snd h)))
    · exact Kept2.mk (Kept2.snd h)
  · exact Kept2.mk (Kept2.snd h)

theorem State.rrCopy_kept {s0 s : State} {r : Nat} {bs : List Byte} {p : Bool} (hs : Kept s0 s) : Kept s0 (State.rrCopy s r bs
    p) := by
  unfold State.rrCopy
  try dsimp only
  repeat' first
    | with_reducible assumption | with_reducible apply State.setFld_kept | with_reducible apply State.toHost_kept
    | with_reducible apply State.msix_kept

theorem State.rrHandle_kept {s0 s : State} {r : Nat} (hs : Kept s0 s) : Kept s0 (State.rrHandle s r) := by
  unfold State.rrHandle
  try dsimp only
  repeat' first
    | with_reducible assumption | with_reducible apply Kept.ite | with_reducible apply State.rrEntry_kept
    | with_reducible apply State.bump_kept | with_reducible apply State.rowDone_kept | with_reducible apply State.rrCopy_kept
    | (split <;> try dsimp only) | with_reducible apply Kept2.snd

theorem State.resetReg_kept {s0 s : State} {k : RegKind} {i : Nat} (hs : Kept s0 s) : Kept s0 (State.resetReg s k i) := by
  unfold State.resetReg
  try dsimp only
  repeat' first | with_reducible assumption | with_reducible apply State.setReg_kept

theorem State.flrQueue_kept {s0 s : State} {q : Nat} (hs : Kept s0 s) : Kept s0 (State.flrQueue s q) := by
  unfold State.flrQueue
  try dsimp only
  repeat' first
    | with_reducible assumption | with_reducible apply State.xfrog_kept | with_reducible apply State.startQBindoff_kept
    | with_reducible apply State.endQBindoff_kept | with_reducible apply State.cutInst_kept
    | with_reducible apply State.setPlq_kept

theorem State.flrDma_kept {s0 s : State} {c : Nat} (hs : Kept s0 s) : Kept s0 (State.flrDma s c) := by
  unfold State.flrDma
  try dsimp only
  repeat' first
    | with_reducible assumption | with_reducible apply State.resetReg_kept | with_reducible apply Kept.foldl
    | (with_reducible intro x a hx; try dsimp only)

theorem State.flrRing_kept {s0 s : State} {r : Nat} (hs : Kept s0 s) : Kept s0 (State.flrRing s r) := by
  unfold State.flrRing
  try dsimp only
  repeat' first
    | with_reducible assumption | with_reducible apply State.resetReg_kept | with_reducible apply State.bump_kept
    | with_reducible apply Kept.foldl | (with_reducible intro x a hx; try dsimp only)
    | with_reducible refine Kept.put ?_ (fun w => w) rfl rfl

theorem State.flrWindows_kept {s0 s : State} {fn : Nat} (hs : Kept s0 s) : Kept s0 (State.flrWindows s fn) := by
  unfold State.flrWindows
  try dsimp only
  repeat' first
    | with_reducible assumption | with_reducible apply Kept.ite | with_reducible apply State.resetReg_kept
    | with_reducible apply Kept.foldl | (with_reducible intro x a hx; try dsimp only)

theorem State.flrMailbox_kept {s0 s : State} (hs : Kept s0 s) : Kept s0 (State.flrMailbox s) := by
  unfold State.flrMailbox
  try dsimp only
  repeat' first
    | with_reducible assumption | with_reducible apply Kept.ite | with_reducible apply State.setFld_kept
    | with_reducible refine Kept.put ?_ (fun w => w) rfl rfl

theorem State.flrMsix_kept {s0 s : State} {fn : Nat} (hs : Kept s0 s) : Kept s0 (State.flrMsix s fn) := by
  unfold State.flrMsix
  try dsimp only
  repeat' first | with_reducible assumption | with_reducible refine Kept.put ?_ (fun w => w) rfl rfl

theorem State.flr_kept {s0 s : State} {fn : Nat} (hs : Kept s0 s) : Kept s0 (State.flr s fn) := by
  unfold State.flr
  try dsimp only
  repeat' first
    | with_reducible assumption | with_reducible apply Kept.ite | with_reducible apply State.flrQueue_kept
    | with_reducible apply State.flrMsix_kept | with_reducible apply State.flrRing_kept
    | with_reducible apply State.flrDma_kept | with_reducible apply State.flrWindows_kept
    | with_reducible apply State.flrMailbox_kept | with_reducible apply Kept.foldl
    | with_reducible refine Kept.put ?_ (fun w => w) rfl rfl

theorem State.pcieDown_kept {s0 s : State} (hs : Kept s0 s) : Kept s0 (State.pcieDown s) := by
  unfold State.pcieDown
  try dsimp only
  repeat' first
    | with_reducible assumption | with_reducible apply Kept.ite | with_reducible apply State.raise_kept
    | with_reducible apply State.setFld_kept

theorem State.jtagMem_kept {s0 s : State} {r : Region} {a n : Nat} {wr : Bool} {data : List Byte} (hs : Kept s0 s) : Kept s0
    (State.jtagMem s r a n wr data) := by
  unfold State.jtagMem
  try dsimp only
  repeat' first
    | with_reducible assumption | with_reducible apply Kept.ite | with_reducible apply State.refusedPath_kept
    | with_reducible apply State.load_kept | with_reducible apply State.store_kept | with_reducible apply Kept3.snd
    | with_reducible refine Kept.put ?_ (fun w => w) rfl rfl

end Sys2Proof.Machine
end

