-- ==== Sys2Proof/WellFormed.lean ====
section
/-!
DEFINITION. Sys2Proof/WellFormed.lean: which commands are well formed: every index within the range the spec gives it. An
ill-formed command changes nothing (DESIGN CHOICE, notes/assumptions/5.md).
-/
namespace Sys2Proof

/-- The value, read as signed, fits in `n` bits (R305). -/
def fits (n : Nat) (v : BitVec 64) : Bool := decide (-(2 ^ (n - 1) : Int) ≤ v.toInt) && decide (v.toInt < 2 ^ (n - 1))

/-- The core and the thread exist (R279). -/
def HI.wf (a : HI) : Bool := decide (a.core < 3) && decide (a.thr < 4)

/-- The queue, the instruction slot and the position exist (R227, R166). -/
def SI.wf (a : SI) : Bool := decide (a.q < 64) && decide (a.slot < 32) && decide (a.pos < 128)

/-- R306: scale and index belong to the indexed form alone, and post-increment and pre-decrement take no displacement. -/
def MOp.wf (m : MOp) : Bool :=
  decide (m.cap < 16) && decide (m.index < 32) && decide (m.scale < 4) && fits 32 m.disp &&
  match m.form with
  | .base => decide (m.scale = 0) && decide (m.index = 0)
  | .index => true
  | .postInc => decide (m.scale = 0) && decide (m.index = 0) && decide (m.disp = 0)
  | .preDec => decide (m.scale = 0) && decide (m.index = 0) && decide (m.disp = 0)

/-- R307: the capability register of a post-increment or pre-decrement is not the one loaded or stored. -/
def MOp.apart (m : MOp) (c : Nat) : Bool :=
  match m.form with
  | .base => true
  | .index => true
  | .postInc => decide (c ≠ m.cap)
  | .preDec => decide (c ≠ m.cap)

/-- The numbers of the two registers of a MOV (R303, R314): d of the first class, n of the second. -/
def MovKind.wf (k : MovKind) (d n : Nat) : Bool :=
  match k with
  | .gg => decide (d < 32) && decide (n < 32)
  | .gw => decide (d < 32) && decide (n < 4)
  | .wg => decide (d < 4) && decide (n < 32)
  | .gf => decide (d < 32) && decide (n < 32)
  | .fg => decide (d < 32) && decide (n < 32)
  | .ff => decide (d < 32) && decide (n < 32)
  | .cc => decide (d < 16) && decide (n < 16)

/-- R322: gates 0 to 7, and the class of the other register of an MFS or MTS. -/
def SReg.wf (r : SReg) (n : Nat) : Bool :=
  match r with
  | .stat => decide (n < 32)
  | .sstat => decide (n < 32)
  | .gateC g => decide (g < 8) && decide (n < 16)
  | .gateD g => decide (g < 8) && decide (n < 16)
  | .pcap => decide (n < 16)
  | .sscap => decide (n < 16)
  | .vtab => decide (n < 16)
  | .slink => decide (n < 16)
  | .wspc => decide (n < 16)

/-- R302: the repeat prefixes of the moves and the fill. -/
def Rpt.moves (r : Rpt) : Bool := decide (r = .none) || decide (r = .rpt)

/-- Every operand of the command is one the device has. -/
def Instr.wf : Instr → Bool
  | .registerWrite _ _ _ => true
  | .pairHiWrite _ _ _ => true
  | .pairLoRead _ _ => true
  | .rscRead _ _ => true
  | .dcComparison _ _ => true
  | .ppsEdge _ _ => true
  | .tbSourceLost _ => true
  | .tbsSetWrite _ _ => true
  | .encoderTransition _ e _ _ => decide (e < 8)
  | .encoderStall _ e => decide (e < 8)
  | .encoderEnable _ e _ => decide (e < 8)
  | .courseBoundary _ n => decide (n < 16)
  | .channelEnterRun _ n => decide (n < 16)
  | .schedulerScan _ o => decide (o < 64)
  | .outputEventDue _ o => decide (o < 64)
  | .timeEventDue _ o => decide (o < 64)
  | .pulseEnd _ o => decide (o < 64)
  | .windowEnd _ o => decide (o < 64)
  | .pinHoldEnd _ o => decide (o < 64)
  | .commitHorizon _ o => decide (o < 64)
  | .armReq _ => true
  | .disarm _ => true
  | .outputBindoff _ o => decide (o < 64)
  | .outputBindoffComplete o => decide (o < 64)
  | .outputBindoffTimeout o => decide (o < 64)
  | .captureEdge _ n _ => decide (n < 16)
  | .capturePop _ n => decide (n < 16)
  | .evinWrite _ o _ => decide (o < 64)
  | .discoveryAttempt _ l => decide (l < 32)
  | .linkUp l => decide (l < 32)
  | .linkLockLoss l => decide (l < 32)
  | .codeErrorThreshold l _ => decide (l < 32)
  | .lineHeader _ l _ fmt _ _ => decide (l < 32) && decide (fmt < 8)
  | .streamPacket l _ _ _ _ _ => decide (l < 32)
  | .crcResolution n _ _ => decide (n < 16)
  | .courseRelease n => decide (n < 16)
  | .courseWatchdog _ n => decide (n < 16)
  | .heartbeatPacket l => decide (l < 32)
  | .heartbeatTimeout l => decide (l < 32)
  | .eventPacket _ l _ => decide (l < 32)
  | .eventFifoPop _ => true
  | .mailboxGo _ k _ => decide (k < 32)
  | .mailboxAnswer k _ ack _ => decide (k < 32) && decide (ack < 256)
  | .mailboxWaitAck k => decide (k < 32)
  | .mailboxTimeout k => decide (k < 32)
  | .releaseRowWrite _ n k _ => decide (n < 16) && decide (k < 4)
  | .dropLogPop _ n => decide (n < 16)
  | .ingestBindoff _ n _ => decide (n < 16)
  | .ingestBindoffEnd n => decide (n < 16)
  | .stashRequest port _ off _ _ _ _ _ plq => decide (port < 146) && decide (off < 134217728) && decide (plq < 64)
  | .bankGrant bank _ _ _ => decide (bank < 4096)
  | .arbitrationTimeout bank _ => decide (bank < 4096)
  | .demandWriteback _ => true
  | .bankTestSlot => true
  | .bankTestCopyEnd => true
  | .bankTestCopyAbandon => true
  | .bankTestResult _ => true
  | .bankTestCopyBackEnd => true
  | .ddrRequest port _ _ _ _ _ _ => decide (port < 146)
  | .ddrReadReturn c sub _ _ dimm rank dev => decide (c < 12) && decide (sub < 2) && decide (dimm < 2) && decide (rank < 8) && decide (dev < 32)
  | .ddrRequestTimeout c => decide (c < 12)
  | .ddrFastPathEnd c _ => decide (c < 12)
  | .ddrFullPath c => decide (c < 12)
  | .ddrFillEnd c => decide (c < 12)
  | .patrolScrub c _ dimm rank dev => decide (c < 12) && decide (dimm < 2) && decide (rank < 8) && decide (dev < 32)
  | .spdThermalRead c _ => decide (c < 12)
  | .pmicError c => decide (c < 12)
  | .ddrRecoverCommand _ c => decide (c < 12)
  | .plySubmit _ q _ => decide (q < 64)
  | .plyStart n => decide (n < 64)
  | .pinEnable _ q => decide (q < 64)
  | .suspendComplete n => decide (n < 64)
  | .plyFaulted q _ => decide (q < 64)
  | .resume _ q => decide (q < 64)
  | .abort _ q => decide (q < 64)
  | .plyRetire q => decide (q < 64)
  | .completionPop _ q => decide (q < 64)
  | .instructionWatchdog q _ k => decide (q < 64) && decide (k < 32)
  | .epochRaise _ q => decide (q < 64)
  | .bedRequestReturn b _ => decide (b < 136)
  | .hazardWaitEnd a => a.wf
  | .specBufferFree b => decide (b < 136)
  | .migrationGo _ q lpos nb => decide (q < 64) && decide (lpos < 128) && decide (nb < 136)
  | .migrationDrainEnd n => decide (n < 64)
  | .migrationDrainTimeout n => decide (n < 64)
  | .gaugeSwap n lpos => decide (n < 64) && decide (lpos < 128)
  | .queueBindoff _ q => decide (q < 64)
  | .queueBindoffEnd q => decide (q < 64)
  | .bindoffCut q => decide (q < 64)
  | .channelBindoff n => decide (n < 16)
  | .streamMov a => a.wf
  | .cvt a => a.wf
  | .gath a => a.wf
  | .scat a => a.wf
  | .lut a => a.wf
  | .streamAdd a => a.wf
  | .streamSub a => a.wf
  | .streamMul a => a.wf
  | .streamMulh a => a.wf
  | .streamFma a => a.wf
  | .streamFms a => a.wf
  | .streamFnma a => a.wf
  | .streamMin a => a.wf
  | .streamMax a => a.wf
  | .streamAbs a => a.wf
  | .streamNeg a => a.wf
  | .absd a => a.wf
  | .dot4 a => a.wf
  | .clamp a => a.wf
  | .streamDiv a => a.wf
  | .streamRem a => a.wf
  | .sqrt a => a.wf
  | .streamAnd a => a.wf
  | .streamOr a => a.wf
  | .streamXor a => a.wf
  | .streamAndn a => a.wf
  | .streamNot a => a.wf
  | .streamShl a => a.wf
  | .streamShr a => a.wf
  | .streamSar a => a.wf
  | .streamRol a => a.wf
  | .streamRor a => a.wf
  | .streamPopc a => a.wf
  | .streamClz a => a.wf
  | .streamCmp a => a.wf
  | .cmpr a => a.wf
  | .sel a => a.wf
  | .rsum a => a.wf
  | .rmin a => a.wf
  | .rmax a => a.wf
  | .rminx a => a.wf
  | .rmaxx a => a.wf
  | .rany a => a.wf
  | .rall a => a.wf
  | .rcnt a => a.wf
  | .scan a => a.wf
  | .cmps a => a.wf
  | .expd a => a.wf
  | .hist a => a.wf
  | .rle a => a.wf
  | .convw a => a.wf
  | .convc a => a.wf
  | .mark a => a.wf
  | .life a => a.wf
  | .commit a => a.wf
  | .frog a => a.wf
  | .resolv a => a.wf
  | .brc a => a.wf
  | .branchLifelineResolve q _ => decide (q < 64)
  | .sync a => a.wf
  | .syncAcquireMet a => a.wf
  | .wrow a => a.wf
  | .wrowRowReady a => a.wf
  | .loadDataArrival core thr _ => decide (core < 3) && decide (thr < 4)
  | .storeBufferDrain core thr => decide (core < 3) && decide (thr < 4)
  | .swiWrite _ c _ => decide (c < 3)
  | .interruptEntry core thr _ => decide (core < 3) && decide (thr < 4)
  | .faultEntry core thr => decide (core < 3) && decide (thr < 4)
  | .lifelineEntry core thr => decide (core < 3) && decide (thr < 4)
  | .threadRun _ c t => decide (c < 3) && decide (t < 4)
  | .undefinedInstruction a => a.wf
  | .hNop a => a.wf
  | .hAdd a _ rd ra rb => a.wf && decide (rd < 32) && decide (ra < 32) && decide (rb < 32)
  | .hSub a _ rd ra rb => a.wf && decide (rd < 32) && decide (ra < 32) && decide (rb < 32)
  | .hCmp a _ ra rb => a.wf && decide (ra < 32) && decide (rb < 32)
  | .hNeg a _ rd ra => a.wf && decide (rd < 32) && decide (ra < 32)
  | .hAbs a _ rd ra => a.wf && decide (rd < 32) && decide (ra < 32)
  | .hMul a _ rd ra rb => a.wf && decide (rd < 32) && decide (ra < 32) && decide (rb < 32)
  | .hMulh a _ rd ra rb => a.wf && decide (rd < 32) && decide (ra < 32) && decide (rb < 32)
  | .hMulhu a _ rd ra rb => a.wf && decide (rd < 32) && decide (ra < 32) && decide (rb < 32)
  | .hDiv a _ rd ra rb => a.wf && decide (rd < 32) && decide (ra < 32) && decide (rb < 32)
  | .hDivu a _ rd ra rb => a.wf && decide (rd < 32) && decide (ra < 32) && decide (rb < 32)
  | .hRem a _ rd ra rb => a.wf && decide (rd < 32) && decide (ra < 32) && decide (rb < 32)
  | .hRemu a _ rd ra rb => a.wf && decide (rd < 32) && decide (ra < 32) && decide (rb < 32)
  | .hMin a _ rd ra rb => a.wf && decide (rd < 32) && decide (ra < 32) && decide (rb < 32)
  | .hMax a _ rd ra rb => a.wf && decide (rd < 32) && decide (ra < 32) && decide (rb < 32)
  | .hMinu a _ rd ra rb => a.wf && decide (rd < 32) && decide (ra < 32) && decide (rb < 32)
  | .hMaxu a _ rd ra rb => a.wf && decide (rd < 32) && decide (ra < 32) && decide (rb < 32)
  | .hAnd a _ rd ra rb => a.wf && decide (rd < 32) && decide (ra < 32) && decide (rb < 32)
  | .hOr a _ rd ra rb => a.wf && decide (rd < 32) && decide (ra < 32) && decide (rb < 32)
  | .hXor a _ rd ra rb => a.wf && decide (rd < 32) && decide (ra < 32) && decide (rb < 32)
  | .hAndn a _ rd ra rb => a.wf && decide (rd < 32) && decide (ra < 32) && decide (rb < 32)
  | .hNot a _ rd ra => a.wf && decide (rd < 32) && decide (ra < 32)
  | .hShl a _ rd ra rb => a.wf && decide (rd < 32) && decide (ra < 32) && decide (rb < 32)
  | .hShr a _ rd ra rb => a.wf && decide (rd < 32) && decide (ra < 32) && decide (rb < 32)
  | .hSar a _ rd ra rb => a.wf && decide (rd < 32) && decide (ra < 32) && decide (rb < 32)
  | .hRol a _ rd ra rb => a.wf && decide (rd < 32) && decide (ra < 32) && decide (rb < 32)
  | .hRor a _ rd ra rb => a.wf && decide (rd < 32) && decide (ra < 32) && decide (rb < 32)
  | .hPopc a _ rd ra => a.wf && decide (rd < 32) && decide (ra < 32)
  | .hClz a _ rd ra => a.wf && decide (rd < 32) && decide (ra < 32)
  | .hQadd a _ rd ra rb => a.wf && decide (rd < 32) && decide (ra < 32) && decide (rb < 32)
  | .hQaddu a _ rd ra rb => a.wf && decide (rd < 32) && decide (ra < 32) && decide (rb < 32)
  | .hQsub a _ rd ra rb => a.wf && decide (rd < 32) && decide (ra < 32) && decide (rb < 32)
  | .hQsubu a _ rd ra rb => a.wf && decide (rd < 32) && decide (ra < 32) && decide (rb < 32)
  | .hAddi a _ rd ra _ => a.wf && decide (rd < 32) && decide (ra < 32)
  | .hCmpi a _ ra _ => a.wf && decide (ra < 32)
  | .hAndi a _ rd ra _ => a.wf && decide (rd < 32) && decide (ra < 32)
  | .hOri a _ rd ra _ => a.wf && decide (rd < 32) && decide (ra < 32)
  | .hXori a _ rd ra _ => a.wf && decide (rd < 32) && decide (ra < 32)
  | .hShli a _ rd ra n => a.wf && decide (rd < 32) && decide (ra < 32) && decide (n < 256)
  | .hShri a _ rd ra n => a.wf && decide (rd < 32) && decide (ra < 32) && decide (n < 256)
  | .hSari a _ rd ra n => a.wf && decide (rd < 32) && decide (ra < 32) && decide (n < 256)
  | .hRoli a _ rd ra n => a.wf && decide (rd < 32) && decide (ra < 32) && decide (n < 256)
  | .hRori a _ rd ra n => a.wf && decide (rd < 32) && decide (ra < 32) && decide (n < 256)
  | .hMuli a _ rd ra _ => a.wf && decide (rd < 32) && decide (ra < 32)
  | .hMovi a _ rd _ => a.wf && decide (rd < 32)
  | .hMov a k d n => a.wf && k.wf d n
  | .hCsel a _ rd ra rb cc => a.wf && decide (rd < 32) && decide (ra < 32) && decide (rb < 32) && decide (cc < 15)
  | .hSext a _ rd ra => a.wf && decide (rd < 32) && decide (ra < 32)
  | .hZext a _ rd ra => a.wf && decide (rd < 32) && decide (ra < 32)
  | .hLd a _ rd m => a.wf && m.wf && decide (rd < 32)
  | .hLds a _ rd m => a.wf && m.wf && decide (rd < 32)
  | .hSt a _ rs m => a.wf && m.wf && decide (rs < 32)
  | .hSti a _ m _ => a.wf && m.wf
  | .hLdf a _ fd m => a.wf && m.wf && decide (fd < 32)
  | .hStf a _ fs m => a.wf && m.wf && decide (fs < 32)
  | .hLdc a cd m => a.wf && m.wf && decide (cd < 16) && m.apart cd
  | .hStc a cs m => a.wf && m.wf && decide (cs < 16) && m.apart cs
  | .hLea a cd m => a.wf && m.wf && decide (cd < 16)
  | .hLdv a _ vd m => a.wf && m.wf && decide (vd < 8)
  | .hStv a _ vs m => a.wf && m.wf && decide (vs < 8)
  | .hGathv a _ _ vd m vx => a.wf && m.wf && decide (vd < 8) && decide (vx < 8) && decide (m.form = .base)
  | .hCas a _ rd rs m => a.wf && m.wf && decide (rd < 32) && decide (rs < 32)
  | .hBr a rel => a.wf && fits 32 rel
  | .hBcc a cc rel => a.wf && decide (cc < 15) && fits 32 rel
  | .hCall a rel => a.wf && fits 32 rel
  | .hCallr a cn => a.wf && decide (cn < 16)
  | .hJr a cn => a.wf && decide (cn < 16)
  | .hRet a => a.wf
  | .hCbz a rn rel => a.wf && decide (rn < 32) && fits 16 rel
  | .hCbnz a rn rel => a.wf && decide (rn < 32) && fits 16 rel
  | .hCgeta a rd cs => a.wf && decide (rd < 32) && decide (cs < 16)
  | .hCgetb a rd cs => a.wf && decide (rd < 32) && decide (cs < 16)
  | .hCgetl a rd cs => a.wf && decide (rd < 32) && decide (cs < 16)
  | .hCgetp a rd cs => a.wf && decide (rd < 32) && decide (cs < 16)
  | .hCgett a rd cs => a.wf && decide (rd < 32) && decide (cs < 16)
  | .hCseta a cd cs rg => a.wf && decide (cd < 16) && decide (cs < 16) && decide (rg < 32)
  | .hCinc a cd cs rg => a.wf && decide (cd < 16) && decide (cs < 16) && decide (rg < 32)
  | .hCsetb a cd cs rg => a.wf && decide (cd < 16) && decide (cs < 16) && decide (rg < 32)
  | .hCandp a cd cs rg => a.wf && decide (cd < 16) && decide (cs < 16) && decide (rg < 32)
  | .hCseal a cd cs ct => a.wf && decide (cd < 16) && decide (cs < 16) && decide (ct < 16)
  | .hCunseal a cd cs ct => a.wf && decide (cd < 16) && decide (cs < 16) && decide (ct < 16)
  | .hCclrt a cd cs => a.wf && decide (cd < 16) && decide (cs < 16)
  | .hCtest a rd ca cb => a.wf && decide (rd < 32) && decide (ca < 16) && decide (cb < 16)
  | .hFadd a _ fd fa fb => a.wf && decide (fd < 32) && decide (fa < 32) && decide (fb < 32)
  | .hFsub a _ fd fa fb => a.wf && decide (fd < 32) && decide (fa < 32) && decide (fb < 32)
  | .hFmul a _ fd fa fb => a.wf && decide (fd < 32) && decide (fa < 32) && decide (fb < 32)
  | .hFdiv a _ fd fa fb => a.wf && decide (fd < 32) && decide (fa < 32) && decide (fb < 32)
  | .hFsqrt a _ fd fa => a.wf && decide (fd < 32) && decide (fa < 32)
  | .hFma a _ fd fa fb fc => a.wf && decide (fd < 32) && decide (fa < 32) && decide (fb < 32) && decide (fc < 32)
  | .hFms a _ fd fa fb fc => a.wf && decide (fd < 32) && decide (fa < 32) && decide (fb < 32) && decide (fc < 32)
  | .hFnma a _ fd fa fb fc => a.wf && decide (fd < 32) && decide (fa < 32) && decide (fb < 32) && decide (fc < 32)
  | .hFmin a _ fd fa fb => a.wf && decide (fd < 32) && decide (fa < 32) && decide (fb < 32)
  | .hFmax a _ fd fa fb => a.wf && decide (fd < 32) && decide (fa < 32) && decide (fb < 32)
  | .hFcmp a _ fa fb => a.wf && decide (fa < 32) && decide (fb < 32)
  | .hFcmps a _ fa fb => a.wf && decide (fa < 32) && decide (fb < 32)
  | .hFcvt a _ fd fa _ => a.wf && decide (fd < 32) && decide (fa < 32)
  | .hFcvti a rd fa _ _ _ _ => a.wf && decide (rd < 32) && decide (fa < 32)
  | .hIcvtf a _ fd ra _ _ => a.wf && decide (fd < 32) && decide (ra < 32)
  | .hFsgn a _ fd fa mode => a.wf && decide (fd < 32) && decide (fa < 32) && decide (mode < 3)
  | .hBmov a _ rep cap _ => a.wf && decide (cap < 16) && rep.moves
  | .hBfill a _ rep cap _ => a.wf && decide (cap < 16) && rep.moves
  | .hBcmp a _ rep cap _ => a.wf && decide (cap < 16) && decide (rep ≠ .rpt)
  | .hBscan a _ rep cap _ => a.wf && decide (cap < 16) && decide (rep ≠ .rpt)
  | .hBmovd a _ rep cap _ => a.wf && decide (cap < 16) && rep.moves
  | .hQmul a _ rd ra rb => a.wf && decide (rd < 32) && decide (ra < 32) && decide (rb < 32)
  | .hQmulu a _ rd ra rb => a.wf && decide (rd < 32) && decide (ra < 32) && decide (rb < 32)
  | .hQneg a _ rd ra => a.wf && decide (rd < 32) && decide (ra < 32)
  | .hQnegu a _ rd ra => a.wf && decide (rd < 32) && decide (ra < 32)
  | .hQabs a _ rd ra => a.wf && decide (rd < 32) && decide (ra < 32)
  | .hQdiv a _ rd ra rb => a.wf && decide (rd < 32) && decide (ra < 32) && decide (rb < 32)
  | .hPdadd a rd ra rb => a.wf && decide (rd < 32) && decide (ra < 32) && decide (rb < 32)
  | .hPdsub a rd ra rb => a.wf && decide (rd < 32) && decide (ra < 32) && decide (rb < 32)
  | .registerVectorInstruction a _ _ _ vd va vb vc => a.wf && decide (vd < 8) && decide (va < 8) && decide (vb < 8) && decide (vc < 8)
  | .hIfence a => a.wf
  | .hFence a => a.wf
  | .hWopen a => a.wf
  | .hWclose a => a.wf
  | .hMfs a d r => a.wf && r.wf d
  | .hMts a r n => a.wf && r.wf n && decide (r ≠ .pcap)
  | .hRetx a => a.wf
  | .hScall a n => a.wf && decide (n < 256)
  | .hSret a => a.wf
  | .hWait a => a.wf
  | .hSplit a => a.wf
  | .splitComplete => true
  | .hMerge a => a.wf
  | .mergeComplete => true
  | .hBrk a imm => a.wf && decide (imm < 256)
  | .fpstRead a rd m => a.wf && m.wf && decide (rd < 32)
  | .dirtyClear _ c t _ => decide (c < 3) && decide (t < 4)
  | .droppedStitch core point thr _ => decide (core < 3) && decide (point < 6) && decide (thr < 4)
  | .resyncSweepEnd => true
  | .resyncJoin => true
  | .resyncTimeout => true
  | .noMajority point thr _ => decide (point < 6) && decide (thr < 4)
  | .voterSelfTest _ => true
  | .resyncCommand _ => true
  | .checkedMismatch q _ k pos _ => decide (q < 64) && decide (k < 32) && decide (pos < 64)
  | .checkMarkExpiry b => decide (b < 136)
  | .droppedStitchPop _ => true
  | .castOnStage0 _ => true
  | .castOnStage1 _ _ => true
  | .castOnStage2 _ _ _ _ => true
  | .castOnStage3 => true
  | .castOnStage4 _ => true
  | .castOnStage5 => true
  | .castOnStage6 _ _ _ _ _ _ _ => true
  | .castOnStage7 _ _ _ _ => true
  | .castOnStage8 => true
  | .stageWatchdog => true
  | .castonDone _ => true
  | .microcodeFault b _ => decide (b < 136)
  | .bedWake b => decide (b < 136)
  | .clockGate n => decide (n < 64)
  | .ucLock _ => true
  | .remapSet _ => true
  | .foeWrite _ _ => true
  | .foeRead _ => true
  | .verifyPly _ => true
  | .verifyDomain _ => true
  | .attest _ => true
  | .sign _ => true
  | .signRepair _ => true
  | .kthOpen _ => true
  | .rekey _ => true
  | .treeGenerationEnd => true
  | .challenge _ => true
  | .unlock _ => true
  | .keyop _ => true
  | .pathDone _ => true
  | .ketharTimeout => true
  | .jtagKunlock _ => true
  | .attestationCommand _ => true
  | .rekeyCommand _ => true
  | .challengeCommand _ => true
  | .unlockResponse _ _ => true
  | .sdoDownload _ idx sub _ _ => decide (idx < 65536) && decide (sub < 256)
  | .sdoUpload _ idx sub _ => decide (idx < 65536) && decide (sub < 256)
  | .hostMailboxGo _ _ => true
  | .pdoMapWrite _ idx sub _ _ => decide (idx < 65536) && decide (sub < 256)
  | .initToPreop _ => true
  | .preopToSafeop _ => true
  | .safeopToOp => true
  | .opToSafeop => true
  | .sm2Watchdog => true
  | .deviceBindoff t => decide (t < 3)
  | .deviceBindoffEnd => true
  | .initToBoot => true
  | .inputLatch => true
  | .sm2Event _ => true
  | .deviceBindoffCommand _ => true
  | .coldResetCommand _ => true
  | .warmResetCommand _ => true
  | .armCommand _ => true
  | .disarmCommand _ => true
  | .channelEnable _ n _ => decide (n < 16)
  | .cameraMapWrite _ n _ => decide (n < 16)
  | .bedMapWrite _ b _ => decide (b < 136)
  | .queueEntryWrite _ q _ => decide (q < 64)
  | .gaugeBedCommand _ => true
  | .replanBed _ => true
  | .replanAll _ => true
  | .recordFieldRepairs _ => true
  | .discardFieldRecords _ => true
  | .enterStandby _ => true
  | .returnToService _ => true
  | .clearCounters _ => true
  | .counterPoll => true
  | .slotImageWrite _ k _ => decide (k < 64)
  | .verifyAgain _ k => decide (k < 64)
  | .storeToFlash _ k => decide (k < 64)
  | .clearSlot _ k => decide (k < 64)
  | .hostBar0Write fn _ _ _ => decide (fn < 12)
  | .hostBar0Read fn _ _ => decide (fn < 12)
  | .hostBar2Access _ _ _ _ => true
  | .hostBar4Access fn _ _ _ _ => decide (fn < 12)
  | .dmaTailWrite _ c _ => decide (c < 8)
  | .dmaDescriptorDone c _ _ _ => decide (c < 8)
  | .dmaHaltClear _ c => decide (c < 8)
  | .handleFence _ => true
  | .handleFenceDone => true
  | .resultRecordCopy r => decide (r < 16)
  | .resultRingConsWrite _ r _ => decide (r < 16)
  | .msixUnmask _ k => decide (k < 1536)
  | .functionLevelReset fn => decide (fn < 12)
  | .pciePerst => true
  | .controlBusTimeout _ _ _ => true
  | .pcieCompletionTimeout c _ _ => decide (c < 8)
  | .junctionRead _ => true
  | .thermalRestart => true
  | .powerCapStep _ => true
  | .gaugeMeasurement _ => true
  | .gaugeMeasurementEnd _ _ _ _ => true
  | .gaugeGo _ b => decide (b < 136)
  | .webStoppedEntry => true
  | .webStoppedExit => true
  | .wakeComplete => true
  | .stby _ => true
  | .wake _ => true
  | .standbyExitDone _ _ _ _ => true
  | .avsTransactionFail => true
  | .avsRetry _ => true
  | .bedRequestTimeout b => decide (b < 136)
  | .threadWatchdog core thr => decide (core < 3) && decide (thr < 4)
  | .watchdogKick _ _ => true
  | .cold _ => true
  | .warm _ => true
  | .hook _ => true
  | .chgo _ n => decide (n < 16)
  | .powerOnReset => true
  | .coldReset _ => true
  | .warmReset _ => true
  | .hookComplexReset _ => true
  | .channelReset n => decide (n < 16)
  | .bedReset _ b => decide (b < 136)
  | .threadReset core thr => decide (core < 3) && decide (thr < 4)
  | .porstL => true
  | .sysrstL => true
  | .supplyBelowThreshold _ => true
  | .refckLoss => true
  | .refckReturn => true
  | .coreEnRise => true
  | .supplyTimeout _ => true
  | .coreEnRetry => true
  | .receiverLocksAgain l => decide (l < 32)
  | .ketharOperationEnd _ _ => true
  | .coreOvervoltage => true
  | .pcieLinkDown => true
  | .pcieLinkUp _ _ => true
  | .pciePerstRelease => true
  | .configurationRequest fn w _ _ => decide (fn < 12) && decide (w < 1024)
  | .jtagDebugAccess _ _ _ _ => true
  | .dcSyncEvent k _ => decide (k < 2)
  | .mailboxProtocolUnsupported _ => true
  | .ectPortLinkChange port _ => decide (port < 2)
  | .ingestBindoffTimeout n => decide (n < 16)
  | .resetInputRelease _ straps => decide (straps < 4)

end Sys2Proof
end

