-- ==== Sys2Proof/Tests/Slice0.lean ====
section
/-!
SUPPORT. Sys2Proof/Tests/Slice0.lean: commands that the check of well-formedness refuses and takes, single steps on the spec's own
numbers, and states that meet the hypotheses of the statements.
-/
namespace Sys2Proof.Tests
open Sys2Proof Sys2Proof.Machine

/-! ### Well-formedness -/

/-- Firmware. -/
def fw : Who := .firmware
/-- Thread 0 of core 0, an instruction of 4 bytes. -/
def h : HI := ⟨0, 0, 4, false, 0⟩
/-- A core that does not exist. -/
def h3 : HI := ⟨3, 0, 4, false, 0⟩
/-- Position 0 of the instruction in slot 0 of queue 0. -/
def a : SI := ⟨0, false, 0, 0, 1⟩
/-- A queue that does not exist. -/
def a64 : SI := ⟨64, false, 0, 0, 1⟩
/-- The memory operand [c0]. -/
def m : MOp := ⟨0, .base, 0, 0, 0⟩
/-- A capability register that does not exist. -/
def mBad : MOp := ⟨16, .base, 0, 0, 0⟩
/-- The memory operand [c0]+. -/
def mPost : MOp := ⟨0, .postInc, 0, 0, 0⟩

theorem test_wf_operands : (!HI.wf ⟨0, 4, 4, false, 0⟩ && !SI.wf ⟨0, false, 32, 0, 1⟩ && !SI.wf ⟨0, false, 0, 128, 1⟩ &&
    !MOp.wf ⟨0, .base, 0, 1, 0⟩ && !MOp.wf ⟨0, .base, 0, 0, 1⟩ && !MOp.wf ⟨0, .index, 0, 4, 0⟩ && !MOp.wf ⟨0, .index, 0, 0, 32⟩ &&
    !MOp.wf ⟨0, .base, 0x80000000, 0, 0⟩ && !MOp.wf ⟨0, .postInc, 8, 0, 0⟩ && !MOp.wf ⟨0, .preDec, 0, 1, 0⟩ &&
    !mPost.apart 0 && mPost.apart 1 && !MovKind.wf .gw 0 4 && !MovKind.wf .wg 4 0 && !MovKind.wf .cc 16 0 &&
    !SReg.wf (.gateC 8) 0 && !SReg.wf (.gateD 0) 16 && !SReg.wf .wspc 16) = true := by decide

theorem test_wf_refuses_1 : (([
    .encoderTransition 0 8 false false, .encoderStall 0 8, .encoderEnable fw 8 default, .courseBoundary 0 16,
    .channelEnterRun 0 16, .schedulerScan 0 64, .outputEventDue 0 64, .timeEventDue 0 64, .pulseEnd 0 64, .windowEnd 0 64,
    .pinHoldEnd 0 64, .commitHorizon 0 64, .outputBindoff fw 64, .outputBindoffComplete 64, .outputBindoffTimeout 64,
    .captureEdge 0 16 false, .capturePop fw 16, .evinWrite fw 64 default, .discoveryAttempt 0 32, .linkUp 32, .linkLockLoss 32,
    .codeErrorThreshold 32 0, .lineHeader 0 32 default 0 0 0, .lineHeader 0 0 default 8 0 0,
    .streamPacket 32 0 default default false false, .crcResolution 16 0 false, .courseRelease 16, .courseWatchdog 0 16,
    .heartbeatPacket 32, .heartbeatTimeout 32, .eventPacket 0 32 default, .mailboxGo fw 32 default,
    .mailboxAnswer 32 false 0 default, .mailboxAnswer 0 false 256 default, .mailboxWaitAck 32, .mailboxTimeout 32,
    .releaseRowWrite fw 16 0 default, .releaseRowWrite fw 0 4 default, .dropLogPop fw 16, .ingestBindoff fw 16 default] : List Instr).all fun c => !c.wf) = true := by decide

theorem test_wf_refuses_2 : (([
    .ingestBindoffEnd 16, .stashRequest 146 0 0 false false default default default 0,
    .stashRequest 0 0 134217728 false false default default default 0,
    .stashRequest 0 0 0 false false default default default 64, .bankGrant 4096 0 default default, .arbitrationTimeout 4096 0,
    .ddrRequest 146 0 0 false default default 0, .ddrReadReturn 12 0 0 default 0 0 0, .ddrReadReturn 0 2 0 default 0 0 0,
    .ddrReadReturn 0 0 0 default 2 0 0, .ddrReadReturn 0 0 0 default 0 8 0, .ddrReadReturn 0 0 0 default 0 0 32,
    .ddrRequestTimeout 12, .ddrFastPathEnd 12 false, .ddrFullPath 12, .ddrFillEnd 12, .patrolScrub 12 default 0 0 0,
    .patrolScrub 0 default 2 0 0, .patrolScrub 0 default 0 8 0, .patrolScrub 0 default 0 0 32, .spdThermalRead 12 default,
    .pmicError 12, .ddrRecoverCommand fw 12, .plySubmit fw 64 default, .plyStart 64, .pinEnable fw 64, .suspendComplete 64,
    .plyFaulted 64 false, .resume fw 64, .abort fw 64, .plyRetire 64, .completionPop fw 64, .instructionWatchdog 64 false 0,
    .instructionWatchdog 0 false 32, .epochRaise fw 64, .bedRequestReturn 136 default, .hazardWaitEnd a64, .specBufferFree 136,
    .migrationGo fw 64 0 0, .migrationGo fw 0 128 0] : List Instr).all fun c => !c.wf) = true := by decide

theorem test_wf_refuses_3 : (([
    .migrationGo fw 0 0 136, .migrationDrainEnd 64, .migrationDrainTimeout 64, .gaugeSwap 64 0, .gaugeSwap 0 128,
    .queueBindoff fw 64, .queueBindoffEnd 64, .bindoffCut 64, .channelBindoff 16, .streamMov a64, .cvt a64, .gath a64, .scat a64,
    .lut a64, .streamAdd a64, .streamSub a64, .streamMul a64, .streamMulh a64, .streamFma a64, .streamFms a64, .streamFnma a64,
    .streamMin a64, .streamMax a64, .streamAbs a64, .streamNeg a64, .absd a64, .dot4 a64, .clamp a64, .streamDiv a64,
    .streamRem a64, .sqrt a64, .streamAnd a64, .streamOr a64, .streamXor a64, .streamAndn a64, .streamNot a64, .streamShl a64,
    .streamShr a64, .streamSar a64, .streamRol a64] : List Instr).all fun c => !c.wf) = true := by decide

theorem test_wf_refuses_4 : (([
    .streamRor a64, .streamPopc a64, .streamClz a64, .streamCmp a64, .cmpr a64, .sel a64, .rsum a64, .rmin a64, .rmax a64,
    .rminx a64, .rmaxx a64, .rany a64, .rall a64, .rcnt a64, .scan a64, .cmps a64, .expd a64, .hist a64, .rle a64, .convw a64,
    .convc a64, .mark a64, .life a64, .commit a64, .frog a64, .resolv a64, .brc a64, .branchLifelineResolve 64 false, .sync a64,
    .syncAcquireMet a64, .wrow a64, .wrowRowReady a64, .loadDataArrival 3 0 0, .loadDataArrival 0 4 0, .storeBufferDrain 3 0,
    .storeBufferDrain 0 4, .swiWrite fw 3 default, .interruptEntry 3 0 false, .interruptEntry 0 4 false, .faultEntry 3 0] : List Instr).all fun c => !c.wf) = true := by decide

theorem test_wf_refuses_5 : (([
    .faultEntry 0 4, .lifelineEntry 3 0, .lifelineEntry 0 4, .threadRun fw 3 0, .threadRun fw 0 4, .undefinedInstruction h3,
    .hNop h3, .hAdd h3 default 0 0 0, .hAdd h default 32 0 0, .hAdd h default 0 32 0, .hAdd h default 0 0 32,
    .hSub h3 default 0 0 0, .hSub h default 32 0 0, .hSub h default 0 32 0, .hSub h default 0 0 32, .hCmp h3 default 0 0,
    .hCmp h default 32 0, .hCmp h default 0 32, .hNeg h3 default 0 0, .hNeg h default 32 0, .hNeg h default 0 32,
    .hAbs h3 default 0 0, .hAbs h default 32 0, .hAbs h default 0 32, .hMul h3 default 0 0 0, .hMul h default 32 0 0,
    .hMul h default 0 32 0, .hMul h default 0 0 32, .hMulh h3 default 0 0 0, .hMulh h default 32 0 0, .hMulh h default 0 32 0,
    .hMulh h default 0 0 32, .hMulhu h3 default 0 0 0, .hMulhu h default 32 0 0, .hMulhu h default 0 32 0,
    .hMulhu h default 0 0 32, .hDiv h3 default 0 0 0, .hDiv h default 32 0 0, .hDiv h default 0 32 0, .hDiv h default 0 0 32] : List Instr).all fun c => !c.wf) = true := by decide

theorem test_wf_refuses_6 : (([
    .hDivu h3 default 0 0 0, .hDivu h default 32 0 0, .hDivu h default 0 32 0, .hDivu h default 0 0 32, .hRem h3 default 0 0 0,
    .hRem h default 32 0 0, .hRem h default 0 32 0, .hRem h default 0 0 32, .hRemu h3 default 0 0 0, .hRemu h default 32 0 0,
    .hRemu h default 0 32 0, .hRemu h default 0 0 32, .hMin h3 default 0 0 0, .hMin h default 32 0 0, .hMin h default 0 32 0,
    .hMin h default 0 0 32, .hMax h3 default 0 0 0, .hMax h default 32 0 0, .hMax h default 0 32 0, .hMax h default 0 0 32,
    .hMinu h3 default 0 0 0, .hMinu h default 32 0 0, .hMinu h default 0 32 0, .hMinu h default 0 0 32, .hMaxu h3 default 0 0 0,
    .hMaxu h default 32 0 0, .hMaxu h default 0 32 0, .hMaxu h default 0 0 32, .hAnd h3 default 0 0 0, .hAnd h default 32 0 0,
    .hAnd h default 0 32 0, .hAnd h default 0 0 32, .hOr h3 default 0 0 0, .hOr h default 32 0 0, .hOr h default 0 32 0,
    .hOr h default 0 0 32, .hXor h3 default 0 0 0, .hXor h default 32 0 0, .hXor h default 0 32 0, .hXor h default 0 0 32] : List Instr).all fun c => !c.wf) = true := by decide

theorem test_wf_refuses_7 : (([
    .hAndn h3 default 0 0 0, .hAndn h default 32 0 0, .hAndn h default 0 32 0, .hAndn h default 0 0 32, .hNot h3 default 0 0,
    .hNot h default 32 0, .hNot h default 0 32, .hShl h3 default 0 0 0, .hShl h default 32 0 0, .hShl h default 0 32 0,
    .hShl h default 0 0 32, .hShr h3 default 0 0 0, .hShr h default 32 0 0, .hShr h default 0 32 0, .hShr h default 0 0 32,
    .hSar h3 default 0 0 0, .hSar h default 32 0 0, .hSar h default 0 32 0, .hSar h default 0 0 32, .hRol h3 default 0 0 0,
    .hRol h default 32 0 0, .hRol h default 0 32 0, .hRol h default 0 0 32, .hRor h3 default 0 0 0, .hRor h default 32 0 0,
    .hRor h default 0 32 0, .hRor h default 0 0 32, .hPopc h3 default 0 0, .hPopc h default 32 0, .hPopc h default 0 32,
    .hClz h3 default 0 0, .hClz h default 32 0, .hClz h default 0 32, .hQadd h3 default 0 0 0, .hQadd h default 32 0 0,
    .hQadd h default 0 32 0, .hQadd h default 0 0 32, .hQaddu h3 default 0 0 0, .hQaddu h default 32 0 0, .hQaddu h default 0 32 0] : List Instr).all fun c => !c.wf) = true := by decide

theorem test_wf_refuses_8 : (([
    .hQaddu h default 0 0 32, .hQsub h3 default 0 0 0, .hQsub h default 32 0 0, .hQsub h default 0 32 0, .hQsub h default 0 0 32,
    .hQsubu h3 default 0 0 0, .hQsubu h default 32 0 0, .hQsubu h default 0 32 0, .hQsubu h default 0 0 32,
    .hAddi h3 default 0 0 default, .hAddi h default 32 0 default, .hAddi h default 0 32 default, .hCmpi h3 default 0 default,
    .hCmpi h default 32 default, .hAndi h3 default 0 0 default, .hAndi h default 32 0 default, .hAndi h default 0 32 default,
    .hOri h3 default 0 0 default, .hOri h default 32 0 default, .hOri h default 0 32 default, .hXori h3 default 0 0 default,
    .hXori h default 32 0 default, .hXori h default 0 32 default, .hShli h3 default 0 0 0, .hShli h default 32 0 0,
    .hShli h default 0 32 0, .hShli h default 0 0 256, .hShri h3 default 0 0 0, .hShri h default 32 0 0, .hShri h default 0 32 0,
    .hShri h default 0 0 256, .hSari h3 default 0 0 0, .hSari h default 32 0 0, .hSari h default 0 32 0,
    .hSari h default 0 0 256, .hRoli h3 default 0 0 0, .hRoli h default 32 0 0, .hRoli h default 0 32 0,
    .hRoli h default 0 0 256, .hRori h3 default 0 0 0] : List Instr).all fun c => !c.wf) = true := by decide

theorem test_wf_refuses_9 : (([
    .hRori h default 32 0 0, .hRori h default 0 32 0, .hRori h default 0 0 256, .hMuli h3 default 0 0 default,
    .hMuli h default 32 0 default, .hMuli h default 0 32 default, .hMovi h3 default 0 default, .hMovi h default 32 default,
    .hMov h3 .gg 0 0, .hMov h .gg 32 0, .hMov h .gg 0 32, .hCsel h3 default 0 0 0 0, .hCsel h default 32 0 0 0,
    .hCsel h default 0 32 0 0, .hCsel h default 0 0 32 0, .hCsel h default 0 0 0 15, .hSext h3 default 0 0,
    .hSext h default 32 0, .hSext h default 0 32, .hZext h3 default 0 0, .hZext h default 32 0, .hZext h default 0 32,
    .hLd h3 default 0 m, .hLd h default 0 mBad, .hLd h default 32 m, .hLds h3 default 0 m, .hLds h default 0 mBad,
    .hLds h default 32 m, .hSt h3 default 0 m, .hSt h default 0 mBad, .hSt h default 32 m, .hSti h3 default m default,
    .hSti h default mBad default, .hLdf h3 default 0 m, .hLdf h default 0 mBad, .hLdf h default 32 m, .hStf h3 default 0 m,
    .hStf h default 0 mBad, .hStf h default 32 m, .hLdc h3 0 m] : List Instr).all fun c => !c.wf) = true := by decide

theorem test_wf_refuses_10 : (([
    .hLdc h 0 mBad, .hLdc h 16 m, .hLdc h 0 mPost, .hStc h3 0 m, .hStc h 0 mBad, .hStc h 16 m, .hStc h 0 mPost, .hLea h3 0 m,
    .hLea h 0 mBad, .hLea h 16 m, .hLdv h3 default 0 m, .hLdv h default 0 mBad, .hLdv h default 8 m, .hStv h3 default 0 m,
    .hStv h default 0 mBad, .hStv h default 8 m, .hGathv h3 default default 0 m 0, .hGathv h default default 0 mBad 0,
    .hGathv h default default 8 m 0, .hGathv h default default 0 m 8, .hGathv h default default 0 mPost 0,
    .hCas h3 default 0 0 m, .hCas h default 0 0 mBad, .hCas h default 32 0 m, .hCas h default 0 32 m, .hBr h3 default,
    .hBr h (0x80000000), .hBcc h3 0 default, .hBcc h 15 default, .hBcc h 0 (0x80000000), .hCall h3 default,
    .hCall h (0x80000000), .hCallr h3 0, .hCallr h 16, .hJr h3 0, .hJr h 16, .hRet h3, .hCbz h3 0 default, .hCbz h 32 default,
    .hCbz h 0 (0x8000)] : List Instr).all fun c => !c.wf) = true := by decide

theorem test_wf_refuses_11 : (([
    .hCbnz h3 0 default, .hCbnz h 32 default, .hCbnz h 0 (0x8000), .hCgeta h3 0 0, .hCgeta h 32 0, .hCgeta h 0 16,
    .hCgetb h3 0 0, .hCgetb h 32 0, .hCgetb h 0 16, .hCgetl h3 0 0, .hCgetl h 32 0, .hCgetl h 0 16, .hCgetp h3 0 0,
    .hCgetp h 32 0, .hCgetp h 0 16, .hCgett h3 0 0, .hCgett h 32 0, .hCgett h 0 16, .hCseta h3 0 0 0, .hCseta h 16 0 0,
    .hCseta h 0 16 0, .hCseta h 0 0 32, .hCinc h3 0 0 0, .hCinc h 16 0 0, .hCinc h 0 16 0, .hCinc h 0 0 32, .hCsetb h3 0 0 0,
    .hCsetb h 16 0 0, .hCsetb h 0 16 0, .hCsetb h 0 0 32, .hCandp h3 0 0 0, .hCandp h 16 0 0, .hCandp h 0 16 0, .hCandp h 0 0 32,
    .hCseal h3 0 0 0, .hCseal h 16 0 0, .hCseal h 0 16 0, .hCseal h 0 0 16, .hCunseal h3 0 0 0, .hCunseal h 16 0 0] : List Instr).all fun c => !c.wf) = true := by decide

theorem test_wf_refuses_12 : (([
    .hCunseal h 0 16 0, .hCunseal h 0 0 16, .hCclrt h3 0 0, .hCclrt h 16 0, .hCclrt h 0 16, .hCtest h3 0 0 0, .hCtest h 32 0 0,
    .hCtest h 0 16 0, .hCtest h 0 0 16, .hFadd h3 default 0 0 0, .hFadd h default 32 0 0, .hFadd h default 0 32 0,
    .hFadd h default 0 0 32, .hFsub h3 default 0 0 0, .hFsub h default 32 0 0, .hFsub h default 0 32 0, .hFsub h default 0 0 32,
    .hFmul h3 default 0 0 0, .hFmul h default 32 0 0, .hFmul h default 0 32 0, .hFmul h default 0 0 32, .hFdiv h3 default 0 0 0,
    .hFdiv h default 32 0 0, .hFdiv h default 0 32 0, .hFdiv h default 0 0 32, .hFsqrt h3 default 0 0, .hFsqrt h default 32 0,
    .hFsqrt h default 0 32, .hFma h3 default 0 0 0 0, .hFma h default 32 0 0 0, .hFma h default 0 32 0 0,
    .hFma h default 0 0 32 0, .hFma h default 0 0 0 32, .hFms h3 default 0 0 0 0, .hFms h default 32 0 0 0,
    .hFms h default 0 32 0 0, .hFms h default 0 0 32 0, .hFms h default 0 0 0 32, .hFnma h3 default 0 0 0 0,
    .hFnma h default 32 0 0 0] : List Instr).all fun c => !c.wf) = true := by decide

theorem test_wf_refuses_13 : (([
    .hFnma h default 0 32 0 0, .hFnma h default 0 0 32 0, .hFnma h default 0 0 0 32, .hFmin h3 default 0 0 0,
    .hFmin h default 32 0 0, .hFmin h default 0 32 0, .hFmin h default 0 0 32, .hFmax h3 default 0 0 0, .hFmax h default 32 0 0,
    .hFmax h default 0 32 0, .hFmax h default 0 0 32, .hFcmp h3 default 0 0, .hFcmp h default 32 0, .hFcmp h default 0 32,
    .hFcmps h3 default 0 0, .hFcmps h default 32 0, .hFcmps h default 0 32, .hFcvt h3 default 0 0 default,
    .hFcvt h default 32 0 default, .hFcvt h default 0 32 default, .hFcvti h3 0 0 default default false false,
    .hFcvti h 32 0 default default false false, .hFcvti h 0 32 default default false false, .hIcvtf h3 default 0 0 default false,
    .hIcvtf h default 32 0 default false, .hIcvtf h default 0 32 default false, .hFsgn h3 default 0 0 0, .hFsgn h default 32 0 0,
    .hFsgn h default 0 32 0, .hFsgn h default 0 0 3, .hBmov h3 default default 0 0, .hBmov h default default 16 0,
    .hBmov h default .eq 0 0, .hBfill h3 default default 0 0, .hBfill h default default 16 0, .hBfill h default .eq 0 0,
    .hBcmp h3 default default 0 0, .hBcmp h default default 16 0, .hBcmp h default .rpt 0 0, .hBscan h3 default default 0 0] : List Instr).all fun c => !c.wf) = true := by decide

theorem test_wf_refuses_14 : (([
    .hBscan h default default 16 0, .hBscan h default .rpt 0 0, .hBmovd h3 default default 0 0, .hBmovd h default default 16 0,
    .hBmovd h default .eq 0 0, .hQmul h3 default 0 0 0, .hQmul h default 32 0 0, .hQmul h default 0 32 0,
    .hQmul h default 0 0 32, .hQmulu h3 default 0 0 0, .hQmulu h default 32 0 0, .hQmulu h default 0 32 0,
    .hQmulu h default 0 0 32, .hQneg h3 default 0 0, .hQneg h default 32 0, .hQneg h default 0 32, .hQnegu h3 default 0 0,
    .hQnegu h default 32 0, .hQnegu h default 0 32, .hQabs h3 default 0 0, .hQabs h default 32 0, .hQabs h default 0 32,
    .hQdiv h3 default 0 0 0, .hQdiv h default 32 0 0, .hQdiv h default 0 32 0, .hQdiv h default 0 0 32, .hPdadd h3 0 0 0,
    .hPdadd h 32 0 0, .hPdadd h 0 32 0, .hPdadd h 0 0 32, .hPdsub h3 0 0 0, .hPdsub h 32 0 0, .hPdsub h 0 32 0, .hPdsub h 0 0 32,
    .registerVectorInstruction h3 default default default 0 0 0 0, .registerVectorInstruction h default default default 8 0 0 0,
    .registerVectorInstruction h default default default 0 8 0 0, .registerVectorInstruction h default default default 0 0 8 0,
    .registerVectorInstruction h default default default 0 0 0 8, .hIfence h3] : List Instr).all fun c => !c.wf) = true := by decide

theorem test_wf_refuses_15 : (([
    .hFence h3, .hWopen h3, .hWclose h3, .hMfs h3 0 .stat, .hMfs h 32 .stat, .hMts h3 .stat 0, .hMts h .stat 32, .hMts h .pcap 0,
    .hRetx h3, .hScall h3 0, .hScall h 256, .hSret h3, .hWait h3, .hSplit h3, .hMerge h3, .hBrk h3 0, .hBrk h 256,
    .fpstRead h3 0 m, .fpstRead h 0 mBad, .fpstRead h 32 m, .dirtyClear fw 3 0 default, .dirtyClear fw 0 4 default,
    .droppedStitch 3 0 0 0, .droppedStitch 0 6 0 0, .droppedStitch 0 0 4 0, .noMajority 6 0 0, .noMajority 0 4 0,
    .checkedMismatch 64 false 0 0 0, .checkedMismatch 0 false 32 0 0, .checkedMismatch 0 false 0 64 0, .checkMarkExpiry 136,
    .microcodeFault 136 0, .bedWake 136, .clockGate 64, .sdoDownload default 65536 0 false default,
    .sdoDownload default 0 256 false default, .sdoUpload default 65536 0 false, .sdoUpload default 0 256 false,
    .pdoMapWrite default 65536 0 false default, .pdoMapWrite default 0 256 false default] : List Instr).all fun c => !c.wf) = true := by decide

theorem test_wf_refuses_16 : (([
    .deviceBindoff 3, .channelEnable default 16 0, .cameraMapWrite default 16 default, .bedMapWrite default 136 0,
    .queueEntryWrite default 64 0, .slotImageWrite default 64 default, .verifyAgain default 64, .storeToFlash default 64,
    .clearSlot default 64, .hostBar0Write 12 0 default false, .hostBar0Read 12 0 false, .hostBar4Access 12 0 0 false default,
    .dmaTailWrite fw 8 default, .dmaDescriptorDone 8 default default false, .dmaHaltClear fw 8, .resultRecordCopy 16,
    .resultRingConsWrite fw 16 default, .msixUnmask fw 1536, .functionLevelReset 12, .pcieCompletionTimeout 8 default default,
    .gaugeGo fw 136, .bedRequestTimeout 136, .threadWatchdog 3 0, .threadWatchdog 0 4, .chgo fw 16, .channelReset 16,
    .bedReset fw 136, .threadReset 3 0, .threadReset 0 4, .receiverLocksAgain 32, .configurationRequest 12 0 false default,
    .configurationRequest 0 1024 false default, .dcSyncEvent 2 false, .ectPortLinkChange 2 false, .ingestBindoffTimeout 16,
    .resetInputRelease false 4] : List Instr).all fun c => !c.wf) = true := by decide

theorem test_wf_takes_1 : (([
    .encoderTransition 0 0 false false, .encoderStall 0 0, .encoderEnable fw 0 default, .courseBoundary 0 0,
    .channelEnterRun 0 0, .schedulerScan 0 0, .outputEventDue 0 0, .timeEventDue 0 0, .pulseEnd 0 0, .windowEnd 0 0,
    .pinHoldEnd 0 0, .commitHorizon 0 0, .outputBindoff fw 0, .outputBindoffComplete 0, .outputBindoffTimeout 0,
    .captureEdge 0 0 false, .capturePop fw 0, .evinWrite fw 0 default, .discoveryAttempt 0 0, .linkUp 0, .linkLockLoss 0,
    .codeErrorThreshold 0 0, .lineHeader 0 0 default 0 0 0, .streamPacket 0 0 default default false false,
    .crcResolution 0 0 false, .courseRelease 0, .courseWatchdog 0 0, .heartbeatPacket 0, .heartbeatTimeout 0,
    .eventPacket 0 0 default, .mailboxGo fw 0 default, .mailboxAnswer 0 false 0 default, .mailboxWaitAck 0, .mailboxTimeout 0,
    .releaseRowWrite fw 0 0 default, .dropLogPop fw 0, .ingestBindoff fw 0 default, .ingestBindoffEnd 0,
    .stashRequest 0 0 0 false false default default default 0, .bankGrant 0 0 default default] : List Instr).all Instr.wf) = true := by decide

theorem test_wf_takes_2 : (([
    .arbitrationTimeout 0 0, .ddrRequest 0 0 0 false default default 0, .ddrReadReturn 0 0 0 default 0 0 0, .ddrRequestTimeout 0,
    .ddrFastPathEnd 0 false, .ddrFullPath 0, .ddrFillEnd 0, .patrolScrub 0 default 0 0 0, .spdThermalRead 0 default,
    .pmicError 0, .ddrRecoverCommand fw 0, .plySubmit fw 0 default, .plyStart 0, .pinEnable fw 0, .suspendComplete 0,
    .plyFaulted 0 false, .resume fw 0, .abort fw 0, .plyRetire 0, .completionPop fw 0, .instructionWatchdog 0 false 0,
    .epochRaise fw 0, .bedRequestReturn 0 default, .hazardWaitEnd a, .specBufferFree 0, .migrationGo fw 0 0 0,
    .migrationDrainEnd 0, .migrationDrainTimeout 0, .gaugeSwap 0 0, .queueBindoff fw 0, .queueBindoffEnd 0, .bindoffCut 0,
    .channelBindoff 0, .streamMov a, .cvt a, .gath a, .scat a, .lut a, .streamAdd a, .streamSub a] : List Instr).all Instr.wf) = true := by decide

theorem test_wf_takes_3 : (([
    .streamMul a, .streamMulh a, .streamFma a, .streamFms a, .streamFnma a, .streamMin a, .streamMax a, .streamAbs a,
    .streamNeg a, .absd a, .dot4 a, .clamp a, .streamDiv a, .streamRem a, .sqrt a, .streamAnd a, .streamOr a, .streamXor a,
    .streamAndn a, .streamNot a, .streamShl a, .streamShr a, .streamSar a, .streamRol a, .streamRor a, .streamPopc a,
    .streamClz a, .streamCmp a, .cmpr a, .sel a, .rsum a, .rmin a, .rmax a, .rminx a, .rmaxx a, .rany a, .rall a, .rcnt a,
    .scan a, .cmps a] : List Instr).all Instr.wf) = true := by decide

theorem test_wf_takes_4 : (([
    .expd a, .hist a, .rle a, .convw a, .convc a, .mark a, .life a, .commit a, .frog a, .resolv a, .brc a,
    .branchLifelineResolve 0 false, .sync a, .syncAcquireMet a, .wrow a, .wrowRowReady a, .loadDataArrival 0 0 0,
    .storeBufferDrain 0 0, .swiWrite fw 0 default, .interruptEntry 0 0 false, .faultEntry 0 0, .lifelineEntry 0 0,
    .threadRun fw 0 0, .undefinedInstruction h, .hNop h, .hAdd h default 0 0 0, .hSub h default 0 0 0, .hCmp h default 0 0,
    .hNeg h default 0 0, .hAbs h default 0 0, .hMul h default 0 0 0, .hMulh h default 0 0 0, .hMulhu h default 0 0 0,
    .hDiv h default 0 0 0, .hDivu h default 0 0 0, .hRem h default 0 0 0, .hRemu h default 0 0 0, .hMin h default 0 0 0,
    .hMax h default 0 0 0, .hMinu h default 0 0 0] : List Instr).all Instr.wf) = true := by decide

theorem test_wf_takes_5 : (([
    .hMaxu h default 0 0 0, .hAnd h default 0 0 0, .hOr h default 0 0 0, .hXor h default 0 0 0, .hAndn h default 0 0 0,
    .hNot h default 0 0, .hShl h default 0 0 0, .hShr h default 0 0 0, .hSar h default 0 0 0, .hRol h default 0 0 0,
    .hRor h default 0 0 0, .hPopc h default 0 0, .hClz h default 0 0, .hQadd h default 0 0 0, .hQaddu h default 0 0 0,
    .hQsub h default 0 0 0, .hQsubu h default 0 0 0, .hAddi h default 0 0 default, .hCmpi h default 0 default,
    .hAndi h default 0 0 default, .hOri h default 0 0 default, .hXori h default 0 0 default, .hShli h default 0 0 0,
    .hShri h default 0 0 0, .hSari h default 0 0 0, .hRoli h default 0 0 0, .hRori h default 0 0 0, .hMuli h default 0 0 default,
    .hMovi h default 0 default, .hMov h .gg 0 0, .hCsel h default 0 0 0 0, .hSext h default 0 0, .hZext h default 0 0,
    .hLd h default 0 m, .hLds h default 0 m, .hSt h default 0 m, .hSti h default m default, .hLdf h default 0 m,
    .hStf h default 0 m, .hLdc h 0 m] : List Instr).all Instr.wf) = true := by decide

theorem test_wf_takes_6 : (([
    .hStc h 0 m, .hLea h 0 m, .hLdv h default 0 m, .hStv h default 0 m, .hGathv h default default 0 m 0, .hCas h default 0 0 m,
    .hBr h default, .hBcc h 0 default, .hCall h default, .hCallr h 0, .hJr h 0, .hRet h, .hCbz h 0 default, .hCbnz h 0 default,
    .hCgeta h 0 0, .hCgetb h 0 0, .hCgetl h 0 0, .hCgetp h 0 0, .hCgett h 0 0, .hCseta h 0 0 0, .hCinc h 0 0 0, .hCsetb h 0 0 0,
    .hCandp h 0 0 0, .hCseal h 0 0 0, .hCunseal h 0 0 0, .hCclrt h 0 0, .hCtest h 0 0 0, .hFadd h default 0 0 0,
    .hFsub h default 0 0 0, .hFmul h default 0 0 0, .hFdiv h default 0 0 0, .hFsqrt h default 0 0, .hFma h default 0 0 0 0,
    .hFms h default 0 0 0 0, .hFnma h default 0 0 0 0, .hFmin h default 0 0 0, .hFmax h default 0 0 0, .hFcmp h default 0 0,
    .hFcmps h default 0 0, .hFcvt h default 0 0 default] : List Instr).all Instr.wf) = true := by decide

theorem test_wf_takes_7 : (([
    .hFcvti h 0 0 default default false false, .hIcvtf h default 0 0 default false, .hFsgn h default 0 0 0,
    .hBmov h default default 0 0, .hBfill h default default 0 0, .hBcmp h default default 0 0, .hBscan h default default 0 0,
    .hBmovd h default default 0 0, .hQmul h default 0 0 0, .hQmulu h default 0 0 0, .hQneg h default 0 0, .hQnegu h default 0 0,
    .hQabs h default 0 0, .hQdiv h default 0 0 0, .hPdadd h 0 0 0, .hPdsub h 0 0 0,
    .registerVectorInstruction h default default default 0 0 0 0, .hIfence h, .hFence h, .hWopen h, .hWclose h, .hMfs h 0 .stat,
    .hMts h .stat 0, .hRetx h, .hScall h 0, .hSret h, .hWait h, .hSplit h, .hMerge h, .hBrk h 0, .fpstRead h 0 m,
    .dirtyClear fw 0 0 default, .droppedStitch 0 0 0 0, .noMajority 0 0 0, .checkedMismatch 0 false 0 0 0, .checkMarkExpiry 0,
    .microcodeFault 0 0, .bedWake 0, .clockGate 0, .sdoDownload default 0 0 false default] : List Instr).all Instr.wf) = true := by decide

theorem test_wf_takes_8 : (([
    .sdoUpload default 0 0 false, .pdoMapWrite default 0 0 false default, .deviceBindoff 0, .channelEnable default 0 0,
    .cameraMapWrite default 0 default, .bedMapWrite default 0 0, .queueEntryWrite default 0 0, .slotImageWrite default 0 default,
    .verifyAgain default 0, .storeToFlash default 0, .clearSlot default 0, .hostBar0Write 0 0 default false,
    .hostBar0Read 0 0 false, .hostBar4Access 0 0 0 false default, .dmaTailWrite fw 0 default,
    .dmaDescriptorDone 0 default default false, .dmaHaltClear fw 0, .resultRecordCopy 0, .resultRingConsWrite fw 0 default,
    .msixUnmask fw 0, .functionLevelReset 0, .pcieCompletionTimeout 0 default default, .gaugeGo fw 0, .bedRequestTimeout 0,
    .threadWatchdog 0 0, .chgo fw 0, .channelReset 0, .bedReset fw 0, .threadReset 0 0, .receiverLocksAgain 0,
    .configurationRequest 0 0 false default, .dcSyncEvent 0 false, .ectPortLinkChange 0 false, .ingestBindoffTimeout 0,
    .resetInputRelease false 0] : List Instr).all Instr.wf) = true := by decide

/-! ### Helpers -/

/-- The device after power-on. -/
abbrev R : State := State.reset

/-- A state with fields set as the hardware sets them: field, register number, value. -/
def on (l : List (Fld × Nat × Nat)) (s : State) : State := l.foldl (fun s e => s.setFld e.1 e.2.2 e.2.1) s

/-- The state a command leaves. -/
def after (c : Instr) (s : State) : State := match exec c s with | .next t => t | _ => s

/-- A device that has passed cast-on, in OP. -/
def up : State :=
  let s := on [(F.TMO_CASTON_DONE, 0, 1)] R
  { s with ect := { s.ect with al := 8 } }

/-! ### Witnesses: states and operands that meet the hypotheses of the statements, clause by clause -/

theorem witness_StepTakesTheFrontCommand :
    ({ R with pending := [.coreEnRise, .courseRelease 3] } : State).pending = .coreEnRise :: [.courseRelease 3] := by decide

theorem witness_EmptyQueueIsOneTick : R.pending = [] ∧ R.tb.refLost = false ∧ R.fld F.TBS_CTRL_SRC = 0 ∧
    ({ R with tb := ⟨0, 0, 0, 0, true, 63⟩ } : State).tb.refLost = true := by decide

/-- A device bind-off under way and a byte of working SRAM that is not 0. -/
def wInv : State := { (R.poke 0x00110000 [0xA5]) with ect := { up.ect with bindoff := some 2 }, pending := [.disarm fw] }

theorem witness_EveryStepKeepsInvariant : memWf wInv.mem = true ∧ alLegal wInv = true ∧
    (match step wInv with | .next t => memWf t.mem && alLegal t && decide (t.pending = []) | _ => false) = true := by decide

/-- DDR of 16 GiB. -/
def wDdr : State := on [(F.DDR_TOP_HI, 0, 0x104)] R

theorem witness_MemoryReadsWhatWasStored :
    memWf wDdr.mem = true ∧ wDdr.regionOf 0x02000000 = .tcm ∧ wDdr.regionOf 0x02000001 = .tcm ∧ wDdr.regionOf 0x004FFFF0 = .sram ∧
    wDdr.regionOf 0x20000000 = .stash ∧ wDdr.regionOf 0x27FFFFFF = .stash ∧ wDdr.regionOf 0 = .rom ∧
    wDdr.regionOf 0x103FFFFFFF0 = .ddr ∧ wDdr.ddrDown (wDdr.ddrChan 0x103FFFFFFF0) = false := by decide

/-- The fields of a kind. -/
def fieldsOf (k : RegKind) : List Field := k.info.fields

theorem witness_RegisterWrite :
    R.reaches fw ⟨.TBS_STEP_THR, 0, 0⟩ 7 = true ∧ RegKind.TBS_STEP_THR.hiOf = none ∧ RegKind.TBS_STEP_THR.loOf = none ∧
    RegKind.TBS_STEP_THR ∉ Sys2Proof.Claims.actingKinds ∧
    (fieldsOf .TBS_STEP_THR).any (fun f => f.acc == .rw && R.wcond fw ⟨.TBS_STEP_THR, 0, 0⟩ 7 f.cond && decide (f.rlo ≤ 7 ∧ 7 ≤ f.rhi)) = true ∧
    (fieldsOf .TIO_CH_DIV).any (fun f => f.acc == .rw && decide (bitsOf 0 f.hi f.lo < f.rlo)) = true ∧
    (fieldsOf .TBS_STAT).any (fun f => f.acc == .w1c) = true ∧ (fieldsOf .TBS_STAT).any (fun f => f.acc == .r) = true := by decide

/-- The permissions of the root capability. -/
def allPerms : BitVec 13 := 0x1FFF

theorem witness_PairsAndClearingReads :
    RegKind.KTH_SRC_HI.loOf = some .KTH_SRC_LO ∧ RegKind.KTH_SRC_LO.hiOf = some .KTH_SRC_HI ∧
    (fieldsOf .KTH_SRC_HI).any (fun f => f.acc != .r) = true ∧ (fieldsOf .KTH_SRC_LO).any (fun f => f.acc != .r) = true ∧
    R.reaches (.hook 0 0 allPerms) ⟨.KTH_SRC_LO, 0, 0⟩ 5 = true ∧ R.reaches fw ⟨.KTH_SRC_HI, 0, 0⟩ 5 = true ∧
    RegKind.KTH_SRC_HI ∉ [RegKind.TBS_SET_HI, .TIO_CH_ROW_HI, .CXP_CH_REL_HI, .TIO_CH_OFFSET_HI] ∧
    R.readsOut (.hook 0 0 allPerms) ⟨.TBS_TIME_LO, 0, 0⟩ = true ∧ R.aliased ⟨.TBS_TIME_LO, 0, 0⟩ = ⟨.TBS_TIME_LO, 0, 0⟩ ∧
    (fieldsOf .TBS_TIME_LO).any (fun f => f.acc == .rsc) = false ∧
    ({ R with latched := [(⟨.TBS_TIME_HI, 0, 0⟩, 9)] } : State).latched.find? (fun e => decide (e.1 = ⟨.TBS_TIME_HI, 0, 0⟩)) =
      some (⟨.TBS_TIME_HI, 0, 0⟩, 9) ∧
    R.readsOut fw ⟨.TIO_OUT_CNT, 63, 0⟩ = true ∧ R.aliased ⟨.TIO_OUT_CNT, 63, 0⟩ = ⟨.TIO_OUT_CNT, 63, 0⟩ ∧
    (fieldsOf .TIO_OUT_CNT).any (fun f => f.acc == .rsc) = true := by decide

/-- Permissions without permission `k`. -/
def lacking (k : Nat) : BitVec 13 := allPerms &&& ~~~(1#13 <<< k)

theorem witness_StoresNeedPermission :
    R.hookLive 0 0 = true ∧ Reg.ok ⟨.TIO_ARM, 0, 0⟩ = true ∧ (lacking pStore).toNat.testBit pStore = false ∧
    bitsOf (2 : Word).toNat 2 1 = 1 ∧ (lacking pArm).toNat.testBit pArm = false ∧ (lacking pArm).toNat.testBit pStore = true ∧
    bitsOf (4 : Word).toNat 2 1 ≠ 1 ∧ (lacking pSystem).toNat.testBit pSystem = false ∧ (lacking pSystem).toNat.testBit pStream = true ∧
    Reg.ok ⟨.PLQ_CTRL, 63, 0⟩ = true ∧ bitsOf (2 : Word).toNat 1 1 ≠ R.fld F.PLQ_CTRL_OWNER 63 ∧
    (lacking pSystem).toNat.testBit pIngest = true ∧ Reg.ok ⟨.CXP_MBX_CMD, 31, 0⟩ = true ∧
    bitsOf (1 : Word).toNat 0 0 ≠ R.fld F.CXP_MBX_CMD_OWNER 31 ∧ (lacking pLoad).toNat.testBit pLoad = false ∧
    Reg.ok ⟨.TBS_TIME_LO, 0, 0⟩ = true ∧ RegKind.TBS_TIME_LO.hiOf.isSome = true := by decide

theorem witness_AddressesNameTheirRegister :
    Reg.ofAddr (Reg.addr ⟨.TIO_OUT_EVIN, 63, 0⟩) = some ⟨.TIO_OUT_EVIN, 63, 0⟩ ∧ Reg.ok ⟨.TIO_OUT_EVIN, 63, 0⟩ = true := by decide

/-- The time base disciplined by EtherCAT or by 1PPS. -/
def wTb (src : Nat) : State := on [(F.TBS_CTRL_SRC, 0, src), (F.TBS_CTRL_DISCEN, 0, 1)] R
/-- Channel 0 in RUN. -/
def wRun (s : State) : State := s.setChan 0 { Chan.init with st := .run }

theorem witness_TimeBaseSources :
    ((wTb 1).advance 0).fld F.TBS_CTRL_SRC = 1 ∧ ((wTb 1).advance 0).fld F.TBS_CTRL_DISCEN = 1 ∧ ((wTb 1).advance 0).anyRun = false ∧
    (wTb 1).fld F.TBS_STEP_THR < (2000000001 : DWord).toInt.natAbs ∧ (wRun (wTb 1)).anyRun = true ∧
    ((wTb 2).advance 0).fld F.TBS_CTRL_SRC = 2 ∧ ((wTb 2).advance 0).flag F.TBS_CTRL_PPSPOL = !true ∧
    R.reaches fw ⟨.TBS_SET_HI, 0, 0⟩ 1 = true ∧ R.anyRun = false := by decide

/-- Encoder 7 enabled. -/
def wEnc : State := on [(F.TIO_ENC_CTRL_EN, 7, 1), (F.TIO_ENC_CTRL_STALL, 7, 100)] R

theorem witness_EncodersCount :
    (R.advance 0).flag F.TIO_ENC_CTRL_EN 7 = false ∧ (wEnc.advance 0).flag F.TIO_ENC_CTRL_EN 7 = true ∧
    ((wEnc.advance 0).enc 7).a = true ∧ ((wEnc.advance 0).enc 7).b = true ∧ (false ≠ true ↔ true = true) ∧
    ((wEnc.advance 0).enc 7).edges = [] ∧
    R.reaches fw ⟨.TIO_ENC_CTRL, 7, 0⟩ 1 = true ∧ (1 : Word).toNat.testBit 0 = true := by decide

/-- Channel 15 in RUN, its boundaries from encoder 0, or every 1,000 ns from 0. -/
def wBnd (src : Nat) (k : Int) : State :=
  (on [(F.TIO_CH_CTRL_BSRC, 15, src), (F.TIO_CH_PERIOD, 15, 1000)] R).setChan 15 { Chan.init with st := .run, k := k }

theorem witness_CourseBoundary :
    ((wBnd 1 0).advance 0).bsrc 15 = 1 ∧ (((wBnd 1 0).advance 0).chan 15).st = .run ∧
    ((wBnd 1 0).advance 0).flag F.TIO_CH_CTRL_LOCKEN 15 = false ∧
    ((wBnd 1 0).advance 0).fld F.TIO_CH_DIV 15 * 0 ≤ ((wBnd 1 0).advance 0).encPos (((wBnd 1 0).advance 0).encOf 15) ∧
    ((wBnd 2 1).advance 1000).bsrc 15 = 2 ∧
    (((wBnd 2 1).advance 1000).chan 15).t0 + 1 * ((wBnd 2 1).advance 1000).fld F.TIO_CH_PERIOD 15 ≤ ((wBnd 2 1).advance 1000).now ∧
    ((wBnd 2 1).advance 999).now < 1000 ∧ ((wBnd 0 1).advance 0).bsrc 15 = 0 ∧
    ((wBnd 1 1).advance 0).encPos (((wBnd 1 1).advance 0).encOf 15) < 1 * ((wBnd 1 1).advance 0).fld F.TIO_CH_DIV 15 ∧
    (((wBnd 1 1).advance 0).chan 15).revHold = true := by decide

/-- Channel 0 wanted, with one camera of 64 wales and a ring of 64 KiB, in OP with DDR initialized. -/
def wEnter : State :=
  let s := on [(F.CXP_CAM_CTRL_EN, 3, 1), (F.CXP_CAM_WIDTH, 3, 64), (F.CXP_CH_WALES, 0, 64), (F.CXP_CH_RING_SIZE, 0, 1)] up
  { s with od := [(0x210001, 1)] }

theorem witness_ChannelEntersRun :
    ((wEnter.advance 0).chan 0).st = .idle ∧ (wEnter.advance 0).chanWanted 0 = true ∧ (wEnter.advance 0).runOk 0 = true ∧
    (wEnter.advance 0).srcChan 0 = 0 ∧ (wEnter.advance 0).bsrc 0 = 0 ∧ (∀ m, m < 16 → (wEnter.advance 0).locked m = false) ∧
    (wEnter.advance 0).chanWanted 15 = false := by decide

/-- A committed event. -/
def wEv (k : EvKind) (a : EvAct) (tent : Bool) : OutEv := ⟨k, 0, 0, a, 5, tent, 0, 0, 1, .evin⟩
/-- Output 63 armed, with a queue. -/
def wOut (q : List OutEv) (hpol : Nat) : State :=
  (on [(F.TIO_ARM_ARMED, 0, 1), (F.TIO_OUT_CTRL_EN, 63, 1), (F.TIO_OUT_CTRL_HPOL, 63, hpol)] R).setOut 63 { Out.init with q := q }

theorem witness_SchedulerPerforms :
    (R.advance 0).flag F.TIO_ARM_ARMED = false ∧
    ([EvAct.set, .clear, .pulse, .window].all fun act =>
      let u := (wOut [wEv .time act false] 0).advance 0
      u.flag F.TIO_ARM_ARMED && decide ((u.out 63).q = [wEv .time act false]) && u.isDue 63 (wEv .time act false)) = true ∧
    ([0, 1].all fun hpol =>
      let u := (wOut [wEv .time .set true] hpol).advance 0
      decide ((u.out 63).q = [wEv .time .set true]) && u.atHorizon 63 (wEv .time .set true) &&
        decide (u.flag F.TIO_OUT_CTRL_HPOL 63 = decide (hpol = 1))) = true := by decide

/-- Output 63 with three words of an event written by firmware, armed and enabled or not, its channel's position valid, its queue as
long as given. -/
def wEvin (arm en n : Nat) (w0 : Word) : State :=
  let s := on [(F.TIO_ARM_ARMED, 0, arm), (F.TIO_OUT_CTRL_EN, 63, en), (F.TIO_CH_CTRL_ENCVALID, 0, 1)] R
  let s := s.setOut 63 { Out.init with q := List.replicate n (wEv .time .set false) }
  { s with web := { s.web with evin := [⟨63, 3, 0, 0, [w0, 9, 0]⟩] } }

theorem witness_EventWindow :
    R.reaches fw ⟨.TIO_OUT_EVIN, 63, 0⟩ 2 = true ∧ R.evinWho fw = (3, 0, 0) ∧ R.web.evin = [] ∧
    (wEvin 0 0 0 2).flag F.TIO_ARM_ARMED = false ∧ (wEvin 1 0 0 2).flag F.TIO_ARM_ARMED = true ∧
    (wEvin 1 0 0 2).flag F.TIO_OUT_CTRL_EN 63 = false ∧ (evinEvent 3 9 0 5).kind = .reserved ∧ (evinEvent 2 9 0 5).kind = .time ∧
    (wEvin 1 1 0 2).flag F.TIO_OUT_CTRL_EN 63 = true ∧ ((wEvin 1 1 0 2).out 63).bindoff = false ∧
    (wEvin 1 1 0 2).encValid ((wEvin 1 1 0 2).fld F.TIO_OUT_CTRL_CHAN 63) = true ∧ (wEvin 1 1 0 2).now < 9 ∧
    ((wEvin 1 1 31 2).out 63).q.length < 32 ∧ 32 ≤ ((wEvin 1 1 32 2).out 63).q.length ∧
    9 ≤ ((wEvin 1 1 0 2).advance 9).now ∧ ((wEvin 1 1 0 2).advance 9).flag F.TIO_OUT_CTRL_LPOL 63 = false := by decide

/-- Output 63 with a hold until 20 ns after power-on. -/
def wHold : State := R.setOut 63 { Out.init with hold := some 20 }

theorem witness_OutputEnds : (wHold.out 63).hold = some 20 ∧ 20 ≤ (wHold.advance 20).uptime ∧ (wHold.advance 19).uptime < 20 ∧
    (R.out 63).hold = none := by decide

/-- Output 63 binding off, with a queue. -/
def wOff (q : List OutEv) : State := R.setOut 63 { Out.init with q := q, bindoff := true }

theorem witness_OutputBindoff :
    (wOut [wEv .time .set true] 0).mayPut fw F.TIO_OUT_CTRL_EN 0 63 0 = true ∧
    (wOut [wEv .time .set true] 0).flag F.TIO_OUT_CTRL_EN 63 = true ∧ ((wOut [wEv .time .set true] 0).out 63).bindoff = false ∧
    ((wOff []).out 63).bindoff = true ∧ ((wOff []).out 63).q = [] ∧ ((wOff []).out 63).pulses = [] ∧ ((wOff []).out 63).windows = [] ∧
    ((wOff [wEv .time .set false]).out 63).bindoff = true ∧ ((wOff [wEv .time .set false]).out 63).q ≠ [] := by decide

/-- Capture input 15 enabled for both edges, with so many records. -/
def wCap (n : Nat) : State := (on [(F.TIO_CAP_CTRL_EN, 15, 1), (F.TIO_CAP_CTRL_EDGE, 15, 2)] R).setCap 15 (List.replicate n ⟨0, 0, 0⟩)

theorem witness_ArmAndCapture :
    R.reaches (.hook 0 0 allPerms) ⟨.TIO_ARM, 0, 0⟩ 2 = true ∧ R.voted = true ∧ R.flag F.VOT_STEST_FAIL = false ∧
    (on [(F.VOT_STEST_FAIL, 0, 1)] R).reaches fw ⟨.TIO_ARM, 0, 0⟩ 2 = true ∧ (on [(F.VOT_STEST_FAIL, 0, 1)] R).flag F.VOT_STEST_FAIL = true ∧
    R.reaches fw ⟨.TIO_ARM, 0, 0⟩ 4 = true ∧
    ((wCap 7).advance 0).flag F.TIO_CAP_CTRL_EN 15 = true ∧ ((wCap 7).advance 0).fld F.TIO_CAP_CTRL_EDGE 15 = 2 ∧
    (((wCap 7).advance 0).cap 15).length < 8 ∧ 8 ≤ (((wCap 8).advance 0).cap 15).length ∧
    (R.advance 0).flag F.TIO_CAP_CTRL_EN 15 = false ∧ R.readsOut fw ⟨.TIO_CAP_POS_HI, 15, 0⟩ = true := by decide

/-- Link 31, up and locked, of camera 31 on channel 15; its channel's rows. -/
def wLink (rows : List IRow) (cam : Cam) : State :=
  let s := on [(F.CXP_LNK_CTRL_EN, 31, 1), (F.CXP_LNK_STAT_UP, 31, 1), (F.CXP_LNK_STAT_LOCK, 31, 1), (F.CXP_CAM_CTRL_EN, 31, 1),
    (F.CXP_CAM_LINKS, 31, 2 ^ 31), (F.CXP_CAM_CTRL_CHAN, 31, 15), (F.CXP_CAM_CTRL_MASTER, 31, 31), (F.CXP_CAM_WIDTH, 31, 64)] R
  (s.setIch 15 { IChan.init with rows := rows }).setCam 31 cam
/-- A camera whose tag base is set. -/
def wCam (cur : Option Nat) : Cam := ⟨0, false, false, cur⟩
/-- A marker of row 5 at time 0. -/
def wMk : Marker := ⟨5, 0, 0, 0, 0, 0, 0, 15, 0⟩
/-- Row 5 with the line of camera 31. -/
def wRow (st : LineSt) (fin : Option Finish) (rel : Bool) : IRow := ⟨5, wMk, [(31, st)], fin, false, false, rel⟩

theorem witness_LinkStates :
    ((on [(F.CXP_LNK_CTRL_EN, 31, 1)] R).advance 0).flag F.CXP_LNK_CTRL_EN 31 = true ∧
    ((on [(F.CXP_LNK_CTRL_EN, 31, 1)] R).advance 0).flag F.CXP_LNK_STAT_UP 31 = false ∧ (R.advance 0).ing.downAt = [] ∧
    (R.advance 0).flag F.CXP_LNK_CTRL_EN 31 = false ∧ (wLink [] (wCam none)).flag F.CXP_LNK_STAT_LOCK 31 = true ∧
    (wLink [] (wCam none)).camOfLink 31 = some 31 ∧ (wLink [] (wCam none)).flag F.CXP_LNK_CTRL_EN 31 = true := by decide

theorem witness_LineHeadersPair :
    let u := (wLink [wRow .pending none false] (wCam none)).advance 0
    u.flag F.CXP_LNK_STAT_UP 31 = true ∧ u.camOfLink 31 = some 31 ∧ (∀ m, m < 16 → u.bsrc m ≠ 3) ∧ (u.cam 31).lost = false ∧
    (u.cam 31).want = false ∧ (u.ich 15).rows = [wRow .pending none false] ∧
    (wRow .pending none false).lines.get 31 .verified = .pending ∧ u.expectTag 31 5 = (5 : Half).toNat ∧
    u.badFormat 31 0 64 1 = false ∧ u.badFormat 31 1 64 1 = true ∧
    (∀ r ∈ (((wLink [] (wCam none)).advance 0).ich 15).rows, rowPending r 31 = false) := by decide

theorem witness_StreamPackets :
    let s := wLink [wRow .arriving none false] (wCam (some 5))
    s.flag F.CXP_LNK_STAT_UP 31 = true ∧ s.camOfLink 31 = some 31 ∧ ((wLink [] (wCam none)).cam 31).cur = none ∧
    (s.cam 31).cur = some 5 ∧
    (∀ r ∈ ((wLink [⟨5, wMk, [(30, .arriving), (31, .arriving)], none, false, false, false⟩] (wCam (some 5))).ich 15).rows,
      r.row = 5 → lastOutstanding r 31 = false) := by decide

theorem witness_CourseEnds :
    R.consumers 15 = [] ∧ (wLink [wRow .pending none false] (wCam none)).headRow 15 = some (wRow .pending none false) ∧
    (wLink [] (wCam none)).consumers 15 = [] ∧
    (wLink [wRow .verified (some .complete) false] (wCam none)).headRow 15 = some (wRow .verified (some .complete) false) ∧
    (wLink [wRow .unresolved (some .spec) false] (wCam none)).headRow 15 = some (wRow .unresolved (some .spec) false) ∧
    ((wLink [wRow .unresolved (some .spec) true] (wCam none)).ich 15).rows = [wRow .unresolved (some .spec) true] ∧
    (wRow .unresolved (some .spec) true).rel = true ∧
    (let u := (wLink [wRow .pending none false] (wCam none)).advance 0
     (u.ich 15).rows = [wRow .pending none false] ∧ (u.cam 31).cur = none ∧
     u.now < wMk.time.toNat + u.fld F.CXP_CH_CWD 15 * 1000) ∧
    (let u := (wLink [wRow .pending none false] (wCam none)).advance 20000000
     wMk.time.toNat + u.fld F.CXP_CH_CWD 15 * 1000 ≤ u.now) := by decide

/-- Mailbox 31 outstanding. -/
def wMbx : State := on [(F.CXP_MBX_STAT_BUSY, 31, 1)] R

theorem witness_HeartbeatsEventsMailboxes :
    let s := wLink [] { wCam none with lost := true }
    s.flag F.CXP_LNK_STAT_UP 31 = true ∧ s.camOfMaster 31 = some 31 ∧ (s.cam 31).lost = true ∧ s.flag F.CXP_LNK_CTRL_EN 31 = true ∧
    (s.ich (s.fld F.CXP_CAM_CTRL_CHAN 31)).rows = [] ∧ s.ing.fifo.length < 64 ∧
    64 ≤ ({ s with ing := { s.ing with fifo := List.replicate 64 ⟨0, 0, [], false⟩ } } : State).ing.fifo.length ∧
    R.readsOut fw ⟨.CXP_EVT_HEAD, 15, 0⟩ = true ∧ R.reaches fw ⟨.CXP_MBX_CMD, 31, 0⟩ 0x80000000 = true ∧
    wMbx.reaches fw ⟨.CXP_MBX_CMD, 31, 0⟩ 0x80000000 = true ∧ (0x80000000 : Word).toNat.testBit 31 = true ∧
    wMbx.flag F.CXP_MBX_STAT_BUSY 31 = true ∧ R.flag F.CXP_MBX_STAT_BUSY 31 = false ∧ R.flag F.CXP_MBX_CMD_OP 31 = false := by decide

/-- Ingest of channel 15 binding off. -/
def wIbo (rows : List IRow) : State := on [(F.CXP_CH_ISTAT_BINDOFF, 15, 1)] (wLink rows (wCam none))

theorem witness_ReleaseAndIngestBindoff :
    R.reaches fw ⟨.CXP_CH_REL_HI, 15, 3⟩ 1 = true ∧ R.consPly 15 3 = false ∧ R.relRow 15 3 < 2 ^ 32 * (1 : Word).toNat ∧
    0 ≤ R.relRow 15 3 ∧ (R.setReg ⟨.CXP_CH_CONS, 15, 0⟩ 0x00008000).consPly 15 3 = true ∧
    R.readsOut fw ⟨.CXP_CH_DLOG_HI, 15, 0⟩ = true ∧
    (on [(F.CXP_CH_ICTRL_EN, 15, 1), (F.CXP_CH_ISTAT_RUN, 15, 1)] R).reaches fw ⟨.CXP_CH_ICTRL, 15, 0⟩ 0 = true ∧
    (on [(F.CXP_CH_ICTRL_EN, 15, 1), (F.CXP_CH_ISTAT_RUN, 15, 1)] R).flag F.CXP_CH_ICTRL_EN 15 = true ∧
    (on [(F.CXP_CH_ICTRL_EN, 15, 1), (F.CXP_CH_ISTAT_RUN, 15, 1)] R).flag F.CXP_CH_ISTAT_RUN 15 = true ∧
    (wIbo []).flag F.CXP_CH_ISTAT_BINDOFF 15 = true ∧ ((wIbo []).ich 15).rows = [] ∧ (∀ q, q < 16 → ((wIbo []).plq q).bindAfter = false) ∧
    (wIbo [wRow .pending none false]).flag F.CXP_CH_ISTAT_BINDOFF 15 = true ∧
    ((wIbo [wRow .pending none false]).headRow 15).isSome = true := by decide

theorem witness_StashMap :
    2 ^ 27 - 1 < 2 ^ 27 ∧ stBank (2 ^ 27 - 1) < 4096 ∧ stBank (2 ^ 27 - 1) = stBank (2 ^ 27 - 2) ∧
    stBank (0x400000 + 1023 * 0x10000) = stBank (0x400000 + 1023 * 0x10000) := by decide

/-- A request of port 145 for the word at offset 0x07FFFFF0. -/
def wReq (port : Nat) (wr : Bool) (age : Nat) (off : Nat := 0x07FFFFF0) : StReq := ⟨port, 1, off, wr, 0xA5, 0xFFFF, age, 0, 0⟩
/-- That word's bank. -/
def wBank : Nat := stBank 0x07FFFFF0
/-- The bank's queue. -/
def wSt (q : List StReq) : State := { R with stash := { R.stash with queues := R.stash.queues.set wBank q } }

theorem witness_StashRequests :
    ((wSt (List.replicate 15 (wReq 145 false 0))).stash.queues.get wBank []).length < 16 ∧
    16 ≤ ((wSt (List.replicate 16 (wReq 145 false 0))).stash.queues.get wBank []).length ∧
    (∀ w, w < 4 → (R.stash.queues.get (stBank 0x07FFFFC0 + w) []).length < 16) ∧ wBank < 4096 ∧
    (wSt [wReq 145 false 0]).stash.urgent = [] ∧ (wSt [wReq 145 false 0]).stash.queues.get wBank [] = [wReq 145 false 0] ∧
    0 < R.fld F.STH_ARB_TO ∧ 0 + R.fld F.STH_ARB_TO ≤ R.stash.cycle + R.fld F.STH_ARB_TO := by decide

/-- A write with a stale epoch by bed 0. -/
def wStale : StReq := { wReq 0 true 0 with epoch := 9 }

theorem witness_StashGrants :
    let q := fun l => (wSt l).stash.queues.get wBank []
    R.stash.busy = [] ∧ R.stash.fabric = [] ∧ R.stash.conflict = [] ∧ memWf R.mem = true ∧ (wReq 145 false 0).off % 16 = 0 ∧
    R.stash.queues.get wBank [] = [] ∧ q [wReq 145 false 0] = [wReq 145 false 0] ∧
    (let y := wReq 0 false 1 (0x07FFFFF0 ^^^ 0x10040)
     stBank y.off = wBank ∧ y.off ≠ 0x07FFFFF0 ∧ q [wReq 145 false 0, y] = [wReq 145 false 0, y] ∧ (wReq 145 false 0).age < y.age ∧
     R.pair F.STH_CONFL_LO F.STH_CONFL_HI 0 + 1 < 2 ^ 64) ∧
    q [wReq 145 false 0, wReq 144 true 0] = [wReq 145 false 0, wReq 144 true 0] ∧ 136 ≤ (wReq 144 true 0).port ∧
    (wReq 144 true 0).be = 0xFFFF ∧ (136 + 146 - (R.stash.cycle + 0) % 146) % 146 < (145 + 146 - (R.stash.cycle + 0) % 146) % 146 ∧
    ¬ (136 ≤ wStale.port ∨ wStale.epoch.toNat = R.fld F.PLQ_BIND_EPOCH wStale.plq) ∧
    R.pair F.BED_STALE_LO F.BED_STALE_HI + 1 < 2 ^ 64 := by decide

/-- The bank test of bank 63 of slice 63 in a phase, with spares as given. -/
def wTest (p : TestPhase) (sp0 sp1 : Nat) : State :=
  let s := on [(F.STH_CTRL_TESTEN, 0, 1), (F.RPR_STAT_DONE, 0, 1), (F.STH_SLICE_SPARE_SP0, 63, sp0), (F.STH_SLICE_SPARE_SP1, 63, sp1)] R
  { s with stash := { s.stash with phase := p, next := 63 * 66 + 63, spare := 64 } }

theorem witness_BankTest :
    (wTest .idle 0x40 0x40).stash.next = 63 * 66 + 63 ∧ (wTest .idle 0x40 0x40).flag F.STH_CTRL_TESTEN = true ∧
    (wTest .idle 0x40 0x40).flag F.RPR_STAT_DONE = true ∧ (wTest .idle 0x40 0x40).bankFailed 63 63 = false ∧
    (wTest .idle 0x40 0x40).fld F.STH_SLICE_SPARE_SP0 63 = 0x40 ∧ (wTest .idle 1 2).fld F.STH_SLICE_SPARE_SP0 63 ≠ 0x40 ∧
    (wTest .idle 1 2).fld F.STH_SLICE_SPARE_SP1 63 ≠ 0x40 ∧ (wTest .idle 1 2).bankFailed 63 63 = false ∧
    R.stash.phase = .idle ∧ R.flag F.RPR_STAT_DONE = false ∧ (wTest .copy 0x41 0x40).stash.phase = .copy ∧
    (wTest .test 0x41 0x40).stash.phase = .test ∧ (wTest .test 0x41 0x40).stash.spare = 64 ∧
    (wTest .copyBack 0x41 0x40).stash.phase = .copyBack := by decide

/-- Channel 0 of DDR in service, of 16 GiB, with reads and writes outstanding at its subchannel A. -/
def wDdrQ (rq : List DdrRead) (wq : List DdrWrite) : State :=
  let s := on [(F.DDR_TOP_HI, 0, 0x104), (F.DDR_CFG_CHMASK, 0, 1), (F.DDR_CTRL_SCRUBEN, 0, 1)] R
  { s with ddr := { s.ddr with rq := [(0, rq)], wq := [(0, wq)], capacity := 2 ^ 34 } }

theorem witness_DdrRequests :
    let s := wDdrQ [⟨145, 1, ddrBase⟩] []
    ddrBase < s.ddrTop ∧ s.ddrTop % 64 = 0 ∧ s.ddr.fabric = [] ∧ memWf s.mem = true ∧ (List.replicate 64 (0 : Byte)).length = 64 ∧
    s.ddrChan ddrBase = 0 ∧ s.ddrDown 0 = false ∧ s.ddrChans.contains 0 = true ∧
    (((wDdrQ (List.replicate 95 ⟨0, 0, ddrBase⟩) []).ddr.rq).get 0 []).length < 96 ∧
    96 ≤ (((wDdrQ (List.replicate 96 ⟨0, 0, ddrBase⟩) []).ddr.rq).get 0 []).length ∧
    (((wDdrQ [] (List.replicate 47 ⟨ddrBase, none⟩)).ddr.wq).get 0 []).length < 48 ∧
    48 ≤ (((wDdrQ [] (List.replicate 48 ⟨ddrBase, none⟩)).ddr.wq).get 0 []).length ∧
    s.ddr.rq.get 0 [] = [⟨145, 1, ddrBase⟩] ∧ (∀ w ∈ s.ddr.wq.get 0 [], w.line ≠ ddrBase) ∧ s.mem.poison.contains ddrBase = false ∧
    (∃ w ∈ (wDdrQ [] [⟨ddrBase, none⟩]).ddr.wq.get 0 [], w.line = ddrBase) ∧
    ({ s with mem := { s.mem with poison := [ddrBase] } } : State).mem.poison.contains ddrBase = true ∧
    s.flag F.DDR_CTRL_SCRUBEN = true ∧ 0 < s.ddr.capacity ∧ s.patrolAddr 0 (s.ddr.patrol.get 0 0) = some ddrBase ∧
    (on [(F.DDR_CTRL_SCRUBEN, 0, 0)] (wDdrQ [] [])).flag F.DDR_CTRL_SCRUBEN = false := by decide

/-- Channel 11 of DDR, with a flag set. -/
def wRec (f : Fld) : State := on [(F.DDR_CFG_CHMASK, 0, 2 ^ 11), (f, 11, 1)] R

theorem witness_DdrRecovery :
    (wDdrQ [⟨0, 0, ddrBase⟩] []).ddrChans.contains 0 = true ∧ (wDdrQ [⟨0, 0, ddrBase⟩] []).ddrDown 0 = false ∧
    (wDdrQ [⟨0, 0, ddrBase⟩] []).mayPut fw F.DDR_CH_CTRL_RECOVER 1 0 0 = true ∧ (wDdrQ [⟨0, 0, ddrBase⟩] []).ddrWaits 0 = true ∧
    R.ddrWaits 11 = false ∧ (wRec F.DDR_CH_STAT_RECOVER).flag F.DDR_CH_STAT_RECOVER 11 = true ∧
    (∀ w ∈ (wRec F.DDR_CH_STAT_RECOVER).ddr.wq.get 22 [] ++ (wRec F.DDR_CH_STAT_RECOVER).ddr.wq.get 23 [], w.src = none) ∧
    memWf (wRec F.DDR_CH_STAT_RECOVER).mem = true ∧ (wRec F.DDR_CH_STAT_LOST).flag F.DDR_CH_STAT_LOST 11 = true ∧
    (wRec F.DDR_CH_STAT_LOST).flag F.DDR_CH_STAT_OFFLINE 11 = false := by decide

/-- Bed 0 at position 0 of set 63, to which queue 63, enabled, is bound. -/
def wQ : State :=
  on [(F.BED_CTRL_EN, 0, 1), (F.BED_CTRL_SET, 0, 63), (F.PLQ_BIND_BOUND, 63, 1), (F.PLQ_BIND_SET, 63, 63), (F.PLQ_CTRL_EN, 63, 1)] R
/-- An entry of one slot and one skein register. -/
def wEntry : Entry := ⟨capNull, capNull, 7, 0, 0, 0, 1, 1⟩
/-- A program of one MOV of U8. -/
def wProg (opc : Nat) : List SIns := [⟨opc, 0, 0, 1, 0, 0, false, 0, 0, false, false, 0, 0⟩]
/-- Skein registers of four U8 in the stash, at offsets 0 and 64. -/
def wSk : List Skein := [⟨capRoot, 0x20000000, 1, 0, 4, 1, 0, 0, false, 0, 0, 0⟩, ⟨capRoot, 0x20000040, 1, 0, 4, 1, 0, 0, false, 0, 0, 0⟩]
/-- A running ply on one bed. -/
def wInst (prog : List SIns) (sk : List Skein) : Inst := { (default : Inst) with entry := wEntry, prog := prog, sk := sk, b := 1, st := .running }
/-- Queue 63 with its entries and ply, which its set runs or not. -/
def wPly (wait : List Entry) (p : Option Inst) (runs : Bool) : State :=
  (wQ.setPlq 63 { Plq.init with wait := wait, older := p }).setBset 63 { BSet.init with run := if runs then some 63 else none }

/-- An admission ended in a record. -/
def refusedBy : Admit × State → Bool
  | (.refused _ _ _, w) => decide ((w.plq 63).cpl.length < 32)
  | _ => false

/-- A ply is admitted. -/
def admitted : Admit × State → Bool
  | (.ok _, _) => true
  | _ => false

/-- A skein descriptor of four U8 at an offset of the root capability. -/
def wDesc (off : Nat) : List Byte := leBytes 8 off ++ leBytes 8 1 ++ leBytes 8 0 ++ leBytes 4 4 ++ leBytes 4 1 ++ leBytes 12 0
/-- In working SRAM the word of the MOV at 0x100000 and its two descriptors at 0x100100. -/
def wImage (s : State) : State :=
  let s := s.poke 0x100000 [1, 0, 1]
  let s := ((s.storeCap 0x100100 capRoot.bits true).poke 0x100110 (wDesc 0x20000000)).storeCap 0x100140 capRoot.bits true
  s.poke 0x100150 (wDesc 0x20000040)
/-- An entry of that program. -/
def wEntry1 : Entry := ⟨capSetAddr capRoot 0x100000, capSetAddr capRoot 0x100100, 7, 0, 0, 0, 1, 2⟩

theorem witness_PlySubmitAndStart :
    wQ.reaches fw ⟨.PLQ_SUB, 63, 15⟩ 0 = true ∧ wQ.flag F.PLQ_CTRL_EN 63 = true ∧ wQ.qBindoff 63 = false ∧
    ((wPly (List.replicate 15 wEntry) none false).plq 63).wait.length < 16 ∧ wQ.setOf 63 = some 63 ∧ wQ.setBeds 63 = [0] ∧
    16 ≤ ((wPly (List.replicate 16 wEntry) none false).plq 63).wait.length ∧ R.flag F.PLQ_CTRL_EN 63 = false ∧
    (on [(F.PLQ_CTRL_EN, 63, 1)] R).setOf 63 = none ∧ (wQ.plq 63).cpl.length < 32 ∧
    (let s := wPly [wEntry1] none false
     s.queuesOf 63 = [63] ∧ (s.bset 63).run = none ∧ s.pinnedBusy 63 = false ∧ s.qMayStart 63 = true ∧ s.flag F.PLQ_CTRL_PINEN 63 = false ∧
     (s.plq 63).older = none ∧ (s.plq 63).wait = [wEntry1]) ∧
    ((wPly [] (some (wInst (wProg 1) wSk)) true).bset 63).run ≠ none ∧ R.nextQueue 63 = none ∧
    R.mayPut fw F.PLQ_CTRL_PINEN 1 15 0 = true ∧ (R.ich (R.pinChan 15)).feed = [] := by decide

theorem witness_PlyStart_admitted : admitted ((wImage (wPly [] none false)).admitPly 63 wEntry1 false 0) = true := by decide

theorem witness_PlyStart_refused : refusedBy ((wPly [] none false).admitPly 63 wEntry false 0) = true := by decide

/-- The ply in a state. -/
def wIn (st : InstSt) : Inst := { wInst (wProg 1) wSk with st := st }

theorem witness_PlyEnds :
    (let s := wPly [wEntry] (some (wIn .suspending)) true
     s.setOf 63 = some 63 ∧ (s.plq 63).older = some (wIn .suspending) ∧ (s.plq 63).younger = none ∧ (wIn .suspending).pinned = false ∧
     (s.ich (s.pinChan 63)).feed = [] ∧ (s.plq 63).cpl.length < 32 ∧ (s.bset 63).run = some 63 ∧
     s.readsOut fw ⟨.PLQ_CPL, 63, 7⟩ = true) ∧
    (let p := { wIn .running with fault := some ⟨3, 0, 0, 0, 0⟩ }
     (wPly [] (some p) true).plq 63 |>.older) = some { wIn .running with fault := some ⟨3, 0, 0, 0, 0⟩ } ∧
    (let s := wPly [] (some (wIn .faulted)) false
     (s.plq 63).older = some (wIn .faulted) ∧ s.reaches fw ⟨.PLQ_CMD, 63, 0⟩ 1 = true ∧ s.reaches fw ⟨.PLQ_CMD, 63, 0⟩ 2 = true ∧
     (s.bset 63).run = none ∧ s.pinnedBusy 63 = false ∧ (wIn .faulted).lives = []) ∧
    (let p := { wIn .running with fin := [0] }
     p.lives = [] ∧ p.deferred = [] ∧ p.fault = none ∧ p.waitOld = false ∧ (∀ k, k < p.prog.length → slotFin p k = true)) ∧
    (wIn .suspended).st ≠ .running ∧ slotFin (wIn .running) 0 = false := by decide

/-- An issued instruction. -/
def wIssued : Inst := { wIn .running with issued := [0] }

theorem witness_BedRequestsAndEpochs :
    (let s := wPly [] (some wIssued) true
     s.setOf 63 = some 63 ∧ s.inst 63 false = some wIssued ∧ s.instLive 63 63 wIssued = true ∧ wIssued.lives = [] ∧
     0 ∈ wIssued.issued ∧ slotFin wIssued 0 = false ∧ 31 ∉ wIssued.issued ∧ s.mayPut fw F.PLQ_BIND_RAISE 1 63 0 = true) ∧
    (let s := on [(F.BED_STAT_OUTST, 135, 1)] R
     0 < s.fld F.BED_STAT_OUTST 135 ∧ (s.bed 135).epoch = 0 ∧ (s.bed 135).epoch ≠ 0xFFFF ∧
     s.pair F.BED_STALE_LO F.BED_STALE_HI + 1 < 2 ^ 64) ∧
    slotReady (wIn .running) 0 = true ∧ slotReady { wIn .running with fin := [0] } 0 = false ∧
    (∀ m ∈ R.queuesOf (R.fld F.BED_CTRL_SET 135), (R.heldLines m (R.fld F.BED_CTRL_LPOS 135)).length < 768) := by decide

/-- Writes held in 768 lines of the bed at position 0. -/
def wHeld : Inst := { wIn .running with held := (List.range 768).map fun k => ⟨0, 0, 0x20000000 + 64 * (767 - k), [1]⟩ }

theorem witness_BedRequests_full :
    63 ∈ (wPly [] (some wHeld) true).queuesOf ((wPly [] (some wHeld) true).fld F.BED_CTRL_SET 0) ∧
    768 ≤ ((wPly [] (some wHeld) true).heldLines 63 ((wPly [] (some wHeld) true).fld F.BED_CTRL_LPOS 0)).length := by decide +kernel

/-- Set 63 with bed 0 in service and bed 135 as its standby. -/
def wMig (p : Option Inst) (m : Option Mig) : State :=
  (on [(F.BED_CTRL_EN, 135, 1), (F.BED_CTRL_SET, 135, 63), (F.BED_CTRL_STANDBY, 135, 1)] (wPly [] p false)).setBset 63
    { BSet.init with mig := m }

theorem witness_Migration :
    (let s := wMig none none
     s.queuesOf 63 = [63] ∧ ((s.setBeds 63).find? fun b => s.fld F.BED_CTRL_LPOS b == 0) = some 0 ∧ (s.bset 63).run = none ∧
     s.ply.bed = [] ∧ s.reaches fw ⟨.PLQ_MIG, 63, 0⟩ (BitVec.ofNat 32 (2 ^ 31 + 135 * 2 ^ 16 + 0)) = true ∧
     (s.plq 63).older = none ∧ (s.plq 63).younger = none ∧ (s.bset 63).mig = none ∧ s.flag F.BED_CTRL_EN 135 = true ∧
     s.flag F.BED_CTRL_STANDBY 135 = true ∧ s.fld F.BED_CTRL_SET 135 = 63 ∧ s.flag F.BED_CTRL_EN 134 = false ∧ s.spareBed 63 = some 135) ∧
    ((wMig none (some ⟨63, 0, 0, 135, false⟩)).bset 63).mig = some ⟨63, 0, 0, 135, false⟩ ∧
    (wMig none (some ⟨63, 0, 0, 135, false⟩)).fld F.BED_STAT_OUTST 0 = 0 ∧
    (on [(F.BED_STAT_OUTST, 0, 1)] (wMig none (some ⟨63, 0, 0, 135, false⟩))).fld F.BED_STAT_OUTST 0 ≠ 0 ∧
    ((wMig (some (wIn .suspended)) none).plq 63).older = some (wIn .suspended) ∧ (wIn .suspended).st ≠ .armed := by decide

/-- Queue 63 binding off. -/
def wQoff (p : Option Inst) (o : Option Bool) : State :=
  on [(F.PLQ_STAT_BINDOFF, 63, 1)] (wQ.setPlq 63 { Plq.init with older := p, newOwner := o })

theorem witness_QueueAndChannelBindoff :
    (let s := wPly [wEntry] none false
     (s.ich (s.pinChan 63)).feed = [] ∧ s.web.chan = [] ∧ s.mayPut fw F.PLQ_CTRL_EN 0 63 0 = true ∧ s.flag F.PLQ_CTRL_EN 63 = true ∧
     s.qBindoff 63 = false ∧ (s.plq 63).older = none ∧ (s.plq 63).younger = none ∧ (s.plq 63).wait.length + (s.plq 63).cpl.length ≤ 32) ∧
    ([none, some true].all fun o =>
      let s := wQoff none o
      s.qBindoff 63 && decide ((s.plq 63).older = none ∧ (s.plq 63).younger = none ∧ (s.plq 63).newBind = none ∧ (s.plq 63).entry = none ∧
        (s.plq 63).newOwner = o)) = true ∧
    R.qBindoff 63 = false ∧ ((wQoff (some (wIn .running)) none).plq 63).older = some (wIn .running) ∧
    (wQoff (some (wIn .running)) none).qBindoff 63 = true ∧ (wIn .running).pinned = false ∧
    (let s := on [(F.CXP_CH_ISTAT_RUN, 15, 1)] (R.setChan 15 { Chan.init with st := .run })
     s.leaderBusy 15 = false ∧ (s.chan 15).st = .run ∧ s.flag F.CXP_CH_ISTAT_RUN 15 = true ∧ (s.chan 0).st ≠ .bindoff) ∧
    (R.chan 15).st ≠ .run := by decide

/-- The value of an element, where there is one. -/
def okVal : EV → Option Nat
  | .ok v _ _ => some v
  | _ => none
/-- The cause of a faulting element. -/
def faultOf : EV → Option Nat
  | .fault c _ _ _ => some c
  | _ => none
/-- The write of an element lies in the stash. -/
def goodWrite : Except EV (Nat × List Byte) → Bool
  | .ok w => decide (stashBase ≤ w.1 ∧ w.1 + w.2.length ≤ stashBase + stashSize ∧ w.2 ≠ [])
  | _ => false

/-- Slot 0, position 0 of queue 63. -/
def wA : SI := ⟨63, false, 0, 0, 1⟩
/-- Queue 63 running a program. -/
def wRunP (prog : List SIns) (sk : List Skein) : State := wPly [] (some (wInst prog sk)) true
/-- A program of one word, predicated by skein register 2 or not. -/
def wWord (opc ot md : Nat) (pen : Bool) (imm : Nat := 0) : List SIns := [⟨opc, ot, md, 1, 0, 0, false, 0, if pen then 2 else 0, pen, false, 0, imm⟩]
/-- The skein registers with a mask of four bits as the third. -/
def wSk3 : List Skein := wSk ++ [⟨capRoot, 0x20000080, 0, 1, 4, 1, 12, 1, false, 0, 0, 0⟩]
/-- The same with a source whose capability is untagged. -/
def wSkBad : List Skein := wSk3.set 0 ⟨capNull, 0x20000000, 1, 0, 4, 1, 0, 0, false, 0, 0, 0⟩

theorem witness_StreamReady : Sys2Proof.Claims.StreamReady (wRunP (wWord 1 0 0 false) wSk) 1 wA 63 (wInst (wWord 1 0 0 false) wSk) := by
  constructor <;> decide

theorem witness_StreamElements :
    (0x01, Instr.streamMov) ∈ Sys2Proof.Claims.plainOps ∧ memWf (wRunP (wWord 1 0 0 false) wSk).mem = true ∧
    doneAt (wInst (wWord 1 0 0 false) wSk) 0 0 < slotLen (wInst (wWord 1 0 0 false) wSk) 0 0 ∧
    (let go := fun (pen : Bool) (sk : List Skein) =>
       let p := markIssued (wInst (wWord 1 0 0 pen) sk) 0
       let u := (wRunP (wWord 1 0 0 pen) sk).updInst 63 false fun p => markIssued p 0
       (okVal (u.activeAt p 0 0 0), okVal (u.evalSlot p 0 32 0 0), faultOf (u.evalSlot p 0 32 0 0), goodWrite (u.destWrite p 0 0 1 0 0))
     go false wSk3 = (some 1, some 0, none, true) ∧ go true wSk3 = (some 0, some 0, none, true) ∧
     (go false wSkBad).2.2.1 = some 1) := by
  refine ⟨.head _, ?_⟩
  decide

/-- A chain of two MOVs. -/
def wChain : Inst :=
  wInst (wWord 1 0 0 false ++ [⟨1, 0, 0, 0, 1, 0, false, 0, 0, false, false, 0, 0⟩])
    (wSk.set 1 ⟨capNull, 0, 1, 0, 4, 1, 0, 0, true, 0, 0, 0⟩)

theorem witness_StreamIssue :
    (let s := wPly [] (some wChain) true
     s.inst 63 false = some wChain ∧ s.setOf 63 = some 63 ∧ 0 < wChain.prog.length ∧ (slotIns wChain 0).opc = 1 ∧ 0 < wChain.b ∧
     s.instLive 63 63 wChain = true ∧ slotReady wChain 0 = true ∧ s.setBeds 63 ≠ [] ∧ isProducer wChain.prog wChain.sk 0 = true) ∧
    (wPly [] (some wChain) false).instLive 63 63 wChain = false ∧
    (let s := on [(F.BED_CTRL_EN, 0, 0)] (wPly [] (some wChain) true)
     s.setBeds 63 = [] ∧ s.setOf 63 = some 63 ∧ s.instLive 63 63 wChain = true ∧ wChain.lives = []) := by decide

/-- RSUM of four U8 into one element. -/
def wSum (sk : List Skein) : Inst := wInst (wWord 0x60 0 0 false) (sk.set 1 ⟨capRoot, 0x20000040, 1, 0, 1, 1, 0, 0, false, 0, 0, 0⟩)

theorem witness_Combines :
    (0x60, Instr.rsum) ∈ Sys2Proof.Claims.combOps ∧
    (let p := markIssued (wSum wSk) 0
     let u := (wPly [] (some (wSum wSk)) true).updInst 63 false fun p => markIssued p 0
     let d := insShape p (slotIns p 0)
     let c := doneAt p 0 0 + partAt p 0 0
     let elem := fun x => rangeElem p.split p.b d.nw d.nc 0 x
     c + 1 < slotLen p 0 0 ∧ segOf p.split p.b d.nw d.nc (elem (c + 1)) = segOf p.split p.b d.nw d.nc (elem c) ∧ partAt p 0 0 = 0 ∧
     tooFar p 0 0 (elem c / d.nw) = false ∧ u.scanNotes p 0 0 0 = [] ∧
     (match u.combTake p 0 0 (elem c) with
      | .ok (x, _, _) => (match u.combDirect p 0 0 (elem c) x with | .ok (ws, _, _) => decide (ws = []) | _ => false)
      | _ => false) = true) ∧
    (let p := markIssued (wSum wSkBad) 0
     let u := (wPly [] (some (wSum wSkBad)) true).updInst 63 false fun p => markIssued p 0
     (match u.combTake p 0 0 0 with | .error e => faultOf e | _ => none) = some 1) := by
  refine ⟨.head _, ?_⟩
  decide

/-- No chain means no notes. -/
theorem witness_Combines_noNotes (j : Nat) : (wPly [] (some (wSum wSk)) true).scanNotes (markIssued (wSum wSk) 0) 0 0 j = [] := rfl

theorem witness_Combines_ready : Sys2Proof.Claims.StreamReady (wPly [] (some (wSum wSk)) true) 0x60 wA 63 (wSum wSk) := by
  constructor <;> decide

/-- MARK of one list of U32 wales on output 0, width 1,000 wales. -/
def wMark (pen : Bool) : Inst :=
  wInst [{ (wWord 0x78 4 0 pen (64 + 1000 * 65536 + 5 * 2 ^ 32))[0]! with dst := 0 }]
    (wSk3.set 0 ⟨capRoot, 0x20000000, 4, 0, 4, 1, 4, 0, false, 0, 0, 0⟩)
/-- Queue 63 running it, its owner as given, channel 0 with its position valid. -/
def wMarkS (pen : Bool) (host : Nat) : State :=
  on [(F.PLQ_CTRL_OWNER, 63, host)] (wPly [] (some (wMark pen)) true)

theorem witness_Marks :
    (let go := fun (pen : Bool) (host : Nat) =>
       let u := (wMarkS pen host).updInst 63 false fun p => markIssued p 0
       match u.markWale (markIssued (wMark pen) 0) 0 0 0 with | .ok (w, _) => some w | _ => none
     go true 0 = some none ∧ go false 1 = some (some 0) ∧ go false 0 = some (some 0)) ∧
    doneAt (wMark false) 0 0 < slotLen (wMark false) 0 0 ∧ (wMarkS false 1).flag F.PLQ_CTRL_OWNER 63 = true ∧
    (wMarkS false 0).flag F.PLQ_CTRL_OWNER 63 = false ∧
    ((wMarkS false 0).rowWeb ((wMarkS false 0).fld F.TIO_OUT_CTRL_CHAN 0) 0).isSome = true := by decide

theorem witness_Marks_ready : Sys2Proof.Claims.StreamReady (wMarkS false 0) 0x78 wA 63 (wMark false) := by constructor <;> decide

theorem witness_IntegerResults :
    (8 ∈ [8, 16, 32, 64] ∧ 255 < 2 ^ 8) ∧ (64 ∈ [8, 16, 32, 64] ∧ 2 ^ 64 - 1 < 2 ^ 64) ∧ tyIsI 0 = true ∧ tyW 0 = 8 ∧ tyIsI 7 = true ∧
    tyW 7 = 64 ∧ (∀ z ∈ [(⟨0, some 255⟩ : CElem), ⟨1, none⟩], ∀ v, z.val = some v → v < 2 ^ 8) := by
  refine ⟨by decide, by decide, by decide, by decide, by decide, by decide, ?_⟩
  simp

/-- One control word: opcode, MOD, AUX, IMM; A is skein register 0 and D is 1. -/
def wCtl (opc md aux imm : Nat) : SIns := ⟨opc, 0, md, 1, 0, 0, false, 0, 0, false, false, aux, imm⟩
/-- An open lifeline with what it restores. -/
def wLife (k : LifeKind) (slot : Nat) : Life := ⟨0, k, slot, ⟨[], [], [], [], 0⟩, false⟩
/-- A ply at its second slot, the first a LIFE, with one lifeline and one held write. -/
def wScope (w : SIns) : Inst :=
  { wInst [wCtl 0x80 0 0 0, w] wSk with fin := [0], lives := [wLife .life 0], held := [⟨0, 0, 0x20000040, [1]⟩] }
/-- Its slot. -/
def wA1 : SI := ⟨63, false, 1, 0, 1⟩
/-- Queue 63 running a ply, the byte at the start of the stash as given. -/
def wS (p : Inst) (b : Byte) : State := (wPly [] (some p) true).poke 0x20000000 [b]

theorem witness_CtlReady : Sys2Proof.Claims.CtlReady (wS (wScope (wCtl 0x81 0 0 0)) 0) 0x81 wA1 63 (wScope (wCtl 0x81 0 0 0)) := by
  constructor <;> decide

theorem witness_CtlReady_all :
    ([(0x80, wCtl 0x80 0 0 0), (0x84, wCtl 0x84 0 1 0), (0x85, wCtl 0x85 0 0 0), (0x85, wCtl 0x85 1 0 5), (0x85, wCtl 0x85 2 0 5),
      (0x86, wCtl 0x86 0 15 0)].all fun e =>
      let p := wInst [e.2] wSk
      let s := wS p 0
      decide (s.inst 63 false = some p ∧ s.setOf 63 = some 63 ∧ s.setBeds 63 ≠ [] ∧ (slotIns p 0).opc = e.1 ∧ p.deferred = [] ∧
        memWf s.mem = true) && s.instLive 63 63 p && !slotFin p 0 && orderOk p 0) = true := by decide

theorem witness_StreamControl :
    (wS (wInst [wCtl 0x80 0 0 0] wSk) 0).openLives 63 < 4 ∧
    4 ≤ (wS { wInst [wCtl 0x80 0 0 0] wSk with lives := List.replicate 4 (wLife .ingest 0) } 0).openLives 63 ∧
    (let p := wScope (wCtl 0x81 0 0 0)
     p.lives = [wLife .life 0] ∧ p.held.length = 1 ∧ (∀ h ∈ p.held, h.life = (wLife .life 0).id) ∧
     stashBase ≤ 0x20000040 ∧ 0x20000040 + 1 ≤ stashBase + stashSize) ∧
    ([(0 : Byte), 1].all fun b =>
      let p := wScope (wCtl 0x83 0 0 0)
      let u := (wS p b).updInst 63 false fun p => { p with issued := setAdd p.issued 1 }
      okVal (u.ctlRead { p with lives := [] } 1) == some b.toNat) = true ∧
    ([(0 : Byte), 1].all fun b =>
      let p := wInst [wCtl 0x84 0 1 0] wSk
      !hazard p 0 && okVal ((wS p b).ctlRead p 0) == some b.toNat) = true ∧
    ([0, 512].all fun opts =>
      let p := wInst [{ (wWord 1 0 0 false)[0]! with sa := 1, dst := 0 }, wCtl 0x84 0 2 0] wSk
      let p := { p with entry := { wEntry with opts := opts } }
      hazard p 1 && (optRaBranch p.entry == decide (opts = 512)) && orderOk p 1 && decide ((wS p 0).openLives 63 < 4)) = true ∧
    ([(0 : Byte), 1].all fun b =>
      let p := { wInst [wCtl 0x84 0 1 0] wSk with fin := [0], lives := [wLife .branch 0] }
      !hazard p 0 && decide (p.held = []) && okVal ((wS p b).ctlRead p 0) == some b.toNat) = true ∧
    (let p := wInst [wCtl 0x85 1 0 5] wSk
     p.lives = [] ∧ goodWrite ((wS p 0).destWrite p 0 0 1 0 5) = true) ∧
    ([(4 : Byte), 5].all fun b =>
      let p := wInst [wCtl 0x85 2 0 5] wSk
      !hazard p 0 && okVal ((wS p b).ctlRead p 0) == some b.toNat) = true ∧
    (let p := wInst [wCtl 0x86 0 15 0] wSk
     (R.setChan 15 { Chan.init with r0 := 1 }).rowStatus 15 0 = none ∧ hazard p 0 = false ∧
     (match (wS p 5).rowStatus 15 0 with | some (v, u) => decide (v = 3 ∧ u = wS p 5) | none => false) = true ∧
     goodWrite ((wS p 5).destWrite p 0 0 1 0 3) = true) := by decide

/-! ### Hook threads -/

/-- Thread 0 of core 0 changed. -/
def wT (f : Thread → Thread) : State := R.updTh 0 0 f
/-- A STAT bit set. -/
def wBit (k : Nat) : State := wT fun x => x.setSbits k k 1

theorem witness_HookReady : HookReady R h := by constructor <;> decide

theorem witness_HookReady_bits : HookReady (wBit 19) h ∧ HookReady (wBit 20) h ∧ HookReady (wBit 22) h := by
  refine ⟨?_, ?_, ?_⟩ <;> constructor <;> decide

theorem witness_HookIntegers :
    ((R.th 0 0).issued h).sbit 19 = false ∧ ((wBit 19).th 0 0).sbit 19 = true ∧ (((wBit 19).th 0 0).issued h).g 3 % 2 ^ 8 = 0 ∧
    (((wBit 19).th 0 0).issued h).lvl ≠ 8 ∧ (((wT fun x => x.setG 3 5).th 0 0).issued h).g 3 % 2 ^ 8 ≠ 0 := by decide

theorem witness_HookMovesAndDecimal :
    (R.th 0 0).sbit 22 = false ∧ pdValid (((wT fun x => x.setG 1 0x12C).th 0 0).g 1) = true ∧ pdValid ((R.th 0 0).g 1) = false ∧
    (R.th 0 0).sbit 20 = false ∧ ((wBit 20).th 0 0).sbit 20 = true ∧ ((wBit 20).th 0 0).lvl ≠ 8 := by decide

theorem witness_HookFloats : (R.th 0 0).sbit 22 = false ∧ ((wBit 22).th 0 0).sbit 22 = true ∧ ((wBit 22).th 0 0).lvl ≠ 8 := by decide

/-- The rounding of plies: to nearest, no flushing. -/
def wCtlF (rm : Nat) : FCtl := ⟨rm, false, false⟩

theorem witness_FloatingResults :
    (wCtlF 0).rm < 5 ∧ (wCtlF 4).rm < 5 ∧ (wCtlF 0).daz = false ∧ (wCtlF 0).ftz = false ∧ 0x7FC00000 < 2 ^ Fmt_w .fp32 ∧
    isNaN .fp32 0x7FC00000 = true ∧ isNaN .fp32 0x3F800000 = false ∧ fExp .fp32 0x3F800000 ≠ 2 ^ Fmt_e .fp32 - 1 ∧
    0x3F800000 ≠ signBit .fp32 true := by decide

theorem witness_RegisterVectors :
    (R.th 0 0).sbit 22 = false ∧ VOp.div ∈ [VOp.div, .divu, .rem, .remu] ∧ ((wBit 19).th 0 0).sbit 19 = true ∧
    ((wBit 19).th 0 0).v 7 / 2 ^ (8 * 511) % 2 ^ 8 = 0 ∧ 511 < VLen.v4096.bits / Sz.b.bits ∧ ((wBit 19).th 0 0).lvl ≠ 8 ∧
    VOp.add ∉ [VOp.div, .divu, .rem, .remu] := by decide +kernel

theorem witness_CapabilityInstructions :
    ((R.th 0 0).issued h).c 0 = capRoot ∧ capRoot.tag = true ∧ capOtype capRoot = 0 ∧ (capPerms capRoot).testBit pSeal = true ∧
    capRepr capRoot 5 = true ∧ m.form = .base ∧ mPost.form = .postInc ∧ (⟨0, .index, 0, 3, 31⟩ : MOp).form = .index ∧
    (⟨0, .preDec, 0, 0, 0⟩ : MOp).form = .preDec := by decide

/-- Thread 0 with c0. -/
def wC (c : CapV) : State := wT fun x => x.setC 0 c
theorem witness_MemoryChecks :
    (R.th 0 0).sbit 22 = false ∧ (R.th 0 0).lvl ≠ 8 ∧ ((wC capNull).th 0 0).c 0 = capNull ∧ capNull.tag = false ∧
    (let c := capMk 0 37 0 0 0x8000 0x1FFF 5 true
     c.tag = true ∧ capOtype c ≠ 0) ∧
    (let c := capMk 0 37 0 0 0x8000 0 0 true
     c.tag = true ∧ capOtype c = 0 ∧ (capPerms c).testBit pLoad = false ∧ (∀ j ∈ [pLoad], j < pLoad → (capPerms c).testBit j = true)) ∧
    (let c := capMk 0 37 0 0 0x8000 (lacking pSystem).toNat 0 true
     (capPerms c).testBit pStore = true ∧ inCtrl (Reg.addr ⟨.TBS_CTRL, 0, 0⟩) = true ∧
     (R.regDenied (BitVec.ofNat 13 (capPerms c)) (Reg.addr ⟨.TBS_CTRL, 0, 0⟩) 1).isSome = true) ∧
    (let c := capMk 0 0 0 0 16 0x1FFF 0 true
     c.tag = true ∧ capBase c = 0 ∧ capTop c = 16 ∧ capTop c < 9 + 8) ∧
    (let ea := 0x02000001
     ¬ (ea % 4 = 0) ∧ capBase capRoot ≤ ea ∧ ea + 4 ≤ capTop capRoot ∧ inCtrl ea = false) ∧
    R.regionOf 0x40000000 = .reserved ∧ R.regionOf 0 = .rom ∧ inCtrl 0 = false := by decide

/-- c0 at an address of the root capability. -/
def wAt (ea : Nat) : State := wC (capSetAddr capRoot ea)
/-- The root capability with other permissions. -/
def wPerms (p : Nat) : CapV := capMk 0 37 0 0 0x8000 p 0 true
/-- A word of TCM. -/
def wTcm : Nat := 0x02008000
/-- An outstanding load into a destination. -/
def wLoad (d : HReg) (slot : Bool) (fault : Nat) : HLoad := ⟨some d, 0, 5, false, 64, fault, wTcm, 0, slot, false, false⟩
/-- Thread 0 with loads. -/
def wLd (l : List HLoad) : State := wT fun x => { x with loads := l }

theorem witness_HookLoads_ready : HookReady (wAt wTcm) h ∧ HookReady (wAt (Reg.addr ⟨.TBS_TIME_LO, 0, 0⟩)) h ∧
    HookReady (wC (wPerms (allPerms.toNat - 2 ^ pIdem))) h := by
  refine ⟨?_, ?_, ?_⟩ <;> constructor <;> decide

theorem witness_HookLoads :
    memWf (wAt wTcm).mem = true ∧ ((wAt wTcm).th 0 0).sbit 22 = false ∧ ((wAt wTcm).th 0 0).sb = [] ∧
    (let c := capSetAddr capRoot wTcm
     eaOf ((wAt wTcm).th 0 0) m 16 = wTcm ∧ inCtrl wTcm = false ∧ (wAt wTcm).regionOf wTcm = .tcm ∧
     (capPerms c).testBit pIdem = true ∧ ((wAt wTcm).poisoned wTcm 16) = false ∧
     (wAt wTcm).accFault 0 0 ⟨c, wTcm, 4, [pLoad], none, false, false⟩ = none ∧
     (wAt wTcm).accFault 0 0 ⟨c, wTcm, 16, [pLoad, pLoadCap], none, false, false⟩ = none ∧
     (wAt wTcm).accFault 0 0 ⟨c, wTcm, 512, [pLoad], none, true, false⟩ = none ∧
     (wAt wTcm).accFault 0 0 ⟨c, wTcm, 8, [pLoad, pStore], some 0, false, true⟩ = none ∧
     (wAt wTcm).accFault 0 0 ⟨capNull, wTcm, 8, [pLoad], none, false, false⟩ ≠ none) ∧
    (let ea := Reg.addr ⟨.TBS_TIME_LO, 0, 0⟩
     inCtrl ea = true ∧ Reg.ofAddr ea = some ⟨.TBS_TIME_LO, 0, 0⟩ ∧
     (wAt ea).accFault 0 0 ⟨capSetAddr capRoot ea, ea, 4, [pLoad], none, false, false⟩ = none) ∧
    eaOf ((wAt (ownFpst 0 0)).th 0 0) m 4 = ownFpst 0 0 ∧ R.coreLive 0 = true ∧
    ([HReg.g 0 3, .c 0 3, .f 31, .v 7].all fun d =>
      decide (((wLd [wLoad d false 0]).th 0 0).loads[0]? = some (wLoad d false 0))) = true ∧
    (wLoad (.g 0 3) true 0).slot = true ∧ (wLoad (.g 0 3) false 7).fault ≠ 0 ∧ (((wLd []).th 0 0).bankOf 0).lf = none ∧
    (capPerms (wPerms (allPerms.toNat - 2 ^ pIdem))).testBit pIdem = false ∧
    (capPerms (wPerms (allPerms.toNat - 2 ^ pIdem))).testBit pLoad = true := by decide

theorem witness_LoadDelay_ready :
    HookReady ((wLd [wLoad (.g 0 3) true 0]).setTh 0 0 { (wLd [wLoad (.g 0 3) true 0]).th 0 0 with loads := [] }) h := by
  constructor <;> decide

theorem witness_LoadDelay :
    (let l := wLoad ((R.th 0 0).rg 31) true 0
     ((wLd [l]).th 0 0).loads = [l] ∧ l.fault = 0 ∧ l.dest = some (((wLd [l]).th 0 0).rg 31) ∧ l.slot = true) ∧
    (let l := wLoad ((R.th 0 0).rg 31) false 0
     l.dest = some (((wLd [l]).th 0 0).rg 31) ∧ l.slot = false) := by decide

/-- A store-buffer entry. -/
def wSb (addr : Nat) (be : Half) (ctrl : Bool) : SbEntry := ⟨addr, 5, be, true, ctrl, allPerms, true, false⟩
/-- Thread 0 with a store buffer. -/
def wBuf (l : List SbEntry) : State := wT fun x => { x with sb := l }

theorem witness_HookStores :
    (let c := capSetAddr capRoot wTcm
     (wAt wTcm).accFault 0 0 ⟨c, wTcm, 8, [pStore], some 0, false, false⟩ = none ∧
     (wAt wTcm).accFault 0 0 ⟨c, wTcm, 16, [pStore, pStoreCap], some 0, false, false⟩ = none ∧
     (wAt wTcm).accFault 0 0 ⟨c, wTcm, 512, [pStore], some 0, true, false⟩ = none) ∧
    (((wAt wTcm).th 0 0).sb.filter fun e => !e.frame).length < 8 ∧ (((wBuf (List.replicate 7 (wSb wTcm 1 false))).th 0 0).sb.filter fun e => !e.frame).length < 8 ∧
    (let ea := Reg.addr ⟨.TBS_STEP_THR, 0, 0⟩
     inCtrl ea = true ∧ (wAt ea).accFault 0 0 ⟨capSetAddr capRoot ea, ea, 4, [pStore], some 7, false, false⟩ = none) ∧
    R.coreLive 0 = true ∧ ((wBuf [wSb wTcm 0xFFFF false]).th 0 0).sb = [wSb wTcm 0xFFFF false] ∧ (wSb wTcm 0xFFFF false).addr % 16 = 0 ∧
    R.regionOf wTcm = .tcm ∧ (wSb wTcm 1 true).be ≠ 0xFFFF ∧ (Reg.ofAddr (Reg.addr ⟨.TBS_STEP_THR, 0, 0⟩)).isSome = true ∧
    (∀ e ∈ ((wBuf [wSb wTcm 1 false]).th 0 0).sb, e.ctrl = false) ∧
    (match exec (.storeBufferDrain 0 0) (wBuf [wSb wTcm 1 false]) with | .next u => decide ((u.th 0 0).sb = []) | _ => false) = true := by
  decide

theorem witness_HookStores_ready : HookReady (wBuf [wSb wTcm 1 false]) h := by constructor <;> decide

/-- Thread 0 with SSCAP, c14 and a return address on the shadow stack, all in TCM. -/
def wRet (ra : Nat) (c14 : CapV) : State :=
  (wT fun x => { x.setC 14 c14 with sscap := capSetAddr capRoot wTcm }).poke wTcm (leBytes 8 ra)

theorem witness_HookBranches :
    (let x := (R.th 0 0).issued h
     let target := (capAddr x.pcap + (8 : DWord).toNat) % 2 ^ 64
     let far := (capAddr x.pcap + (0x10000000000000 : DWord).toNat) % 2 ^ 64
     capBase x.pcap ≤ target ∧ target < capTop x.pcap ∧ capTop x.pcap ≤ far ∧ x.lvl ≠ 8 ∧ x.g 3 = 0 ∧ x.stat.toNat.testBit 5 = false ∧
     (x.c 0).tag = true ∧ capOtype (x.c 0) = 0 ∧ (capPerms (x.c 0)).testBit pExecute = true ∧ capBase (x.c 0) ≤ capAddr (x.c 0) ∧
     capAddr (x.c 0) < capTop (x.c 0) ∧ (x.c 1).tag = false ∧ x.sscap.tag = false) ∧
    (((wT fun x => x.setG 3 1).th 0 0).issued h).g 3 ≠ 0 ∧ 14 < 15 ∧
    (let s := wRet 0x100000 (capSetAddr capRoot 0x100000)
     8 ≤ capAddr (s.th 0 0).sscap ∧
     s.accFault 0 0 ⟨(s.th 0 0).sscap, wTcm - 8, 8, [pStore], some 4, false, false⟩ = none ∧
     s.accFault 0 0 ⟨(s.th 0 0).sscap, wTcm, 8, [pLoad], none, false, false⟩ = none ∧ s.poisoned wTcm 8 = false ∧
     s.peekNat wTcm 8 = capAddr ((s.th 0 0).c 14) ∧ ((s.th 0 0).c 14).tag = true ∧ memWf s.mem = true) ∧
    (let s := wRet 0x100004 (capSetAddr capRoot 0x100000)
     s.peekNat wTcm 8 ≠ capAddr ((s.th 0 0).c 14)) := by decide

theorem witness_HookBranches_ready : HookReady (wRet 0x100000 (capSetAddr capRoot 0x100000)) h := by constructor <;> decide

/-- Thread 0 with WSPC in TCM and so many resident windows. -/
def wWin (res : Nat) (w : CapV) : State := wT fun x => x.updBank fun b => { b with res := res, wspc := w }

theorem witness_HookWindows :
    ((wWin 4 capNull).th 0 0).bank.res < 5 ∧ 1 < ((wWin 2 capNull).th 0 0).bank.res ∧ 5 ≤ ((wWin 5 capNull).th 0 0).bank.res ∧
    (let w := capSetAddr capRoot wTcm
     ((wWin 5 w).th 0 0).sb = [] ∧ capAddr w % 16 = 0 ∧ wspcFault w pStore wTcm = none ∧ wspcFault w pLoad (wTcm - 128) = none ∧
     (∀ i, i < 16 → (wWin 1 w).accFault 0 0 ⟨w, wTcm - 128 + 8 * i, 8, [pLoad], none, false, false⟩ = none ∧
       (wWin 1 w).poisoned (wTcm - 128 + 8 * i) 8 = false)) ∧
    ((wWin 5 capNull).th 0 0).lvl ≠ 8 ∧ (wspcFault capNull pStore 0).isSome = true ∧ (wspcFault capNull pLoad 0).isSome = true ∧
    ((wWin 1 capNull).th 0 0).bank.res ≤ 1 := by decide +kernel

/-- A store of any value passes there. -/
theorem witness_HookWindows_stores (v : Nat) :
    (wWin 5 (capSetAddr capRoot wTcm)).accFault 0 0 ⟨capSetAddr capRoot wTcm, wTcm + 120, 8, [pStore], some v, false, false⟩ = none := by
  have out : inCtrl (wTcm + 120) = false := by decide
  have zero : (wWin 5 (capSetAddr capRoot wTcm)).accFault 0 0
      ⟨capSetAddr capRoot wTcm, wTcm + 120, 8, [pStore], some 0, false, false⟩ = none := by decide
  rw [← zero]
  simp only [State.accFault, State.accAlign, State.accPlace, out, Bool.false_eq_true, if_false, Option.isSome_some, Option.isNone_some]
  rfl

/-- Gate 7 with a valid pair, a thread within a gate or not. -/
def wGate (ga : Nat) : State :=
  let g := fun (a : Nat) => capMk a 37 0 0 0x8000 0x1FFF 9 true
  wT fun x => { x with gates := [(7, g 0x100000), (15, g 0x110000)], slink := capSetAddr capRoot 4 }.setSbits 23 23 ga

theorem witness_SystemRegistersAndGates :
    capAddr (R.th 0 0).pcap + 4 < 2 ^ 64 ∧ (capPerms (R.th 0 0).pcap).testBit pSystem = true ∧ (R.th 0 0).lvl ≠ 8 ∧
    (capPerms ((wT fun x => { x with pcap := wPerms (lacking pSystem).toNat }).th 0 0).pcap).testBit pSystem = false ∧
    gateValid ((wGate 0).th 0 0) 7 = true ∧ gateValid (R.th 0 0) 7 = false ∧ ((wGate 0).th 0 0).sbit 23 = false ∧
    ((wGate 1).th 0 0).sbit 23 = true ∧ capHas ((wGate 1).th 0 0).slink pExecute = true := by decide

/-- Vector 255 pending for thread 0 at level 7, whose bank's c15 is as given. -/
def wIrq (c15 : CapV) : State :=
  let s := wT fun x => x.setBank 7 { x.bankOf 7 with c := [(15, c15)] }
  (((s.setFld F.HKC_IRQ_CFG_EN 1 0 255).setFld F.HKC_IRQ_CFG_PEND 1 0 255).setFld F.HKC_IRQ_CFG_THREAD 0 0 255).setFld F.HKC_IRQ_CFG_LEVEL 7 0 255

theorem witness_ExceptionEntry_passes : Sys2Proof.Claims.entryPasses (wIrq (capSetAddr capRoot wTcm)) 0 0 7 255 := by
  unfold Sys2Proof.Claims.entryPasses; decide

theorem witness_ExceptionEntry_fails : ¬ Sys2Proof.Claims.entryPasses (wIrq capNull) 0 0 7 255 := by
  unfold Sys2Proof.Claims.entryPasses; decide

/-- Thread 0 at level 8. -/
def wL8 (f : Thread → Thread) : State := wT fun x => f { x with stat := 8, active := [0, 8] }

theorem witness_ExceptionEntry_halts : ¬ Sys2Proof.Claims.entryPasses
    (wL8 fun x => { x.setBank 8 { x.bankOf 8 with c := [] } with esc := some (exc 7 0 0 0) }) 0 0 8 1 := by
  unfold Sys2Proof.Claims.entryPasses; decide

theorem witness_ExceptionEntry :
    (let s := wIrq (capSetAddr capRoot wTcm)
     s.mayEnter 0 0 = true ∧ s.flag F.HKC_IRQ_CFG_EN 0 255 = true ∧ s.flag F.HKC_IRQ_CFG_PEND 0 255 = true ∧
     s.fld F.HKC_IRQ_CFG_THREAD 0 255 = 0 ∧ s.fld F.HKC_IRQ_CFG_LEVEL 0 255 = 7 ∧ (s.th 0 0).lvl < 7 ∧ 7 ∉ (s.th 0 0).active ∧
     (∀ v, v < 255 → s.flag F.HKC_IRQ_CFG_PEND 0 v = false) ∧ (s.th 0 0).esc = none ∧ (s.th 0 0).bank.lf = none ∧
     (s.th 0 0).loads.any (·.slot) = false ∧ (s.th 0 0).fault = none) ∧
    (∀ v, v < 256 → R.flag F.HKC_IRQ_CFG_PEND 0 v = false) ∧
    ((wT fun x => { x with fault := some (exc 3 0 0 0) }).th 0 0).fault = some (exc 3 0 0 0) ∧
    ((wT fun x => x.updBank fun b => { b with lf := some ⟨7, 0, 0, false, false⟩ }).th 0 0).bank.lf = some ⟨7, 0, 0, false, false⟩ ∧
    ((wL8 fun x => { x with esc := some (exc 7 0 0 0) }).th 0 0).esc = some (exc 7 0 0 0) ∧
    ((wL8 fun x => x.updBank fun b => { b with lf := some ⟨7, 0, 0, false, false⟩ }).th 0 0).bank.lf = some ⟨7, 0, 0, false, false⟩ ∧
    ((wL8 id).th 0 0).lvl = 8 ∧ (wL8 id).mayEnter 0 0 = true := by decide +kernel

/-- Thread 0 at level 1 with a frame at c15 in TCM: PCAP, STAT and the window word. -/
def wFrame (p : CapV) (st wi : Nat) : State :=
  let s := wT fun x => { x with stat := 1, active := [0, 1] }.setBank 1 { Bank.init with c := [(15, capSetAddr capRoot wTcm)] }
  ((s.storeCap wTcm p.bits p.tag).poke (wTcm + 16) (leBytes 8 st)).poke (wTcm + 36) (leBytes 4 wi)

theorem witness_ReturnAndWait :
    (let x := (R.th 0 0).issued h
     x.lvl ≠ 8 ∧ capCode (x.c 15) pLoad (capAddr (x.c 15)) 48 ≠ 0) ∧
    ([(capNull, 0, 0x10), (capRoot, 0, 0), (capRoot, 2, 0x10), (capRoot, 0, 0x10)].all fun (e : CapV × Nat × Nat) =>
      let s := wFrame e.1 e.2.1 e.2.2
      let c := ((s.th 0 0).issued h).c 15
      decide (capCode c pLoad wTcm 48 = 0) && (s.th 0 0).sb.isEmpty && memWf s.mem &&
        ((List.range 3).all fun k => (s.accFault 0 0 ⟨c, wTcm + 16 * k, 16, [pLoad], none, false, false⟩).isNone &&
          !s.poisoned (wTcm + 16 * k) 16) &&
        decide (s.peekNat (wTcm + 16) 8 = e.2.1 ∧ s.peekNat (wTcm + 36) 4 = e.2.2 ∧ s.tagAt wTcm = e.1.tag)) = true ∧
    (let x := ((wT fun x => { x with pcap := wPerms (lacking pSystem).toNat }).th 0 0).issued h
     (capPerms x.pcap).testBit pSystem = false ∧ bitsOf 0x400000 23 22 ≠ x.sbits 23 22) ∧
    ((wL8 id).th 0 0).lvl = 8 := by decide

theorem witness_ReturnAndWait_ready : HookReady (wFrame capRoot 0 0x10) h ∧ HookReady (wL8 id) h := by
  refine ⟨?_, ?_⟩ <;> constructor <;> decide

/-- Thread 3 of core 0, in a state. -/
def wTh3 (st : ThSt) : State := (on [(F.TMO_TWD_EN, 0, 0x8)] R).updTh 0 3 fun x => { x with st := st }
/-- Every thread of core 0, or of every core of a split complex, at a barrier. -/
def wBar (b : Barrier) (mode cores : Nat) : State :=
  (List.range (4 * cores)).foldl (fun s k => s.updTh (k / 4) (k % 4) fun x => { x with st := .idle, barrier := some b }) (on [(F.HKC_ID_MODE, 0, mode)] R)

theorem witness_ThreadControl :
    R.coreLive 0 = true ∧ (wTh3 .stopped).reaches fw ⟨.HKC_T_CTRL, 0, 3⟩ 1 = true ∧ ((wTh3 .stopped).th 0 3).st = .stopped ∧
    ((wTh3 .running).th 0 3).st ≠ .stopped ∧ R.reaches fw ⟨.HKC_SWI, 0, 0⟩ 64 = true ∧
    R.reaches fw ⟨.HKC_T_FPST, 0, 3⟩ (BitVec.ofNat 32 (0xFF : Byte).toNat) = true ∧ ((wTh3 .inReset).th 0 3).st = .inReset ∧
    ((wTh3 .inReset).th 0 3).sb = [] ∧ ((wTh3 .running).fld F.TMO_TWD_EN).testBit (4 * 0 + 3) = true ∧
    (wTh3 .running).hook.wdAt.find? (fun e => e.1 == 3) = none ∧
    (({ wTh3 .running with hook := { (wTh3 .running).hook with wdAt := [(3, 0)] } } : State).hook.wdAt.find? fun e => e.1 == 3) = some (3, 0) ∧
    R.uptime < 0 + 1000000000 ∧ R.voted = true ∧ (on [(F.HKC_ID_MODE, 0, 1)] R).voted = false ∧
    (capPerms (R.th 0 0).pcap).testBit pSystem = true ∧
    ((wBar .split 0 1).voted = true ∧ (∀ t, t < 4 → ((wBar .split 0 1).th 0 t).barrier = some .split ∧ ((wBar .split 0 1).th 0 t).sb = [])) ∧
    ((wBar .merge 1 3).voted = false ∧ (∀ c, c < 3 → ∀ t, t < 4 → ((wBar .merge 1 3).th c t).barrier = some .merge)) ∧
    gateValid (R.th 0 0) 1 = false ∧ gateValid ((wGate 0).th 0 0) 7 = true ∧ (R.th 0 3).barrier ≠ some .split ∧
    (R.th 2 3).barrier ≠ some .merge := by decide

/-- c0 and c2 in TCM. -/
def wBlk : State := wT fun x => (x.setC 0 (capSetAddr capRoot wTcm)).setC 2 (capSetAddr capRoot (wTcm + 0x100))

theorem witness_BlockRepeat :
    (let x := (wBlk.th 0 0).issued h
     let reads := fun (c : CapV) (ea : Nat) => wBlk.accFault 0 0 ⟨c, ea, 8, [pLoad], none, false, false⟩ = none ∧
       (capPerms c).testBit pIdem = true ∧ wBlk.regionOf ea = .tcm ∧ wBlk.poisoned ea 8 = false
     let writes := fun (c : CapV) (ea : Nat) => wBlk.accFault 0 0 ⟨c, ea, 8, [pStore], some 0, false, false⟩ = none ∧ inCtrl ea = false
     reads (x.c 0) (capAddr (x.c 0) + x.g 2) ∧ reads (x.c 2) (capAddr (x.c 2) + x.g 3) ∧ writes (x.c 2) (capAddr (x.c 2) + x.g 3) ∧
     reads (x.c 0) (capAddr (x.c 0) - 8) ∧ writes (x.c 2) (capAddr (x.c 2) - 8) ∧ writes (x.c 0) (capAddr (x.c 0) + x.g 3) ∧
     (x.sb.filter fun e => !e.frame).length < 8 ∧ x.g 1 = 0 ∧ (wBlk.regionOf wTcm = .tcm)) ∧
    (let s := wBlk.updTh 0 0 fun x => x.setG 1 2
     (match exec (.hBmov h .d .none 0 1) s with
      | .next t => decide ((t.th 0 0).fault = none ∧ (t.th 0 0).esc = none ∧ ((s.th 0 0).issued h).g 1 ≠ 0) | _ => false) = true ∧
     (match exec (.hBmov h .d .rpt 0 1) s with
      | .next t => decide ((t.th 0 0).pcap = (s.th 0 0).pcap ∧ (t.th 0 0).fault = none) | _ => false) = true) ∧
    (let s := (wC capNull).updTh 0 0 fun x => x.setG 1 2
     (match exec (.hBmov h .d .none 0 1) s with | .next t => (t.th 0 0).fault.isSome | _ => false) = true) := by decide

theorem witness_BlockRepeat_ready : HookReady wBlk h := by constructor <;> decide

/-- A resynchronisation of core 2 under way, or core 2 held. -/
def wVot (resync held : Nat) : State :=
  let s := on [(F.VOT_STAT_RESYNC, 0, resync), (F.VOT_STAT_HELD, 0, held)] R
  { s with vot := { s.vot with minority := some 2, swept := true } }

theorem witness_Voting :
    R.voted = true ∧ R.flag F.VOT_STAT_RESYNC = false ∧ R.flag F.VOT_STAT_DEGRADED = false ∧ R.vot.ds.length < 16 ∧
    16 ≤ ({ R with vot := { R.vot with ds := List.replicate 16 ⟨0, 0, 0⟩ } } : State).vot.ds.length ∧
    (wVot 1 0).flag F.VOT_STAT_RESYNC = true ∧ (wVot 1 0).vot.swept = true ∧ (wVot 1 0).vot.minority = some 2 ∧
    R.reaches fw ⟨.VOT_STEST, 0, 0⟩ 1 = true ∧ R.flag F.VOT_STEST_FAIL = false ∧
    (on [(F.VOT_STEST_FAIL, 0, 1)] R).flag F.VOT_STEST_FAIL = true ∧ R.reaches fw ⟨.VOT_CMD, 0, 0⟩ 1 = true ∧
    1 ≤ (wVot 0 3).fld F.VOT_STAT_HELD ∧ (wVot 0 3).flag F.VOT_STAT_RESYNC = false ∧ R.fld F.VOT_STAT_HELD = 0 ∧
    R.readsOut fw ⟨.VOT_DS_POP, 0, 0⟩ = true := by decide

/-- A checked ply of so many pairs. -/
def wChk (b : Nat) : Inst := { wIn .running with entry := { wEntry with opts := 64 }, b := b }
/-- Set 63 with four beds at positions 0 to 3, or two, running it; bed 135 its standby bed or not. -/
def wPairs (b : Nat) (spare : Nat) : State :=
  on ((List.range (2 * b)).flatMap (fun k => [(F.BED_CTRL_EN, k, 1), (F.BED_CTRL_SET, k, 63), (F.BED_CTRL_LPOS, k, k)]) ++
    [(F.BED_CTRL_EN, 135, spare), (F.BED_CTRL_SET, 135, 63), (F.BED_CTRL_STANDBY, 135, 1)]) (wPly [] (some (wChk b)) true)

theorem witness_CheckedPlies :
    (let s := R.setBed 135 { R.bed 135 with mark := some 0 }
     (s.bed 135).mark = some 0 ∧ s.uptime < 0 + s.fld F.VOT_CHKWIN * 1000000000) ∧ (R.bed 135).mark = none ∧
    ([(1, 1), (1, 0), (2, 0)].all fun (e : Nat × Nat) =>
      let s := wPairs e.1 e.2
      decide (s.inst 63 false = some (wChk e.1)) && (s.setOf 63 == some 63) && optChecked (wChk e.1).entry &&
        ((s.plq 63).younger.isNone && ((s.queuesOf 63) == [63])) && s.setBeds 63 == List.range (2 * e.1) &&
        (List.range (2 * e.1)).all (fun k => s.fld F.BED_CTRL_LPOS k == k) && s.spareBed 63 == (if e.2 = 1 then some 135 else none)) = true := by
  decide

/-- Every bed waits for its measurement: none is free. -/
theorem witness_CheckedPlies_noFree : ({ R with gau := { R.gau with plan := List.range 136 } } : State).freeBed = none := by decide +kernel

/-- Cast-on at a stage. -/
def wStage (n : Nat) : State := { on [(F.TMO_CASTON_STAGE, 0, n)] R with pwr := { R.pwr with coreEn := true } }
/-- A header of one firmware entry, with its check value. -/
def wHdr : List Byte :=
  let b := leBytes 4 0x46424755 ++ leBytes 2 0 ++ leBytes 2 1 ++ leBytes 8 1 ++ leBytes 4 1 ++ leBytes 4 0x20000 ++ leBytes 4 0x1400
  let b := b ++ List.replicate (0xD0 - b.length) 0
  b ++ leBytes 4 0xABED337A
/-- Bytes at an address of the flash. -/
def wFlashAt (a : Nat) (l : List Byte) : KV Nat Byte := (List.range l.length).map fun k => (a + k, l.getD k 0)
/-- A firmware container of no payload, loaded at an address; whether its signature holds is open. -/
def wImg (load : Nat) : List Byte :=
  leBytes 4 0x4D494755 ++ [1] ++ leBytes 3 0 ++ leBytes 4 1 ++ leBytes 4 0 ++ leBytes 8 load ++ leBytes 8 0 ++ List.replicate 64 0
/-- A flash of 16 MiB with that header as its only one, cast-on at stage 3. -/
def wFlash (load : Nat) : State :=
  let s := wStage 3
  { s with cast := { s.cast with size := 0x1000000, erase := 0x1000, flash := wFlashAt 0 wHdr ++ wFlashAt 0x20000 (wImg load) } }

theorem witness_CastOn_flash :
    (match (wFlash 0x100000).flashOrder with
     | [(0, f)] => decide (f.dir = [⟨1, 0, 0x20000, 0x1400⟩])
     | _ => false) = true := by decide +kernel

theorem witness_CastOn_container :
    ([0x100000, 0x100008].all fun load =>
      (parseContainer ((wFlash load).flashBytes 0x20000 0x1400) 1).any fun c => decide (c.load = load) && c.payload.isEmpty) = true := by
  decide +kernel

theorem witness_CastOn :
    ([0, 1, 2, 3, 4, 5, 6, 7, 8].all fun n =>
      let s := wStage n
      decide (s.fld F.TMO_CASTON_STAGE = n) && !s.flag F.TMO_CASTON_SAFE && !s.cast.hookOnly && !s.flag F.TMO_CASTON_DONE && memWf s.mem &&
        !s.cast.expired.contains n) = true ∧
    R.fld F.TMO_CASTON_STAGE ≠ 8 ∧ (wStage 0).pwr.coreEn = true ∧ (wStage 0).pwr.porst = false ∧ (wStage 0).pwr.sysrst = false ∧
    (wStage 0).tb.refLost = false ∧ (wStage 2).flashHdr 0 = none ∧ (wStage 2).flashHdr 1 = none ∧ ((wFlash 0x100000).flashHdr 0).isSome = true ∧
    (wStage 4).flag F.RPR_STAT_DONE = false ∧ (on [(F.RPR_STAT_DONE, 0, 1)] (wStage 4)).flag F.RPR_STAT_DONE = true ∧
    (wStage 5).flag F.BED_UC_STAT_LOCKED = false ∧ ((wStage 5).flashImages 2).head? = none ∧ (wStage 6).fld F.DDR_CFG_CHMASK = 0 ∧
    (wStage 6).cast.warm = false ∧ (0xFFF).testBit 11 = true ∧ (0x800).testBit 11 = true ∧ (wStage 8).cast.load % 16 = 0 ∧
    (wStage 8).cast.load + (wStage 8).cast.length ≤ 0x500000 ∧
    (on [(F.MTX_REMAP_REMAP, 0, 1)] (wStage 8)).flag F.MTX_REMAP_REMAP = true ∧ R.reaches fw ⟨.TMO_CASTON, 0, 0⟩ 1 = true ∧
    (wStage 8).flag F.KTH_POLICY = false ∧ 8 ∈ ({ wStage 8 with cast := { (wStage 8).cast with expired := [8] } } : State).cast.expired ∧
    R.reaches fw ⟨.BED_UC_CTRL, 0, 0⟩ 1 = true ∧ R.reaches .bootRom ⟨.MTX_REMAP, 0, 0⟩ 1 = true ∧ R.flag F.MTX_REMAP_REMAP = false ∧
    (on [(F.BED_STAT_PWRGATED, 135, 1)] R).flag F.BED_STAT_PWRGATED 135 = true ∧
    ((wPly [] (some (wIn .running)) true).setBusy 63) = true ∧ R.setBusy 63 = false := by decide +kernel

/-- A request of the PLC in front of firmware in OP. -/
theorem witness_sdoAsks_plc : Sys2Proof.Claims.sdoAsks up .plc 2 0x2000 2 [4] := by
  unfold Sys2Proof.Claims.sdoAsks; decide

/-- The host's request of one segment in PCI_DMB. -/
def wHost (op idx sub : Nat) (bs : List Byte) : State :=
  let s := on [(F.PCI_DMB_STAT_BUSY, 0, 1), (F.PCI_DMB_CMD_OP, 0, op), (F.PCI_DMB_CMD_INDEX, 0, idx), (F.PCI_DMB_CMD_SUB, 0, sub),
    (F.PCI_DMB_LEN, 0, bs.length), (F.PCI_DMB_DATA, 0, ofLeBytes bs)] up
  { s with ect := { s.ect with leftInit := true } }

theorem witness_sdoAsks_host : Sys2Proof.Claims.sdoAsks (wHost 2 0x7000 2 [1, 2, 3, 4]) .host 2 0x7000 2 [1, 2, 3, 4] ∧
    Sys2Proof.Claims.sdoAsks (wHost 1 0x2000 1 []) .host 1 0x2000 1 [] := by
  unfold Sys2Proof.Claims.sdoAsks; decide

/-- The network in an AL state after cast-on. -/
def wAl (al : Nat) : State := { up with ect := { up.ect with al := al } }

/-- 32 map entries of eight bytes in each of five maps that are assigned: 1,280 bytes. -/
def wBigMap : State :=
  { wAl 2 with od := (List.range 5).flatMap fun k =>
      (((0x1600 + k) * 256, 32) :: (0x1C12 * 256 + k + 1, 0x1600 + k) ::
        (List.range 32).map fun j => ((0x1600 + k) * 256 + j + 1, 0x70000240)) }

theorem witness_DictionaryRequests :
    odInfo 0x1234 0 = none ∧ odExists 0x1234 = false ∧ odInfo 0x2000 0x99 = none ∧ odExists 0x2000 = true ∧
    (odInfo 0x2000 1).any (fun i => !i.wr && i.rd) = true ∧ (odInfo 0x7000 2).any (fun i => i.wr && i.len == some 4) = true ∧
    (odInfo 0x2000 2).any (fun i => i.wr && i.len == some 1) = true ∧ odRange 0x2000 2 6 = false ∧ odRange 0x2000 2 5 = true ∧
    up.valueOk 0x2000 2 [5] = true ∧ fieldOnly 0x2000 = true ∧ (wHost 2 0x2000 2 [5]).ect.leftInit = true ∧
    (let s := up.setChan 15 { Chan.init with st := .run }
     (odInfo 0x210F 4).any (fun i => i.wr) = true ∧ odRange 0x210F 4 0 = true ∧ s.valueOk 0x210F 4 (leBytes 4 0) = true ∧
     s.stateOk 0x210F 4 = false ∧ s.ect.leftInit = false) ∧
    inRange 0x7000 16 0x700F = true ∧ isMap 0x1600 = true ∧ (wAl 2).ect.al = 2 ∧ ((wAl 2).setOd 0x1600 0 0).odv 0x1600 0 = 0 ∧
    mapEntryOk true 0x70000220 = true ∧ mapEntryOk true 0x12340020 = false ∧
    ((wAl 2).setOd 0x1600 0 1).odList 0x1600 = [((wAl 2).setOd 0x1600 0 1).odv 0x1600 1] ∧
    (((wAl 2).setOd 0x1C12 0 1).pdoBytes true ≤ 1024) ∧ (wAl 8).ect.al ≠ 2 ∧
    (odRecord 0x2000).any (fun r => decide (r.1 < 256)) = true ∧ isMap 0x2000 = false ∧
    (let s := on [(F.PCI_DMB_OFF, 0, 8)] (wHost 2 0x3000 1 [1])
     s.hostServed = true ∧ s.asked 2 0x3000 1 false = true ∧ s.fld F.PCI_DMB_OFF ≠ 0 ∧ s.ect.segs = []) ∧
    up.reaches fw ⟨.PCI_DMB_CMD, 0, 0⟩ 0x80000000 = true ∧ setBit (0x80000000 : Word) 31 = true ∧ up.flag F.PCI_DMB_STAT_BUSY = false ∧
    (wHost 2 0x2000 2 [5]).flag F.PCI_DMB_STAT_BUSY = true ∧ up.plcServed = true := by decide

theorem witness_DictionaryRequests_tooLong : 1024 < (wBigMap.setOd 0x1C12 0 5).pdoBytes true := by decide +kernel

/-- The error of a verification. -/
def errOf : Except Nat Container → Option Nat
  | .error e => some e
  | .ok _ => none

/-- A camera record of camera 31 on link 31, 64 wales of format 0, heartbeat 100 ms. -/
def wCamRec : List Byte := [31, 0, 31, 0] ++ leBytes 4 (2 ^ 31) ++ leBytes 4 0 ++ leBytes 2 64 ++ leBytes 4 0 ++ leBytes 2 100 ++ leBytes 12 0

theorem witness_DictionaryCommands :
    up.fwUp = true ∧ (wAl 2).plcServed = true ∧ up.ect.leftInit = false ∧ up.flag F.KTH_STAT_BUSY = false ∧ up.odv 0x2800 6 ≠ 1 ∧
    up.odv 0x2800 1 ≠ 1 ∧ up.kth.pend = none ∧ (List.replicate 3348 (0 : Byte)).length = 3348 ∧ (wAl 4).mayOp = true ∧
    up.odv 0x2000 3 ≠ 1 ∧ up.ect.bindoff = none ∧ up.voted = true ∧ up.leaderBusy 15 = false ∧ (up.chan 15).st = .idle ∧
    (let s := { wEnter with ect := { wEnter.ect with al := 2 }, od := [] }
     s.odv 0x2100 1 ≠ 1 ∧ s.odv 0x2100 2 ≠ 1 ∧ s.runOk 0 = true ∧ s.ect.al = 2 ∧ s.plcServed = true ∧ s.leaderBusy 0 = false) ∧
    (up.setOd 0x210F 1 1).odv 0x210F 1 = 1 ∧ wCamRec.length = 32 ∧ up.camRecOk 15 (camRec wCamRec) = true ∧
    up.bedRuns 135 = false ∧ up.displaced 135 (1 + 5 * 4) = none ∧
    up.bedEntry 135 % 32768 ≠ 1 + 5 * 4 ∧ (up.plq 63).entry = none ∧ up.flag F.PLQ_CTRL_EN 63 = false ∧
    up.flag F.PLQ_CTRL_OWNER 63 ≠ (128 : Nat).testBit 7 ∧
    up.odv 0x2300 5 ≠ 1 ∧ up.odv 0x2310 5 ≠ 1 ∧ up.odv 0x2320 7 ≠ 1 ∧ up.fieldRepairs = [] ∧ up.kth.tree = none ∧ up.odv 0x2700 3 ≠ 1 ∧
    (wAl 2).devState = 1 ∧ (wAl 2).fld F.PWR_STAT_SLEEP ≠ 2 ∧ (on [(F.PWR_STAT_SLEEP, 0, 2)] up).fld F.PWR_STAT_SLEEP = 2 ∧ R.fwUp = false ∧
    (on [(F.DDR_CFG_CHMASK, 0, 1), (F.DDR_CH_STAT_LOST, 0, 1)] up).ddrReady = false ∧ (62 : Nat) < 63 ∧ errOf (up.verify [] (leAt [] 4 1)) = some 1 ∧
    ({ up with ect := { up.ect with slots := [(62, ⟨[1], 4, 1, 2, 0⟩)] } } : State).slot 62 = ⟨[1], 4, 1, 2, 0⟩ := by decide +kernel

theorem bedLimit_ge : 64 ≤ bedLimit := by unfold bedLimit; split <;> decide

theorem witness_DictionaryCommands_bed : up.bedEntryOk 135 (1 + 5 * 4) = true := by
  unfold State.bedEntryOk
  exact Bool.or_eq_true_iff.mpr (Or.inr (Bool.and_eq_true_iff.mpr
    ⟨decide_eq_true (Nat.le_trans (m := 1) (by decide) (Nat.le_trans (by decide) bedLimit_ge)), by decide⟩))

/-- An operation of the Kethar block in progress. -/
def wKop (op src len dst : Nat) : State :=
  let s := on [(F.KTH_STAT_BUSY, 0, 1)] up
  { s with kth := { s.kth with op := some ⟨op, src, len, dst, none, 0⟩ } }
/-- A tree in the making, its generation ended or not, its path taken or not. -/
def wPend (op : Option KOp) (gen : Bool) (path : Option (List Byte)) : State :=
  { up with kth := { up.kth with op := op, pend := some ⟨6, 5, gen, path, 0⟩ } }

theorem witness_KetharCommands :
    ((List.range 11).all fun k => up.reaches fw ⟨.KTH_CMD, 0, 0⟩ (BitVec.ofNat 32 (2 ^ 31 + (k + 1)))) = true ∧
    up.flag F.KTH_STAT_BUSY = false ∧ (wKop 4 0 0 0).flag F.KTH_STAT_BUSY = true ∧
    (wKop 4 0 0 0).reaches fw ⟨.KTH_CMD, 0, 0⟩ 0x80000006 = true ∧
    (on [(F.KTH_POLICY, 0, 1)] up).flag F.KTH_POLICY = true ∧ up.flag F.KTH_TREE_OPEN = false ∧ up.kth.opened = false ∧ up.flag F.KTH_POLICY = false ∧
    (wPend none false none).kth.pend ≠ none ∧ up.castOnDone = true ∧ (wKop 4 0 0 0).castOnDone = true ∧ R.castOnDone = false ∧
    (wKop 4 0 0 0).kth.op = some ⟨4, 0, 0, 0, none, 0⟩ ∧ (wPend none false none).kth.op = none ∧ up.kth.op = none ∧ up.kth.pend = none := by
  decide

/-- A key container for slot 2 (Integrator 0), whose signature is of no matter there. -/
def wKey (op slot : Nat) : List Byte :=
  leBytes 4 0x4D494755 ++ [5, 1] ++ leBytes 2 0 ++ leBytes 4 1 ++ leBytes 4 40 ++ leBytes 80 0 ++
    leBytes 4 0x594B4755 ++ [BitVec.ofNat 8 op, BitVec.ofNat 8 slot] ++ leBytes 2 0 ++ leBytes 32 9

theorem witness_KetharOperations :
    ([1, 2, 3, 4, 5, 9, 10].all fun op => !(wKop op 0x30000000 4 0x30000000).kthAddrOk ⟨op, 0x30000000, 4, 0x30000000, none, 0⟩) = true ∧
    ([(1, 0, 0), (2, 0, 0), (3, 32, 4096), (4, 32, 4096), (4, 31, 4096), (5, 96, 4096), (8, 0, 0), (9, 3348, 0), (10, 96, 0)].all fun (e : Nat × Nat × Nat) =>
      (wKop e.1 0x100000 e.2.1 0x110000).kthAddrOk ⟨e.1, 0x100000, e.2.1, 0x110000, none, 0⟩) = true ∧
    (wKop 4 0x100000 32 0x110000).kth.op = some ⟨4, 0x100000, 32, 0x110000, none, 0⟩ ∧ memWf (wKop 4 0 0 0).mem = true ∧
    up.kth.tree = none ∧ up.fld F.KTH_TREE_Q < 32768 ∧ up.regionOf 0x110000 = .sram ∧
    (up.peekN 0x100000 32).length = 32 ∧ errOf (up.verify (up.peekN 0x100000 0) 4) = some 1 ∧ (parseContainer (up.peekN 0x100000 96) 3).isNone = true ∧
    up.bootN < 32768 ∧ ({ up with kth := { up.kth with burned := [32767] } } : State).bootN = 32768 ∧ up.flag F.KTH_TREE_OPEN = false ∧ up.kth.pend = none ∧ up.kth.chal = false ∧ up.keyIn [2, 3] [] = false ∧
    2 ∉ up.kth.prog ∧ (wPend none false none).kth.pend = some ⟨6, 5, false, none, 0⟩ ∧
    (wPend none false (some [])).kth.pend = some ⟨6, 5, false, some [], 0⟩ := by decide

theorem witness_KetharOperations_last :
    (on [(F.KTH_TREE_Q, 0, 32768)] up).fld F.KTH_TREE_Q = 32768 ∧ 32768 ≤ (on [(F.KTH_TREE_Q, 0, 32768)] up).fld F.KTH_TREE_Q ∧
    (on [(F.KTH_TREE_Q, 0, 31743)] up).fld F.KTH_TREE_Q + 1 = 31744 := by decide

theorem witness_KetharOperations_key : (parseContainer (wKey 1 2 ++ List.replicate sigLen 0) 5).any (fun c =>
    decide (c.payload.length = 40 ∧ leAt c.payload 0 4 = 0x594B4755 ∧ leAt c.payload 6 2 = 0 ∧ leAt c.payload 4 1 = 1 ∧ leAt c.payload 5 1 = 2)) = true := by
  decide +kernel

/-- The network in an AL state with entries of the dictionary. -/
def wOd (al : Nat) (od : KV Nat Nat) : State := { wAl al with od := od }
/-- An entry of a map that is in no direction an object. -/
def wBadMap (o map : Nat) : State := wOd 2 [(o * 256, 1), (o * 256 + 1, map), (map * 256, 1), (map * 256 + 1, 0x12340020)]
/-- Channel 15 alone enabled, its RUN wanted. -/
def wOne : State := wOd 2 [(0x210F01, 1)]
/-- A device bind-off towards an AL state. -/
def wDbo (al to_ : Nat) : State := { wAl al with ect := { (wAl al).ect with bindoff := some to_ } }

theorem witness_EsmTransitions :
    (wAl 1).ect.al = 1 ∧ (on [(F.TMO_CASTON_SAFE, 0, 1)] (wAl 1)).inSafe = true ∧ (wAl 1).esmFree = true ∧ (wAl 1).inSafe = false ∧
    (wAl 1).fwUp = true ∧ (wAl 2).ect.al ≠ 1 ∧ (wAl 2).esmFree = true ∧ (wBadMap 0x1C12 0x1600).mapsOk true = false ∧
    (wBadMap 0x1C13 0x1A00).mapsOk true = true ∧ (wBadMap 0x1C13 0x1A00).mapsOk false = false ∧ (wAl 2).mapsOk true = true ∧
    (wAl 2).mapsOk false = true ∧ (∀ n, n < 16 → ((wAl 2).chan n).st = .idle) ∧ (∀ n, n < 16 → ¬ (wAl 2).odv (0x2100 + n) 1 = 1) ∧
    wOne.odv (0x2100 + 15) 1 = 1 ∧ (∀ m, m < 16 → m ≠ 15 → ¬ wOne.odv (0x2100 + m) 1 = 1) ∧ wOne.locked 15 = false ∧
    wOne.runRequest 15 = true ∧ wOne.runOk 15 = false := by decide

theorem witness_EsmTransitions_run :
    (let s := { wEnter with ect := { wEnter.ect with al := 2 } }
     s.esmFree = true ∧ s.mapsOk true = true ∧ s.mapsOk false = true ∧ s.odv 0x2100 1 = 1 ∧
       (∀ m, m < 16 → m ≠ 0 → ¬ s.odv (0x2100 + m) 1 = 1) ∧ s.locked 0 = false ∧ s.runRequest 0 = true ∧ s.runOk 0 = true) := by decide

theorem witness_EsmTransitions_op :
    (wAl 4).ect.al = 4 ∧ (wAl 4).esmFree = true ∧ (wAl 4).mayOp = true ∧ (on [(F.VOT_STEST_FAIL, 0, 1)] (wAl 4)).mayOp = false ∧
    (wOd 4 [(0x200006, 1)]).odv 0x2000 6 = 1 ∧ (wOd 4 [(0x200006, 0)]).odv 0x2000 6 ≠ 1 ∧ up.ect.al = 8 ∧ up.esmFree = true ∧
    (wOd 8 [(0x200007, 1)]).odv 0x2000 7 = 1 ∧ up.odv 0x2000 7 ≠ 1 ∧
    (wOd 8 [(0x210F01, 1), (0x210F18, 1)]).odv (0x2100 + 15) 0x18 = 1 ∧ up.ect.bindoff = none ∧ (wOut [] 0).flag F.TIO_OUT_CTRL_EN 63 = true ∧
    ((wOut [] 0).out 63).bindoff = false ∧ (wAl 3).ect.al = 3 ∧ (wDbo 8 2).ect.bindoff = some 2 ∧ (wDbo 8 2).allIdle = true ∧
    (wDbo 8 2).fwUp = true ∧ (wDbo 8 0).ect.bindoff = some 0 ∧ (wOd 8 [(0x200003, 1)]).odv 0x2000 3 = 1 ∧
    (wRun (wDbo 8 2)).allIdle = false ∧ up.voted = true := by decide

theorem witness_EsmTransitions_outputs : ∀ o, ((wDbo 8 2).out o).bindoff = false := fun _ => rfl

/-- Entries 1 and 2 of RPDO map 0: word 1 (16 bits) and word 2 (32 bits) of the channel's command block; TPDO map 0: its result word 0. -/
def wPdo (n : Nat) : KV Nat Nat :=
  [(0x1C1200, 1), (0x1C1201, 0x1600), (0x160000, 2), (0x160001, (0x7000 + n) * 65536 + 0x0110), (0x160002, (0x7000 + n) * 65536 + 0x0220),
   (0x1C1300, 1), (0x1C1301, 0x1A00), (0x1A0000, 1), (0x1A0001, (0x6000 + n) * 65536 + 0x0520),
   ((0x2100 + n) * 256 + 0x1E, 0x20000040), ((0x2100 + n) * 256 + 0x1F, 0x20000080)]

theorem witness_ProcessData : (15 : Nat) < 16 ∧ (wAl 4).ect.al = 4 ∧ up.fwUp = true ∧
    (wOd 8 (wPdo 15)).odv (0x2100 + 15) 0x1E ≠ 0 ∧ (wOd 8 (wPdo 15)).txMap = [(0x6000 + 15) * 65536 + 0x0520] ∧ (wAl 2).ect.al ≠ 4 ∧
    (wAl 2).ect.al ≠ 8 ∧ (∀ m, m < 16 → (up.chan m).st = .idle) ∧ (∀ m, m < 16 → (wOd 8 (wPdo 15)).odv (0x2100 + m) 1 ≠ 1) ∧
    (wOd 8 (wPdo 15)).rxMap = [(0x7000 + 15) * 65536 + 0x0110, (0x7000 + 15) * 65536 + 0x0220] ∧
    blockOk 32 ((wOd 8 (wPdo 15)).odv (0x2100 + 15) 0x1F) = true ∧ memWf (wOd 8 (wPdo 15)).mem = true ∧
    (∀ m, m < 16 → m ≠ 15 → (wOd 8 (wPdo 15)).odv (0x2100 + m) 0x1F = 0) ∧ up.regionOf 0x200000A0 = .stash ∧
    (wOd 8 [(0x1C3201, 2)]).odv 0x1C32 1 = 2 ∧ (wOd 8 [(0x1C3201, 2), (0x10F102, 1)]).odv 0x10F1 2 ≤ 1 ∧ up.emLast = [] ∧ (wAl 2).ect.al ≠ 8 := by
  decide

theorem witness_FileTransfer :
    up.plcServed = true ∧ inRange 0x3000 64 0x3040 = false ∧ inRange 0x3000 63 0x3000 = true ∧ inRange 0x3000 63 0x303E = true ∧
    (on [(F.DDR_CFG_CHMASK, 0, 1), (F.DDR_CH_STAT_LOST, 0, 1)] up).ddrReady = false ∧ ([] : List Byte).length ≤ 512 * 1024 ∧
    errOf (up.verify [] (leAt [] 4 1)) = some 1 ∧
    (({ up with ect := { up.ect with slots := [(62, ⟨[1], 4, 1, 2, 0⟩)] } } : State).slot (0x303E - 0x3000)).image ≠ [] ∧
    (up.slot 0).image = [] ∧ (let s := on [(F.TMO_CASTON_SAFE, 0, 1)] R
      { s with ect := { s.ect with al := 3 } }.inSafe = true ∧ { s with ect := { s.ect with al := 3 } }.fwUp = false) ∧
    R.plcServed = false ∧ R.inSafe = false := by decide

theorem witness_FileTransfer_long : 512 * 1024 < (List.replicate (512 * 1024 + 1) (0 : Byte)).length ∧
    0x1000000 < (List.replicate (0x1000000 + 1) (0 : Byte)).length := by
  rw [List.length_replicate, List.length_replicate]; decide

/-- SAFE mode in BOOT with a flash. -/
def wSafe (size : Nat) : State :=
  let s := on [(F.TMO_CASTON_SAFE, 0, 1)] R
  { s with ect := { s.ect with al := 3 }, cast := { s.cast with size := size, erase := 0x1000 } }

theorem witness_FileTransfer_safe : ((wSafe 0x1000000).slotStore 0 4 [1, 2]).isSome = true ∧ ((wSafe 0).slotStore 0 4 [1, 2]).isNone = true := by
  decide +kernel

/-- The capability of the whole stash, of an object type. -/
def wStashCap (p otype : Nat) : CapV := capMk 0 16 0 0x2000 0x800 p otype true
/-- The capability of DDR of 16 GiB. -/
def wDdrCap (p otype : Nat) : CapV := capMk 0 32 0 0x100 4 p otype true

/-- The host linked, with a table of 3 handles (1 and 2 cached: stash, DDR) and DDR of 16 GiB. -/
def wLive (c1 c2 : CapV) (mask : Half := 0xFFFF) : State :=
  let s := on [(F.PCI_STAT_UP, 0, 1), (F.PCI_CTRL_EN, 0, 1), (F.PCI_CTRL_NUMVFMAX, 0, 8), (F.PCI_HTAB_N, 0, 3), (F.PCI_HOTYPE, 0, 5),
    (F.PCI_BAR2_H, 0, 1), (F.PCI_BAR4_H, 0, 2), (F.DDR_TOP_HI, 0, 0x104), (F.PCI_HTAB_BASE_LO, 0, 0x100000)] up
  { s with hcache := [(1, c1, mask), (2, c2, mask)] }
/-- With both capabilities in full. -/
def wH : State := wLive (wStashCap 0x1FFF 5) (wDdrCap 0x1FFF 5)

/-- What a handle resolves to. -/
def resOk (s : State) (h fn : Nat) (c : CapV) : Bool := decide ((s.resolveHandle h fn).1 = .ok c)

/-- The offset of a register in BAR0. -/
def barOff (r : Reg) : Nat := r.addr - 0x10000000

theorem witness_HostAccesses :
    R.fnLive 0 = false ∧ wH.fnLive 0 = true ∧ wH.fnLive 8 = true ∧ (2 : Nat) % 4 ≠ 0 ∧
    Reg.ofAddr (0x10000000 + barOff ⟨.PCI_DMA_TAIL, 7, 0⟩) = some ⟨.PCI_DMA_TAIL, 7, 0⟩ ∧ barOff ⟨.PCI_DMA_TAIL, 7, 0⟩ % 4 = 0 ∧
    wH.hostSet 0 ⟨.PCI_DMA_TAIL, 7, 0⟩ = true ∧ wH.heldInReset .PCI = false ∧
    RegKind.PCI_DMA_TAIL ∈ [RegKind.PCI_BAR2_H, .PCI_BAR4_H, .PCI_LNK_BAR4_H, .PCI_DMA_TAIL, .PCI_DMB_LEN, .PCI_DMB_OFF] ∧
    Reg.ofAddr (0x10000000 + barOff ⟨.TIO_OUT_CNT, 63, 0⟩) = some ⟨.TIO_OUT_CNT, 63, 0⟩ ∧ wH.hostSet 0 ⟨.TIO_OUT_CNT, 63, 0⟩ = false ∧
    readActs ⟨.TIO_OUT_CNT, 63, 0⟩ = true ∧ Reg.ofAddr (0x10000000 + barOff ⟨.PCI_BAR2_H, 0, 0⟩) = some ⟨.PCI_BAR2_H, 0, 0⟩ ∧
    Reg.ofAddr (0x10000000 + 0x1FFFFC) = none ∧ (Block.ofAddr (0x10000000 + 0x1FFFFC)).isSome = true ∧
    Reg.ofAddr (0x10000000 + 0x700000) = none ∧ Block.ofAddr (0x10000000 + 0x700000) = none ∧
    0x8FFC % 4 = 0 ∧ 0x8400 ≤ 0x8FFC ∧ 0x8FFC < 0x9000 ∧ 0x8000 ≤ 0x83FC ∧ 0x83FC < 0x8400 := by decide

theorem witness_HostAccesses_windows :
    resOk wH 1 0 (wStashCap 0x1FFF 0) = true ∧ windowOk (wStashCap 0x1FFF 0) pStore stashBase (stashBase + stashSize) (stashBase + 0x7FFFFFC) 4 = true ∧
    windowOk (wStashCap 0x1FFF 0) pLoad stashBase (stashBase + stashSize) stashBase 64 = true ∧ wH.fld F.PCI_BAR2_H = 1 ∧
    R.resolveHandle 0 0 = (.invalid, R) ∧ R.fld F.PCI_BAR2_H = 0 ∧ wH.bar4Of 0 = (2, 0) ∧ resOk wH 2 0 (wDdrCap 0x1FFF 0) = true ∧
    windowOk (wDdrCap 0x1FFF 0) pStore ddrBase wH.ddrTop ddrBase 4 = true ∧ windowOk (wDdrCap 0x1FFF 0) pLoad ddrBase wH.ddrTop (0x104 * 2 ^ 32 - 4) 4 = true ∧
    windowOk (wDdrCap 0x1FFF 0) pStore ddrBase wH.ddrTop (0x104 * 2 ^ 32 - 3) 4 = false ∧ 1535 < wH.vectorCount 0 ∧ 63 < wH.vectorCount 8 ∧
    2047 - 512 ∈ ({ wH with host := { wH.host with pba := [1535] } } : State).host.pba := by decide

/-- A DMA descriptor: handle, direction, length, offset, host address. -/
def wDma (hnd dir n off : Nat) : List Byte := leBytes 2 hnd ++ leBytes 2 dir ++ leBytes 4 n ++ leBytes 8 off ++ leBytes 8 0x1000 ++ leBytes 8 0
/-- Channel 7 with one descriptor. -/
def wChn (s : State) : State := on [(F.PCI_DMA_CTRL_EN, 7, 1), (F.PCI_DMA_SIZE, 7, 2), (F.PCI_DMA_TAIL, 7, 1)] s
/-- Row 9 waits on result ring 15, whose records of 8 bytes lie at the stash's first. -/
def wRing (pol cons : Nat) (first : Nat) (hnd : Nat := 1) : State :=
  let s := on [(F.PCI_RR_CTRL_EN, 15, 1), (F.PCI_RR_CTRL_ELOG, 15, 3), (F.PCI_RR_CTRL_DLOG, 15, 2), (F.PCI_RR_CTRL_POL, 15, pol),
    (F.PCI_RR_H, 15, hnd), (F.PCI_RR_HSIZE, 15, 4), (F.PCI_RR_PROD, 15, 4), (F.PCI_RR_CONS, 15, cons)] wH
  let s := s.poke (0x20000000 + 8) [BitVec.ofNat 8 first]
  { s with host := { s.host with rows := [(15, [9])] } }

theorem witness_HostEngines :
    wH.reaches fw ⟨.PCI_DMA_TAIL, 7, 0⟩ 1 = true ∧ wH.reaches fw ⟨.PCI_DMA_STAT, 7, 0⟩ 2 = true ∧ wH.reaches (.host 0) ⟨.PCI_RR_CONS, 15, 0⟩ 1 = true ∧
    (wChn wH).dmaActive 7 = true ∧ wH.dmaActive 7 = false ∧ (wChn wH).fnLinked ((wChn wH).fld F.PCI_DMA_CTRL_FN 7) = true ∧
    (wDma 1 1 4 0).length = 32 ∧ 1 ≤ (wChn wH).fld F.PCI_DMA_SIZE 7 ∧ (wChn wH).fld F.PCI_DMA_SIZE 7 ≤ 65536 ∧ 7 ∉ (wChn wH).host.busy ∧
    leAt (wDma 1 1 4 0) 2 1 % 2 = 1 ∧ leAt (wDma 1 0 4 0) 2 1 % 2 ≠ 1 ∧ ([1, 2, 3, 4] : List Byte).length = leAt (wDma 1 1 4 0) 4 4 ∧
    ((wChn wH).resolveHandle (leAt (wDma 0 1 4 0) 0 2) 0).1 = .invalid ∧ resOk (wChn wH) (leAt (wDma 1 1 4 0) 0 2) 0 (wStashCap 0x1FFF 0) = true ∧
    capCovers (wStashCap 0x1FFF 0) stashBase 4 = true ∧ (wChn wH).dmaReach stashBase 4 = true ∧ leAt (wDma 1 1 4 0) 4 4 ≤ 2 ^ 24 ∧
    ¬ (leAt (wDma 1 1 0 0) 4 4 ≥ 1) ∧ capHas (wStashCap 1 0) pStore = false ∧ capHas (wStashCap 2 0) pLoad = false ∧
    capHas (wStashCap 1 0) pLoad = true ∧ capHas (wStashCap 2 0) pStore = true ∧
    wH.mayPut fw F.PCI_HFENCE_31 1 0 0 = true ∧ (∀ x ∈ wH.host.busy, wH.dmaActive x = false) ∧
    (let s := { wChn wH with host := { wH.host with busy := [7] } }
     7 ∈ s.host.busy ∧ s.dmaActive 7 = true) := by decide

theorem witness_HostEngines_poison :
    (let s := { wH with hcache := [], mem := { wH.mem with bad := [0x100020] } }
     (s.resolveHandle 1 0).1 = .poison 0x100020) := by decide

theorem witness_HostEngines_rings :
    wH.flag F.PCI_RR_CTRL_EN 15 = false ∧ (wRing 0 0 9).flag F.PCI_RR_CTRL_EN 15 = true ∧ (wRing 0 0 9).host.rows.get 15 [] = [9] ∧
    ((wRing 0 0 9 0).resolveHandle ((wRing 0 0 9 0).fld F.PCI_RR_H 15) 0).1 = .invalid ∧
    resOk (wRing 0 0 9) ((wRing 0 0 9).fld F.PCI_RR_H 15) ((wRing 0 0 9).fld F.PCI_RR_CTRL_FN 15) (wStashCap 0x1FFF 0) = true ∧
    capBase (wStashCap 0x1FFF 0) + 9 % 2 ^ 2 * 2 ^ 3 = 0x20000008 ∧ (wRing 0 0 9).dmaReach 0x20000008 8 = true ∧
    (wRing 0 0 9).poisoned 0x20000008 8 = false ∧ (wRing 0 0 9).peekNat 0x20000008 8 = 9 ∧ (wRing 0 1 9).rrFull 15 = false ∧
    (wRing 0 0 9).rrFull 15 = true ∧ (wRing 0 0 9).flag F.PCI_RR_CTRL_POL 15 = false ∧ (wRing 1 0 9).flag F.PCI_RR_CTRL_POL 15 = true ∧
    9 < (wRing 1 0 10).peekNat 0x20000008 8 ∧ (wRing 0 0 5).peekNat 0x20000008 8 ≠ 9 ∧
    capCovers (wStashCap 0x1FFF 0) 0x20000008 8 = true := by decide

/-- Queue 63 owned by the host at function 0, or no queue. -/
def wOwn (en : Nat) : State := on [(F.PLQ_CTRL_OWNER, 63, 1), (F.PLQ_CTRL_EN, 63, en)] wH
/-- JTAG unlocked for a scope. -/
def wJtag (scope : Nat) : State := let s := on [(F.KTH_STAT_DBG, 0, 1)] up; { s with kth := { s.kth with scope := scope } }

theorem witness_HostLinkAndMatrix :
    wH.fnLinked 0 = true ∧ (wOwn 1).flag F.PLQ_CTRL_OWNER 63 = true ∧ (wOwn 1).queueFn 63 = 0 ∧
    (∀ x, x < 64 → (wOwn 1).flag F.PLQ_CTRL_OWNER x = true → x = 63) ∧ ((wOwn 1).plq 63).older = none ∧ ((wOwn 1).plq 63).younger = none ∧
    ((wOwn 1).plq 63).entry = none ∧ ((wOwn 1).plq 63).newOwner = none ∧ (wOwn 1).flag F.PLQ_CTRL_EN 63 = true ∧
    (wOwn 1).qBindoff 63 = false ∧ (∀ x, x < 64 → wH.flag F.PLQ_CTRL_OWNER x = false) ∧ wH.fld F.PCI_DMA_CTRL_FN 7 = 0 ∧
    (on [(F.PCI_DMA_CTRL_FN, 7, 1)] wH).fld F.PCI_DMA_CTRL_FN 7 ≠ 0 ∧ wH.fld F.PCI_RR_CTRL_FN 15 = 0 ∧
    (on [(F.PCI_DMB_STAT_BUSY, 0, 1)] wH).flag F.PCI_DMB_STAT_BUSY = true ∧ R.fnLinked 0 = false ∧ wH.flag F.PCI_STAT_UP = true ∧
    R.flag F.PCI_STAT_UP = false ∧ R.host.perst = false ∧ R.fld F.PCI_STAT_BIF ≠ 3 ∧ 16 ∈ [1, 2, 4, 8, 16] ∧
    (on [(F.PCI_STAT_BIF, 0, 3)] R).fld F.PCI_STAT_BIF = 3 ∧ ({ R with host := { R.host with perst := true } } : State).host.perst = true ∧
    (on [(F.PCI_CTRL_EN, 0, 0)] wH).flag F.PCI_CTRL_EN = false ∧ (on [(F.PCI_CTRL_EN, 0, 0)] wH).fnLinked 0 = true ∧ wH.flag F.PCI_CTRL_EN = true ∧
    up.flag F.KTH_STAT_DBG = false ∧ (wJtag 2).flag F.KTH_STAT_DBG = true ∧ (wJtag 2).regionOfRange 0x27FFFFFF 1 = .stash ∧
    (wJtag 2).kth.scope.testBit 1 = true ∧ (wJtag 1).kth.scope.testBit 1 = false ∧ (wJtag 1).regionOfRange 0x4FFFF0 16 = .sram ∧
    (wJtag 1).kth.scope.testBit 0 = true ∧ (wJtag 1).inFwWindow 0x4FFFF0 16 = false ∧
    (on [(F.MTX_FWLEN, 0, 16), (F.MTX_FWBASE, 0, 0x4FFFF)] (wJtag 1)).inFwWindow 0x4FFFF0 16 = true := by decide

theorem witness_HostLinkAndMatrix_timeout :
    inCtrl 0x10000000 = true ∧ R.coreLive 0 = true ∧
    (let l : HLoad := ⟨some (.f 0), 0, 5, false, 32, 0, 0x10000000, 0, true, true, false⟩
     ((wLd [l]).th 0 0).loads = [l] ∧ l.ctrl = true ∧ l.addr = 0x10000000 ∧ l.fault = 0) ∧
    ((wBuf [wSb 0x10000000 1 true]).th 0 0).sb = [wSb 0x10000000 1 true] ∧ (wSb 0x10000000 1 true).ctrl = true ∧
    (wSb 0x10000000 1 true).addr = 0x10000000 := by decide

/-- Bed 135 next to be measured, or measured. -/
def wGau (next bed : Option Nat) : State := { up with gau := { up.gau with next := next, bed := bed } }
/-- Bed 0 in set 63, its last time-out at a time, the set migrating or not. -/
def wTo (last : Option Nat) (w : Option Bool) (m : Option Mig) : State :=
  (wQ.setBed 0 { wQ.bed 0 with lastTo := last, toWait := w }).setBset 63 { BSet.init with mig := m }

theorem witness_GaugeAndRail :
    R.pwr.band.get 135 0 = 0 ∧ ({ R with pwr := { R.pwr with band := [(135, 2)] } } : State).pwr.band.get 135 0 = 2 ∧
    ({ R with pwr := { R.pwr with band := [(135, 1)] } } : State).pwr.band.get 135 0 = 1 ∧
    (∃ e ∈ [((135 : Nat), (1600 : Int))], 1600 ≤ e.2) ∧ ({ R with pwr := { R.pwr with avsLost := true } } : State).pwr.avsLost = true ∧
    R.pwr.avsLost = false ∧
    R.reaches fw ⟨.GAU_CTRL, 0, 0⟩ (BitVec.ofNat 32 (putBits (putBits (R.restWord ⟨.GAU_CTRL, 0, 0⟩) 8 8 1) 31 24 135)) = true ∧
    (wGau (some 135) none).gau.bed = none ∧ (wGau (some 135) none).castOnDone = true ∧ (wGau (some 135) none).gau.take = [] ∧
    (wGau (some 135) none).gau.next = some 135 ∧ 135 ∉ (wGau (some 135) none).setBeds ((wGau (some 135) none).fld F.BED_CTRL_SET 135) ∧
    (wGau (some 135) none).flag F.BED_STAT_FENCED 135 = false ∧ (wGau none (some 135)).gau.bed = some 135 ∧ R.castOnDone = false ∧
    (∀ k, k < 16 → (wGau none (some 135)).fld F.GAU_B_VF_0 135 k = 0) ∧ ((wGau none (some 135)).bed 135).swapped = false ∧
    (wGau none (some 135)).gau.back = none ∧ (wGau none (some 135)).flag F.BED_CTRL_EN 135 = false ∧
    ([700] : List Nat).getD 0 0xFFFF ≤ 835 ∧ 835 < ([840] : List Nat).getD 0 0xFFFF := by decide

theorem witness_GaugeAndRail_swapped : ∀ x, ((wGau (some 135) none).bed x).swapped = false := fun _ => rfl

theorem witness_GaugeAndRail_timeout :
    0 ∈ wQ.setBeds (wQ.fld F.BED_CTRL_SET 0) ∧ (on [(F.BED_STAT_FENCED, 0, 1)] wQ).flag F.BED_STAT_FENCED 0 = true ∧
    ((wTo none (some false) none).bed 0).toWait ≠ none ∧ (wTo none none none).flag F.BED_STAT_FENCED 0 = false ∧
    ((wTo none none none).bed 0).toWait = none ∧ ((wTo none none (some ⟨63, 0, 0, 135, false⟩)).bset ((wTo none none (some ⟨63, 0, 0, 135, false⟩)).fld F.BED_CTRL_SET 0)).mig ≠ none ∧
    ((wTo none none none).bset 63).mig = none ∧ ((wTo none none none).bset 63).run = none ∧
    (∀ x ∈ (wTo none none none).setBeds 63, (wTo none none none).fld F.BED_CTRL_LPOS x = (wTo none none none).fld F.BED_CTRL_LPOS 0 → x = 0) ∧
    ((wTo none none none).bed 0).lastTo = none ∧ ((wTo (some 0) none none).bed 0).lastTo = some 0 ∧
    (wTo (some 0) none none).uptime < 0 + 3600000000000 ∧ 135 ∉ wQ.setBeds (wQ.fld F.BED_CTRL_SET 135) := by decide

/-- The table of a bed, which reaches its point `k`. -/
def wTable (b k : Nat) (s : State) : State :=
  (List.range (k + 1)).foldl (fun s j => (s.setFld F.GAU_B_VF_0 (400 + 80 * j) b j).setFld F.GAU_B_VF_16 700 b j) s
/-- Set 63 at the frequency of point 5, set 62 at that of point 2, below their caps by given steps. -/
def wPwr (low cap : Nat) : State :=
  let s := on [(F.BED_CTRL_EN, 1, 1), (F.BED_CTRL_SET, 1, 62), (F.GAU_STHF_16, 0, 1600), (F.GAU_FMIN, 0, 400)] (wTable 0 5 (wTable 1 2 wQ))
  { s with pwr := { s.pwr with low := low, cap := if cap = 0 then [] else [(63, cap)] } }

theorem witness_PowerCap :
    (let s := wPwr 0 0
     63 ∈ s.liveSets ∧ s.latq 63 = false ∧ s.fld F.GAU_FMIN + 10 ≤ s.fset 63 ∧ s.fset 63 = 800 ∧ s.fset 62 = 560 ∧ s.liveSets = [62, 63] ∧
     s.pwr.samples = [] ∧ s.pwr.low < 100) ∧
    (let s := wPwr 100 20
     100 ≤ s.pwr.low ∧ 63 ∈ s.liveSets ∧ s.latq 63 = false ∧ 0 < s.pwr.cap.get 63 0 ∧ s.fset 63 < 1600 ∧
     (∀ m ∈ s.liveSets, m ≠ 63 → s.pwr.cap.get m 0 = 0)) := by decide

theorem witness_SleepStates :
    (let s := on [(F.PWR_CTRL_WSDEN, 0, 1)] up
     s.flag F.PWR_CTRL_WSDEN = true ∧ s.fld F.PWR_STAT_SLEEP = 0 ∧ s.castOnDone = true ∧ s.webIdle = true ∧ ∀ n, n < 64 → s.setBusy n = false) ∧
    (on [(F.PWR_CTRL_WSDEN, 0, 0)] up).flag F.PWR_CTRL_WSDEN = false ∧ (on [(F.PWR_STAT_SLEEP, 0, 1)] up).fld F.PWR_STAT_SLEEP = 1 ∧ up.fld F.PWR_STAT_SLEEP ≠ 1 ∧
    (on [(F.PWR_STAT_SLEEP, 0, 1), (F.PWR_STAT_WAKING, 0, 1)] up).flag F.PWR_STAT_WAKING = true ∧
    (on [(F.BED_CTRL_EN, 135, 1)] up).flag F.BED_CTRL_EN 135 = true ∧ up.flag F.BED_CTRL_EN 135 = false ∧
    up.mayPut fw F.PWR_CTRL_STBY 1 0 0 = true ∧ up.devState = 1 ∧ (wRun up).devState ≠ 1 ∧ up.fld F.PWR_STAT_SLEEP ≠ 2 ∧
    up.regionOf 0x27FFFFFF = .stash ∧ wDdr.regionOf 0x103FFFFFFFF = .ddr ∧ up.mayPut fw F.PWR_CTRL_WAKE 1 0 0 = true ∧
    (on [(F.PWR_STAT_SLEEP, 0, 2), (F.PWR_STAT_WAKING, 0, 1)] up).fld F.PWR_STAT_SLEEP = 2 ∧
    (wOd 8 [(0x270003, 1)]).odv 0x2700 3 = 1 := by decide

theorem witness_ResetLevels :
    coldTrig .sysrst = true ∧ coldTrig .threadWatchdog = false ∧ warmTrig .dictionary = true ∧ warmTrig .sysrst = false ∧
    hookTrig .noMajority = true ∧ hookTrig .sysrst = false ∧ up.mayPut fw F.TMO_RESET_COLD 1 0 0 = true ∧
    up.mayPut fw F.TMO_RESET_WARM 1 0 0 = true ∧ up.mayPut fw F.TMO_RESET_HOOK 1 0 0 = true ∧ keepMask true .TIO_CH_DIV = 0 ∧
    (let s := on [(F.CXP_CH_ISTAT_RUN, 15, 1)] (wBnd 2 1)
     s.leaderBusy 15 = false ∧ (s.chan 15).st = .run ∧ (s.ich 15).feed = [] ∧ s.flag F.CXP_CH_ISTAT_RUN 15 = true ∧
     s.reaches fw ⟨.TMO_RESET, 0, 0⟩ (BitVec.ofNat 32 (2 ^ 16 + 15)) = true) ∧
    up.leaderBusy 15 = false ∧ (up.chan 15).st ≠ .run ∧ up.pinnedQueues 15 = [] ∧ up.mayPut fw F.BED_CTRL_RESET 1 135 0 = true ∧
    135 ∉ up.setBeds (up.fld F.BED_CTRL_SET 135) ∧ up.flag F.BED_CTRL_EN 135 = false ∧
    (let s := wMig none (some ⟨63, 0, 0, 135, false⟩)
     0 ∈ s.setBeds (s.fld F.BED_CTRL_SET 0) ∧ s.queuesOf (s.fld F.BED_CTRL_SET 0) ≠ [] ∧ (s.bset (s.fld F.BED_CTRL_SET 0)).mig ≠ none) ∧
    up.reaches (.hook 0 0 allPerms) ⟨.TMO_KICK, 0, 0⟩ 1 = true ∧ (on [(F.PWR_STAT_TRIP, 0, 1)] R).flag F.PWR_STAT_TRIP = true ∧
    R.pwr.coreEn = false ∧ R.flag F.PWR_STAT_TRIP = false := by decide

theorem witness_SuppliesAndClocks :
    ({ R with pwr := { R.pwr with porst := true } } : State).pwr.porst = true ∧ R.pwr.porst = false ∧ R.pwr.sysrst = false ∧
    ({ R with pwr := { R.pwr with sysrst := true } } : State).pwr.sysrst = true ∧ supplyBit .vaonIo = none ∧
    (supplyBit .vddCore).isSome = true ∧ afterCoreEn .vddqDdr = true ∧ (supplyBit .vddqDdr).isSome = true ∧ R.pwr.coreEn = false ∧
    (wStage 0).pwr.coreEn = true ∧ R.flag F.PWR_STAT_TRIP = false ∧ (wStage 0).fld F.TMO_CASTON_STAGE = 0 ∧
    (∀ y ∈ [Supply.vddqDdr], afterCoreEn y = true) ∧ (wStage 3).fld F.TMO_CASTON_STAGE ≠ 0 ∧ R.tb.refLost = false ∧
    ({ R with tb := ⟨0, 0, 0, 0, true, 63⟩ } : State).tb.refLost = true ∧ R.fld F.TBS_CTRL_SRC = 0 ∧ (wTb 1).fld F.TBS_CTRL_SRC = 1 := by decide

theorem witness_RefusedWrites :
    R.reaches fw ⟨.TBS_SET_HI, 0, 0⟩ 1 = true ∧ (wRun R).anyRun = true ∧ R.reaches fw ⟨.CXP_MBX_CMD, 31, 0⟩ 0x80000000 = true ∧
    setBit (0x80000000 : Word) 31 = true ∧ wMbx.flag F.CXP_MBX_STAT_BUSY 31 = true := by decide

theorem witness_StashHoldsNoTags :
    0x27FFFFF0 % 16 = 0 ∧ R.regionOf 0x27FFFFF0 = .stash ∧ memWf (R.storeCap 0x27FFFFF0 1 true).mem = true := by decide

/-! ### Single steps on the numbers of the spec's own tables and examples -/

/-- What an instruction leaves in g3 and in N, Z, C and V where g1 and g2 held these values. -/
def hookRes (c : Instr) (x y : Nat) : Nat × List Bool :=
  let t := (after c (wT fun t => (t.setG 1 x).setG 2 y)).th 0 0
  (t.g 3 % 256, [t.sbit 4, t.sbit 5, t.sbit 6, t.sbit 7])

/-- The table of R252 at 8 bits: NEG, ABS, ADD, SUB, MUL. -/
theorem test_R252_sums :
    hookRes (.hNeg h .b 3 1) 0x80 0 = (0x80, [true, false, true, true]) ∧ hookRes (.hAbs h .b 3 1) 0x80 0 = (0x80, [true, false, false, true]) ∧
    hookRes (.hAdd h .b 3 1 2) 127 1 = (0x80, [true, false, false, true]) ∧ hookRes (.hSub h .b 3 1 2) 0x80 1 = (127, [false, false, false, true]) ∧
    hookRes (.hMul h .b 3 1 2) 0x80 0xFF = (0x80, [true, false, true, true]) ∧ hookRes (.hSub h .b 3 1 2) 3 5 = (254, [true, false, true, false]) := by
  decide

/-- The table of R252 at 8 bits: DIV and REM. -/
theorem test_R252_quotients :
    hookRes (.hDiv h .b 3 1 2) 0x80 0xFF = (0x80, [true, false, false, true]) ∧ (hookRes (.hRem h .b 3 1 2) 0x80 0xFF).1 = 0 ∧
    (hookRes (.hDiv h .b 3 1 2) 7 0).1 = 127 ∧ (hookRes (.hRem h .b 3 1 2) 7 0).1 = 7 ∧ (hookRes (.hDiv h .b 3 1 2) 0xF9 0).1 = 0x80 ∧
    (hookRes (.hRem h .b 3 1 2) 0xF9 0).1 = 0xF9 ∧ (hookRes (.hDivu h .b 3 1 2) 7 0).1 = 255 ∧ (hookRes (.hRem h .b 3 1 2) 0xF9 2).1 = 0xFF := by
  decide

/-- The table of R252 at 8 bits: shifts and rotates. -/
theorem test_R252_shifts :
    (hookRes (.hShl h .b 3 1 2) 1 8).1 = 0 ∧ (hookRes (.hSar h .b 3 1 2) 0x80 0xFF).1 = 0xFF ∧ (hookRes (.hSar h .b 3 1 2) 64 9).1 = 0 ∧
    (hookRes (.hSar h .b 3 1 2) 0x80 3).1 = 0xF0 ∧ (hookRes (.hRol h .b 3 1 2) 0x81 9).1 = 3 := by decide

/-- The table of R252 at 8 bits: saturating results. -/
theorem test_R252_saturating :
    (negI true true 8 0x80).1 = 127 ∧ (absI true true 8 0x80).1 = 127 ∧ (addI true true 8 127 1).1 = 127 ∧ (subI true true 8 0x80 1).1 = 0x80 ∧
    (mulI true true 8 0x80 0xFF).1 = 127 ∧ (divI true true 8 0x80 0xFF).1 = 127 ∧ (negI true false 8 1).1 = 0 ∧
    (addI true false 8 200 100).1 = 255 ∧ (subI true false 8 3 5).1 = 0 := by decide

/-- The examples of packed decimal after R257. -/
theorem test_R257_decimal :
    pdResult (pdVal 0x1234C - pdVal 0x5000C) = (0x3766D, true, false, false) ∧
    pdResult (pdVal 0x999999999999999C + pdVal 0x1C) = (0xC, false, true, true) ∧
    pdResult (pdVal 0xD + pdVal 0xD) = (0xC, false, true, false) := by decide

/-- The worked example of the chapter "Arithmetic": counts 4,093 and 4,095 in FP16 under RNE, RNA and RTZ, and the gain of 16. -/
theorem test_arithmetic_example :
    (cvtIF (wCtlF 0) .fp16 4093).1 = 0x6BFE ∧ (cvtIF (wCtlF 4) .fp16 4093).1 = 0x6BFF ∧ (cvtIF (wCtlF 1) .fp16 4093).1 = 0x6BFE ∧
    (cvtIF (wCtlF 0) .fp16 4095).1 = 0x6C00 ∧ (cvtIF (wCtlF 4) .fp16 4095).1 = 0x6C00 ∧ (cvtIF (wCtlF 1) .fp16 4095).1 = 0x6BFF ∧
    (mulF (wCtlF 0) .fp16 0x6C00 0x4C00) = (0x7C00, fOF + fNX) ∧ mulF (wCtlF 1) .fp16 0x6BFF 0x4C00 = (0x7BFF, 0) := by
  decide

/-- The line machine of R114: elements 0, 1, 63, 64 and 1,023 of the array, by slice and logical bank. -/
theorem test_R114_example :
    stBank 0x00400000 = 0 * 64 + 1 * 4 ∧ stBank 0x00410000 = 1 * 64 + 1 * 4 ∧ stBank 0x007F0000 = 63 * 64 + 1 * 4 ∧
    stBank 0x00800000 = 0 * 64 + 2 * 4 ∧ stBank 0x043F0000 = 63 * 64 + 0 * 4 := by decide

/-- The worked order after R118: at PRI = 140, ports 2, 139 and 144 write byte 0 of one word; port 139's byte lands. -/
theorem test_R118_example :
    (let r := fun (p d : Nat) => ({ wReq p true 0 with be := 1, data := BitVec.ofNat 128 d } : StReq)
     let s := wSt [r 2 1, r 139 2, r 144 3]
     let s := { s with stash := { s.stash with cycle := s.stash.cycle + (140 + 146 - s.stash.cycle % 146) % 146 } }
     (after (.bankGrant wBank 0 .clean .clean) s).peek (stashBase + 0x07FFFFF0)) = 2 := by decide

/-- Slot 8 of the worked example of the chapter "Stream instructions" decodes to its MARK. -/
theorem test_mark_example :
    (sDecode (0x00000A0009001678 + 0x001E848014004208 * 2 ^ 64)).map (fun i => (i.opc, i.ot, i.md, i.sa, i.sc)) = some (0x78, 6, 1, 9, 10) := by
  decide

/-- Thread 2 before the WOPEN of the worked example of the chapter "Exceptions". -/
def wExc : State := R.updTh 0 2 fun x =>
  { (x.setBank 3 { x.bankOf 3 with res := 5, wp := 2, wspc := capNull }).setBank 8 { x.bankOf 8 with c := [(15, capSetAddr capRoot 0x0203F000)] } with
    st := .running, stat := 3, active := [0, 3], pcap := capSetAddr capRoot 0x02004A10, vtab := capSetAddr capRoot 0x02000000 }

/-- WOPEN finds WSPC untagged: escalation SPILL, VEC 4, CODE 1; WP, RES and WSPC unchanged. -/
theorem test_wopen_example :
    (let x := (after (.hWopen ⟨0, 2, 4, false, 0⟩) wExc).th 0 2
     x.esc.map (fun e => (e.esc, e.vec, e.code, e.faddr)) = some (4, 4, 1, 0) ∧ x.bank.wp = 2 ∧ x.bank.res = 5 ∧ x.bank.wspc = capNull) := by decide

/-- The frame of that lifeline entry, at 0x0203_EFD0. -/
theorem test_lifeline_example :
    (let t := after (.lifelineEntry 0 2) (after (.hWopen ⟨0, 2, 4, false, 0⟩) wExc)
     let x := t.th 0 2
     x.lvl = 8 ∧ x.bank.elvl = 3 ∧ capAddr (x.bank.c.get 15 capNull) = 0x0203EFD0 ∧ capAddr x.pcap = 0x02000010 ∧
     x.sb.map (·.addr) = [0x0203EFD0, 0x0203EFE0, 0x0203EFF0] ∧
     x.sb.map (fun e => e.data.toNat) = [(capSetAddr capRoot 0x02004A10).bits.toNat, 3, 0x0000005200040104]) := by decide

end Sys2Proof.Tests
end

