-- ==== Sys2Proof/Proofs/Reset.lean ====
section
/-!
PROOFS. Sys2Proof/Proofs/Reset.lean: the state right after power-on: what its memory reads, and the obligation about it.
-/
namespace Sys2Proof.Machine

/-- DDR's top stands at its base after reset, so that no address is DDR (R129). -/
theorem State.reset_regionOf_ne_ddr (a : Nat) : State.reset.regionOf a ≠ .ddr := by
  have top : State.reset.ddrTop = ddrBase := by decide
  have empty : ¬(ddrBase ≤ a ∧ a < ddrBase) := by omega
  unfold State.regionOf
  rw [top, if_neg empty]
  repeat' split
  all_goals decide

/-- Outside the boot ROM every byte reads 0 after reset (R515): no cell is listed, and three empty copies have the majority 0. -/
theorem State.reset_peek {a : Nat} (h : State.reset.regionOf a ≠ .rom) : State.reset.peek a = 0 := by
  have voted : State.reset.voted = true := by decide
  have unlisted (x : Nat) : cellsGet State.reset.mem.cells x = 0 := rfl
  unfold State.peek
  cases e : State.reset.regionOf a with
  | rom => exact absurd e h
  | tcm => simp [voted, unlisted, majority]
  | ctrl | reserved | sram | stash | ddr => rfl

/-- Nothing is poisoned after reset: no mark is listed, no bank is dead, and there is no DDR. -/
theorem State.reset_poisoned (a n : Nat) : State.reset.poisoned a n = false := by
  have unmarked (l : List Nat) : (l.any fun _ => false) = false := by simp
  unfold State.poisoned
  cases e : State.reset.regionOf a with
  | ddr => exact absurd e (State.reset_regionOf_ne_ddr a)
  | rom | ctrl | reserved => rfl
  | tcm | sram | stash => exact unmarked _

/-- Settles O5: the reset state lists nothing, so every table answers its default; only memory's answer takes an argument. -/
theorem stateAfterReset : Obligations.StateAfterReset :=
  ⟨⟨fun _ => rfl, fun _ h => ⟨State.reset_peek h, fun _ => State.reset_poisoned _ _⟩, rfl, fun _ => rfl, fun _ => ⟨rfl, rfl⟩, rfl, rfl,
    rfl, rfl, rfl⟩, ⟨rfl, rfl⟩⟩

end Sys2Proof.Machine
end

