-- ==== Sys2Proof/Proofs/RegFields.lean ====
section
/-!
PROOFS. Sys2Proof/Proofs/RegFields.lean: the fields of a register word: no two share a bit, so a write or a clearing read acts on each
field alone (R8, R545).
-/
namespace Sys2Proof

/-! ### Bits of a number -/

theorem bitsOf_lt (v hi lo : Nat) : bitsOf v hi lo < 2 ^ (hi + 1 - lo) := Nat.mod_lt _ (Nat.two_pow_pos _)

theorem testBit_bitsOf (v hi lo n : Nat) : (bitsOf v hi lo).testBit n = (decide (n < hi + 1 - lo) && v.testBit (lo + n)) := by
  rw [bitsOf, Nat.testBit_mod_two_pow, Nat.testBit_shiftRight]

theorem bitsOf_mul_le (v hi lo : Nat) : bitsOf v hi lo * 2 ^ lo ≤ v := by
  unfold bitsOf
  rw [Nat.shiftRight_eq_div_pow]
  exact Nat.le_trans (Nat.mul_le_mul_right _ (Nat.mod_le _ _)) (Nat.div_mul_le_self v _)

/-- Putting a field's own bits changes nothing. -/
theorem putBits_bitsOf (v hi lo : Nat) : putBits v hi lo (bitsOf v hi lo) = v := by
  rw [putBits, Nat.mod_eq_of_lt (bitsOf_lt v hi lo), Nat.sub_add_cancel (bitsOf_mul_le v hi lo)]

/-- Clearing the bits written 1 of a field changes that field alone. -/
theorem sub_and_eq_putBits {v hi lo x : Nat} (h : x < 2 ^ (hi + 1 - lo)) :
    v - (v &&& x * 2 ^ lo) = putBits v hi lo (bitsOf v hi lo - (bitsOf v hi lo &&& x)) := by
  have clear : v &&& x * 2 ^ lo = (bitsOf v hi lo &&& x) * 2 ^ lo := by
    apply Nat.eq_of_testBit_eq
    intro n
    simp only [Nat.testBit_and, Nat.testBit_mul_two_pow, testBit_bitsOf]
    by_cases c : lo ≤ n
    · by_cases b : n - lo < hi + 1 - lo
      · simp [c, b, Nat.add_sub_cancel' c]
      · have := Nat.testBit_lt_two_pow (Nat.lt_of_lt_of_le h (Nat.pow_le_pow_right (by decide) (Nat.le_of_not_lt b)))
        simp [this]
    · simp [c]
  have le : bitsOf v hi lo &&& x ≤ bitsOf v hi lo := Nat.and_le_left
  have b := bitsOf_mul_le v hi lo
  have m := Nat.mul_le_mul_right (2 ^ lo) le
  rw [clear, putBits, Nat.mod_eq_of_lt (Nat.lt_of_le_of_lt (Nat.sub_le _ _) (bitsOf_lt v hi lo)), Nat.sub_mul]
  omega

theorem testBit_and_not (w : Word) (m : Nat) {n : Nat} (h : n < 32) :
    (w &&& ~~~BitVec.ofNat 32 m).toNat.testBit n = (w.toNat.testBit n && !m.testBit n) := by
  simp only [BitVec.testBit_toNat, BitVec.getLsbD_and, BitVec.getLsbD_not, BitVec.getLsbD_ofNat, h, decide_true, Bool.true_and]

theorem Machine.testBit_maskOf {hi lo : Nat} (h : lo ≤ hi) (n : Nat) : (maskOf hi lo).testBit n = (decide (lo ≤ n) && decide (n ≤ hi)) := by
  rw [maskOf, Nat.testBit_mul_two_pow, Nat.testBit_two_pow_sub_one]
  by_cases c : lo ≤ n
  · simp only [c, decide_true, Bool.true_and, decide_eq_decide]; omega
  · simp [c]

/-! ### The fields of a table -/

/-- A table's row lies in its word. -/
def Field.ok (f : Field) : Bool := decide (f.lo ≤ f.hi) && decide (f.hi < 32)

/-- Two rows of a table share no bit. -/
def Field.apart (f g : Field) : Bool := decide (f.hi < g.lo) || decide (g.hi < f.lo)

theorem Field.ok_iff {f : Field} : f.ok = true ↔ f.lo ≤ f.hi ∧ f.hi < 32 := by simp [Field.ok]

theorem Field.apart_iff {f g : Field} : f.apart g = true ↔ f.hi < g.lo ∨ g.hi < f.lo := by simp [Field.apart]

theorem Field.apart_comm {f g : Field} (h : f.apart g = true) : g.apart f = true := Field.apart_iff.2 (Field.apart_iff.1 h).symm

/-- Any two different fields of fields that are apart share no bit. -/
theorem Field.apart_of_pairwise {l : List Field} (p : l.Pairwise fun f g => f.apart g = true) {f g : Field} (hf : f ∈ l) (hg : g ∈ l)
    (ne : f ≠ g) : f.apart g = true := by
  induction p with
  | nil => cases hf
  | cons first _ ih =>
    rcases List.mem_cons.1 hf with rfl | mf <;> rcases List.mem_cons.1 hg with rfl | mg
    · exact absurd rfl ne
    · exact first _ mg
    · exact Field.apart_comm (first _ mf)
    · exact ih mf mg

theorem tables_fields : ∀ k ∈ RegKind.all,
    k.info.fields.all Field.ok = true ∧ k.info.fields.Pairwise fun f g => f.apart g = true := by decide +kernel

theorem RegKind.field_ok {k : RegKind} {f : Field} (h : f ∈ k.info.fields) : f.lo ≤ f.hi ∧ f.hi < 32 :=
  Field.ok_iff.1 (List.all_eq_true.1 (tables_fields k (RegKind.mem_all k)).1 f h)

theorem RegKind.fields_apart (k : RegKind) : k.info.fields.Pairwise fun f g => f.apart g = true :=
  (tables_fields k (RegKind.mem_all k)).2

/-! ### Replacing fields one after the other -/

/-- A word whose fields are replaced one after the other, each by a function of its own bits. -/
def putFields (g : Field → Nat → Nat) (l : List Field) (w : Nat) : Nat :=
  l.foldl (fun w f => putBits w f.hi f.lo (g f (bitsOf w f.hi f.lo))) w

theorem putFields_lt {g : Field → Nat → Nat} {l : List Field} (ok : ∀ f ∈ l, f.lo ≤ f.hi ∧ f.hi < 32) {w : Nat} (h : w < 2 ^ 32) :
    putFields g l w < 2 ^ 32 := by
  induction l generalizing w with
  | nil => exact h
  | cons f l ih =>
    obtain ⟨le, lt⟩ := ok f List.mem_cons_self
    exact ih (fun f' m => ok f' (List.mem_cons_of_mem _ m)) (putBits_lt le lt h _)

theorem bitsOf_putBits_apart {f e : Field} (le : e.lo ≤ e.hi) (h : e.apart f = true) (v x : Nat) :
    bitsOf (putBits v e.hi e.lo x) f.hi f.lo = bitsOf v f.hi f.lo :=
  (Field.apart_iff.1 h).elim (fun d => bitsOf_putBits_above le d v x) (fun d => bitsOf_putBits_below le d v x)

/-- A field apart from all that are replaced stands. -/
theorem bitsOf_putFields_apart {g : Field → Nat → Nat} {l : List Field} (ok : ∀ f ∈ l, f.lo ≤ f.hi ∧ f.hi < 32) {f : Field}
    (h : ∀ e ∈ l, e.apart f = true) (w : Nat) : bitsOf (putFields g l w) f.hi f.lo = bitsOf w f.hi f.lo := by
  induction l generalizing w with
  | nil => rfl
  | cons e l ih =>
    exact (ih (fun e' m => ok e' (List.mem_cons_of_mem _ m)) (fun e' m => h e' (List.mem_cons_of_mem _ m)) _).trans
      (bitsOf_putBits_apart (ok e List.mem_cons_self).1 (h e List.mem_cons_self) _ _)

/-- Each field of fields that are apart ends as its function gives it. -/
theorem bitsOf_putFields {g : Field → Nat → Nat} {l : List Field} (ok : ∀ f ∈ l, f.lo ≤ f.hi ∧ f.hi < 32)
    (apart : l.Pairwise fun f e => f.apart e = true) {f : Field} (h : f ∈ l) (w : Nat) :
    bitsOf (putFields g l w) f.hi f.lo = g f (bitsOf w f.hi f.lo) % 2 ^ (f.hi + 1 - f.lo) := by
  induction l generalizing w with
  | nil => cases h
  | cons e l ih =>
    obtain ⟨first, rest⟩ := List.pairwise_cons.1 apart
    have okl : ∀ f ∈ l, f.lo ≤ f.hi ∧ f.hi < 32 := fun f m => ok f (List.mem_cons_of_mem _ m)
    have le := (ok e List.mem_cons_self).1
    rcases List.mem_cons.1 h with rfl | m
    · exact (bitsOf_putFields_apart okl (fun e m => Field.apart_comm (first e m)) _).trans (bitsOf_putBits_same le _ _)
    · have := ih okl rest m (putBits w e.hi e.lo (g e (bitsOf w e.hi e.lo)))
      rwa [bitsOf_putBits_apart le (first f m)] at this

namespace Machine

/-! ### A write's effect on one field -/

/-- What a write of `x` leaves in a field that held `old` (R8, R545). -/
def State.newBits (s : State) (who : Who) (r : Reg) (f : Field) (x old : Nat) : Nat :=
  match f.acc with
  | .rw => if f.rlo ≤ x ∧ x ≤ f.rhi ∧ !f.bad.contains x ∧ s.wcond who r x f.cond then x else old
  | .w1c => old - (old &&& x)
  | _ => old

theorem State.newBits_lt (s : State) (who : Who) (r : Reg) (f : Field) {x old w : Nat} (hx : x < w) (ho : old < w) :
    s.newBits who r f x old < w := by
  unfold State.newBits
  split
  · split <;> assumption
  · omega
  · exact ho

theorem State.putField_eq (s : State) (who : Who) (r : Reg) (v old : Nat) (f : Field) :
    s.putField who r v old f = putBits old f.hi f.lo (s.newBits who r f (bitsOf v f.hi f.lo) (bitsOf old f.hi f.lo)) := by
  unfold State.putField State.newBits
  cases f.acc with
  | rw =>
    dsimp only
    split
    · rfl
    · exact (putBits_bitsOf ..).symm
  | w1c => exact sub_and_eq_putBits (bitsOf_lt ..)
  | r | w | rsc | res => exact (putBits_bitsOf ..).symm

theorem State.putWord_eq (s : State) (who : Who) (r : Reg) (v : Word) :
    s.putWord who r v =
      BitVec.ofNat 32 (putFields (fun f => s.newBits who r f (bitsOf v.toNat f.hi f.lo)) r.kind.info.fields (s.reg r).toNat) := by
  unfold State.putWord putFields
  simp only [State.putField_eq]

/-- A write acts on each field of its register alone. -/
theorem State.bitsOf_putWord (s : State) (who : Who) (r : Reg) (v : Word) {f : Field} (h : f ∈ r.kind.info.fields) :
    bitsOf (s.putWord who r v).toNat f.hi f.lo =
      s.newBits who r f (bitsOf v.toNat f.hi f.lo) (bitsOf (s.reg r).toNat f.hi f.lo) := by
  have ok : ∀ f ∈ r.kind.info.fields, f.lo ≤ f.hi ∧ f.hi < 32 := fun _ => RegKind.field_ok
  rw [State.putWord_eq, BitVec.toNat_ofNat, Nat.mod_eq_of_lt (putFields_lt ok (BitVec.isLt _)),
    bitsOf_putFields ok (RegKind.fields_apart _) h, Nat.mod_eq_of_lt (s.newBits_lt _ _ _ (bitsOf_lt ..) (bitsOf_lt ..))]

/-! ### What a clearing read leaves -/

/-- The bits of a register that a read clears. -/
def rscMask (k : RegKind) : Nat := k.info.fields.foldl (fun m f => if f.acc = .rsc then m ||| maskOf f.hi f.lo else m) 0

theorem testBit_rscMask (k : RegKind) (n : Nat) :
    (rscMask k).testBit n = k.info.fields.any fun f => decide (f.acc = .rsc) && (decide (f.lo ≤ n) && decide (n ≤ f.hi)) := by
  have key : ∀ (l : List Field) (m : Nat), (∀ f ∈ l, f.lo ≤ f.hi) →
      (l.foldl (fun m f => if f.acc = .rsc then m ||| maskOf f.hi f.lo else m) m).testBit n =
        (m.testBit n || l.any fun f => decide (f.acc = .rsc) && (decide (f.lo ≤ n) && decide (n ≤ f.hi))) := by
    intro l
    induction l with
    | nil => simp
    | cons f l ih =>
      intro m ok
      rw [List.foldl_cons, ih _ fun f' h => ok f' (List.mem_cons_of_mem _ h), List.any_cons, ← Bool.or_assoc]
      by_cases c : f.acc = .rsc
      · simp [c, testBit_maskOf (ok f List.mem_cons_self)]
      · simp [c]
  simpa [rscMask] using key k.info.fields 0 fun f h => (RegKind.field_ok h).1

/-- A bit of a field is cleared if the field is: no other field holds it. -/
theorem testBit_rscMask_of_mem {k : RegKind} {f : Field} (h : f ∈ k.info.fields) {n : Nat} (lo : f.lo ≤ n) (hi : n ≤ f.hi) :
    (rscMask k).testBit n = decide (f.acc = .rsc) := by
  rw [testBit_rscMask, Bool.eq_iff_iff, List.any_eq_true, decide_eq_true_eq]
  constructor
  · rintro ⟨e, m, c⟩
    simp only [Bool.and_eq_true, decide_eq_true_eq] at c
    obtain ⟨acc, elo, ehi⟩ := c
    by_cases q : e = f
    · exact q ▸ acc
    · have := Field.apart_iff.1 (Field.apart_of_pairwise (RegKind.fields_apart k) m h q)
      omega
  · exact fun acc => ⟨f, h, by simp [acc, lo, hi]⟩

/-- The read leaves the register's word without those bits. -/
theorem State.reg_clearRsc (s : State) (r : Reg) : (s.clearRsc r).reg r = s.reg r &&& ~~~ BitVec.ofNat 32 (rscMask r.kind) := by
  unfold State.clearRsc
  change (if rscMask r.kind = 0 then s else _).reg r = _
  split
  · rename_i z
    rw [z, BitVec.not_zero, BitVec.and_allOnes]
  · exact State.reg_setReg ..

theorem State.reg_clearRsc_other (s : State) {r q : Reg} (h : q ≠ r) : (s.clearRsc r).reg q = s.reg q := by
  unfold State.clearRsc
  dsimp only
  split
  · rfl
  · exact State.reg_setReg_other _ _ h.symm

@[simp] theorem State.clearRsc_mem (s : State) (r : Reg) : (s.clearRsc r).mem = s.mem := by
  unfold State.clearRsc
  dsimp only
  split <;> rfl

/-- A register without a clearing field stands. -/
theorem State.clearRsc_none (s : State) {r : Reg} (h : (r.kind.info.fields.any fun f => f.acc == .rsc) = false) : s.clearRsc r = s := by
  have z : rscMask r.kind = 0 := by
    apply Nat.eq_of_testBit_eq
    intro n
    rw [testBit_rscMask, Nat.zero_testBit, List.any_eq_false]
    intro f m c
    simp only [Bool.and_eq_true, decide_eq_true_eq] at c
    exact List.any_eq_false.1 h f m (beq_iff_eq.2 c.1)
  exact if_pos z

/-- A clearing field reads 0 after the read, every other field as before. -/
theorem State.fld_clearRsc (s : State) (r : Reg) {f : Field} (h : f ∈ r.kind.info.fields) :
    (s.clearRsc r).fld ⟨r.kind, f.hi, f.lo⟩ r.i r.j = if f.acc = .rsc then 0 else s.fld ⟨r.kind, f.hi, f.lo⟩ r.i r.j := by
  obtain ⟨le, lt⟩ := RegKind.field_ok h
  unfold State.fld
  rw [State.reg_clearRsc]
  apply Nat.eq_of_testBit_eq
  intro n
  rw [testBit_bitsOf]
  by_cases c : n < f.hi + 1 - f.lo
  · have m := testBit_rscMask_of_mem h (Nat.le_add_right f.lo n) (by omega)
    have b : f.lo + n < 32 := by omega
    rw [testBit_and_not _ _ b, m]
    by_cases acc : f.acc = .rsc
    · simp [acc]
    · simp [acc, testBit_bitsOf, c]
  · by_cases acc : f.acc = .rsc
    · simp [acc, c]
    · simp [acc, c, testBit_bitsOf]

end Machine
end Sys2Proof
end

