-- ==== Sys2Proof/Proofs/RegAccess.lean ====
section
/-!
PROOFS. Sys2Proof/Proofs/RegAccess.lean: plain register writes, the two halves of a pair, and clearing reads (R8, R545, R547).
-/
namespace Sys2Proof

theorem RegKind.hiOf_eq_none {k l : RegKind} (h : k.loOf = some l) : k.hiOf = none := by
  cases k <;> cases h <;> rfl

namespace Machine
open Sys2Proof.Claims

/-! ### Writes -/

theorem State.writeBy_eq_writeTo (s : State) (who : Who) (k : RegKind) (i j : Nat) (v : Word) :
    s.writeBy who (Reg.addr ⟨k, i, j⟩) v = s.writeTo who k i j v.toNat := by
  simp [State.writeTo]

theorem State.reaches_ofNat {s : State} {who : Who} {r : Reg} {v : Word} (h : s.reaches who r v = true) :
    s.reaches who r (BitVec.ofNat 32 v.toNat) = true := by
  rwa [BitVec.ofNat_toNat, BitVec.setWidth_eq]

/-! The laws `writeTo_store`, `writeTo_act` and `writeTo_pair`, for a word. -/

theorem State.writeTo_word_store {s : State} {who : Who} {k : RegKind} {i j : Nat} {v : Word} (h : s.reaches who ⟨k, i, j⟩ v = true) :
    s.writeTo who k i j v.toNat = s.storeReg who ⟨k, i, j⟩ v := by
  rw [State.writeTo_store (State.reaches_ofNat h), BitVec.ofNat_toNat, BitVec.setWidth_eq]

theorem State.writeTo_word_act {s : State} {who : Who} {k : RegKind} {i j : Nat} {v : Word} (h : s.reaches who ⟨k, i, j⟩ v = true)
    (h1 : k.hiOf = none) (h2 : k.loOf = none) : s.writeTo who k i j v.toNat = s.act who ⟨k, i, j⟩ v := by
  rw [State.writeTo_act (State.reaches_ofNat h) h1 h2, BitVec.ofNat_toNat, BitVec.setWidth_eq]

theorem State.writeTo_word_pair {s : State} {who : Who} {k l : RegKind} {i j : Nat} {v : Word}
    (h : s.reaches who ⟨k, i, j⟩ v = true) (lo : k.loOf = some l) (any : (k.info.fields.any fun f => f.acc != .r) = true) :
    s.writeTo who k i j v.toNat = s.loadPair who ⟨l, i, j⟩ ⟨k, i, j⟩ v := by
  rw [State.writeTo_pair (State.reaches_ofNat h) (RegKind.hiOf_eq_none lo) lo any, BitVec.ofNat_toNat, BitVec.setWidth_eq]

theorem exec_registerWrite (who : Who) (a : Nat) (v : Word) (s : State) :
    exec (.registerWrite who a v) s = .next (s.writeBy who a v) := rfl

theorem State.reaches_ok {s : State} {who : Who} {r : Reg} {v : Word} (h : s.reaches who r v = true) : r.ok = true := by
  simp only [State.reaches, Bool.and_eq_true] at h
  obtain ⟨⟨⟨ok, _⟩, _⟩, _⟩ := h
  exact ok

theorem addrHas_addr {r : Reg} (h : r.ok = true) (p : Reg → Bool) : addrHas r.addr p = p r := by
  simp [addrHas, Reg.ofAddr_addr h]

/-! A register that acts on no write of its own stores its fields, whichever block it belongs to. -/

theorem State.actWeb_plain (s : State) (who : Who) {r : Reg} (v : Word) (h : r.kind ∉ actingKinds) :
    s.actWeb who r v = s.putReg who r v := by
  unfold State.actWeb
  split
  case h_6 => rfl
  all_goals rename_i e; exact absurd (by rw [e]; decide) h

theorem State.actIngest_plain (s : State) (who : Who) {r : Reg} (v : Word) (h : r.kind ∉ actingKinds) :
    s.actIngest who r v = s.putReg who r v := by
  unfold State.actIngest
  split
  case h_4 => rfl
  all_goals rename_i e; exact absurd (by rw [e]; decide) h

theorem State.actPly_plain (s : State) (who : Who) {r : Reg} (v : Word) (h : r.kind ∉ actingKinds) :
    s.actPly who r v = s.putReg who r v := by
  unfold State.actPly
  split
  case h_9 => rfl
  all_goals rename_i e; exact absurd (by rw [e]; decide) h

theorem State.actHook_plain (s : State) (who : Who) {r : Reg} (v : Word) (h : r.kind ∉ actingKinds) :
    s.actHook who r v = s.putReg who r v := by
  unfold State.actHook
  split
  case h_6 => rfl
  all_goals rename_i e; exact absurd (by rw [e]; decide) h

theorem State.actSys_plain (s : State) (who : Who) {r : Reg} (v : Word) (h : r.kind ∉ actingKinds) :
    s.actSys who r v = s.putReg who r v := by
  unfold State.actSys
  split
  case h_12 => rfl
  all_goals rename_i e; exact absurd (by rw [e]; decide) h

theorem State.act_plain (s : State) (who : Who) {r : Reg} (v : Word) (h : r.kind ∉ actingKinds) : s.act who r v = s.putReg who r v := by
  unfold State.act
  split
  · exact s.actWeb_plain who v h
  · exact s.actIngest_plain who v h
  · exact s.actPly_plain who v h
  · exact s.actPly_plain who v h
  · exact s.actHook_plain who v h
  · exact s.actHook_plain who v h
  · exact s.actSys_plain who v h

/-- R545: REGISTER_WRITE of a register that acts on no write and is no half of a pair replaces that register's word alone. -/
theorem registerWrite_putWord {s : State} {who : Who} {r : Reg} {v : Word} (h : s.reaches who r v = true) (h1 : r.kind.hiOf = none)
    (h2 : r.kind.loOf = none) (plain : r.kind ∉ actingKinds) :
    exec (.registerWrite who r.addr v) s = .next (s.setReg r (s.putWord who r v)) := by
  rw [exec_registerWrite, State.writeBy_eq_writeTo, State.writeTo_word_act h h1 h2, State.act_plain _ _ _ plain]
  rfl

theorem registerWrite : RegisterWrite := by
  intro s who r v reach h1 h2 plain
  refine ⟨s.putWord who r v, registerWrite_putWord reach h1 h2 plain, fun f m => ?_⟩
  dsimp only
  rw [State.bitsOf_putWord s who r v m]
  generalize bitsOf v.toNat f.hi f.lo = x
  generalize bitsOf (s.reg r).toNat f.hi f.lo = old
  unfold State.newBits
  refine ⟨fun acc lo hi bad cond => ?_, fun acc out => ?_, fun acc => ?_, fun acc => ?_⟩
  · simp [acc, lo, hi, bad, cond]
  · rw [acc]
    refine if_neg ?_
    rintro ⟨lo, hi, bad, cond⟩
    rcases out with o | o | o | o
    · omega
    · omega
    · simp [o] at bad
    · simp [o] at cond
  · rw [acc]
  · rcases acc with acc | acc | acc | acc <;> rw [acc]

/-- R547: a write of LO is held. -/
theorem State.writeBy_lo {s : State} {who : Who} {k h : RegKind} {i j : Nat} {v : Word} (reach : s.reaches who ⟨k, i, j⟩ v = true)
    (hi : k.hiOf = some h) (any : (k.info.fields.any fun f => f.acc != .r) = true) :
    s.writeBy who (Reg.addr ⟨k, i, j⟩) v = { s with held := s.held.set ⟨h, i, j⟩ v } := by
  rw [State.writeBy_eq_writeTo, State.writeTo_word_store reach]
  simp only [State.reaches, Bool.and_eq_true, Bool.not_eq_true', Bool.and_eq_false_iff, decide_eq_false_iff_not] at reach
  obtain ⟨⟨⟨_, live⟩, own⟩, _⟩ := reach
  unfold State.storeReg
  simp only [live, hi, any, Bool.false_eq_true, if_false, if_true]
  refine if_neg fun ⟨blk, voted, pos⟩ => ?_
  rcases own with (a | a) | a
  · exact a blk
  · exact absurd (a.symm.trans voted) (by decide)
  · exact a pos

/-- R547: the write of HI of a pair without an action loads both halves. -/
theorem State.loadPair_plain (s : State) (who : Who) {lo hi : Reg} (v : Word)
    (h : hi.kind ∉ [.TBS_SET_HI, .TIO_CH_ROW_HI, .CXP_CH_REL_HI, .TIO_CH_OFFSET_HI]) :
    s.loadPair who lo hi v =
      (({ s with held := s.held.del hi }).putReg who lo (s.held.get hi (s.reg lo))).putReg who hi v := by
  unfold State.loadPair
  dsimp only
  split
  case h_5 => rfl
  all_goals rename_i e; exact absurd (by rw [e]; decide) h

/-! ### Reads -/

theorem exec_pairLoRead {who : Who} {r : Reg} {s : State} (ok : r.ok = true) {h : RegKind} (hi : r.kind.hiOf = some h) :
    exec (.pairLoRead who r.addr) s = .next (s.readBy who r.addr) := by
  change Host.Outcome.next (State.when _ _ s) = _
  rw [addrHas_addr ok, hi]
  rfl

/-- A read pops no queue unless its register is a queue's head. -/
theorem State.popBy_lo (s : State) {r : Reg} {h : RegKind} (hi : r.kind.hiOf = some h) : s.popBy r = s := by
  unfold State.popBy
  split
  case h_6 => rfl
  all_goals rename_i e; rw [e] at hi; cases hi

theorem State.popBy_rsc (s : State) {r : Reg} (h : (r.kind.info.fields.any fun f => f.acc == .rsc) = true) : s.popBy r = s := by
  unfold State.popBy
  split
  case h_6 => rfl
  all_goals rename_i e; rw [e] at h; exact absurd h (by decide)

/-- The value of a read: what was latched, else what the register shows (R547). -/
def State.shown (s : State) (who : Who) (r : Reg) : Word :=
  match s.latched.find? fun e => decide (e.1 = r) with
  | some e => e.2
  | none => s.readReg who r

theorem State.loadReg_fst (s : State) (who : Who) {r : Reg} (own : s.aliased r = r) : (s.loadReg who r).1 = s.shown who r := by
  have e : (s.loadReg who r).1 = s.shown who (s.aliased r) := rfl
  rw [e, own]

/-- R547: reading LO latches HI and does nothing else. -/
theorem State.loadReg_lo (s : State) (who : Who) {r : Reg} {h : RegKind} (own : s.aliased r = r) (hi : r.kind.hiOf = some h)
    (keep : (r.kind.info.fields.any fun f => f.acc == .rsc) = false) :
    (s.loadReg who r).2 = { s with latched := s.latched.set { r with kind := h } (s.readReg who { r with kind := h }) } := by
  unfold State.loadReg
  rw [own]
  dsimp only
  rw [State.clearRsc_none _ keep, State.popBy_lo _ hi, hi]

/-- A clearing read changes, of registers and memory, its own register alone. -/
theorem State.loadReg_rsc (s : State) (who : Who) {r : Reg} (own : s.aliased r = r)
    (clears : (r.kind.info.fields.any fun f => f.acc == .rsc) = true) :
    ∃ u : State, u.regs = s.regs ∧ u.mem = s.mem ∧ (s.loadReg who r).2 = u.clearRsc r := by
  unfold State.loadReg
  rw [own]
  dsimp only
  rw [State.popBy_rsc _ clears]
  refine ⟨_, ?_, ?_, rfl⟩
  · split <;> rfl
  · split <;> rfl

/-! ### What firmware takes of a counter before the read clears it (R461) -/

theorem State.foldl_count (l : List (Nat × Fld)) (r : Reg) (s : State) :
    (l.foldl (fun s e => s.count e.1 (s.fld e.2 r.i r.j)) s).regs = s.regs ∧
    (l.foldl (fun s e => s.count e.1 (s.fld e.2 r.i r.j)) s).mem = s.mem := by
  induction l generalizing s with
  | nil => exact ⟨rfl, rfl⟩
  | cons e l ih => exact ih _

theorem State.takeAt_keeps (s : State) (who : Who) (a : Nat) : (s.takeAt who a).regs = s.regs ∧ (s.takeAt who a).mem = s.mem := by
  unfold State.takeAt
  split
  · rename_i r _
    unfold State.takeCounts
    dsimp only
    split
    · exact State.foldl_count _ r s
    · exact State.foldl_count _ r s
  · exact ⟨rfl, rfl⟩

/-- Taking counts stands in no read's way: it happens on firmware's reads alone, which no one refuses. -/
theorem State.readsOut_takeAt (s : State) (who : Who) (a : Nat) (r : Reg) : (s.takeAt who a).readsOut who r = s.readsOut who r := by
  cases who <;> rfl

theorem State.reg_congr {s t : State} (h : s.regs = t.regs) (r : Reg) : s.reg r = t.reg r := by
  unfold State.reg; rw [h]

theorem State.fld_congr {s t : State} (h : s.regs = t.regs) (f : Fld) (i j : Nat) : s.fld f i j = t.fld f i j := by
  unfold State.fld; rw [State.reg_congr h]

theorem State.aliased_congr {s t : State} (h : s.regs = t.regs) (r : Reg) : s.aliased r = t.aliased r := by
  unfold State.aliased State.voted; rw [State.fld_congr h]

theorem exec_rscRead {who : Who} {r : Reg} {s : State} (ok : r.ok = true)
    (clears : (r.kind.info.fields.any fun f => f.acc == .rsc) = true) :
    exec (.rscRead who r.addr) s = .next ((s.takeAt who r.addr).readBy who r.addr) := by
  change Host.Outcome.next (State.when _ _ s) = _
  rw [addrHas_addr ok, clears]
  rfl

theorem State.readsOut_ok {s : State} {who : Who} {r : Reg} (h : s.readsOut who r = true) : r.ok = true := by
  simp only [State.readsOut, Bool.and_eq_true] at h
  exact h.1

/-- Registers and memory after a read by address are those after the read of the register. -/
theorem State.readBy_load {s : State} {who : Who} {r : Reg} (h : s.readsOut who r = true) :
    (s.readBy who r.addr).regs = (s.loadReg who r).2.regs ∧ (s.readBy who r.addr).mem = (s.loadReg who r).2.mem := by
  have e : s.readBy who r.addr = _ := State.readFrom_load h
  rw [e]
  exact ⟨rfl, rfl⟩

/-- RSC_READ clears its register's clearing fields (R8); a record of what was read and firmware's own counts stand beside. -/
theorem rscRead_clears {s : State} {who : Who} {r : Reg} (reads : s.readsOut who r = true) (own : s.aliased r = r)
    (clears : (r.kind.info.fields.any fun f => f.acc == .rsc) = true) :
    ∃ u t : State, exec (.rscRead who r.addr) s = .next t ∧ u.regs = s.regs ∧ u.mem = s.mem ∧ t.regs = (u.clearRsc r).regs ∧
      t.mem = u.mem := by
  obtain ⟨regs, mem⟩ := s.takeAt_keeps who r.addr
  obtain ⟨u, uregs, umem, load⟩ :=
    (s.takeAt who r.addr).loadReg_rsc who ((State.aliased_congr regs r).trans own) clears
  obtain ⟨rregs, rmem⟩ := State.readBy_load ((s.readsOut_takeAt who r.addr r).trans reads)
  refine ⟨u, _, exec_rscRead (State.readsOut_ok reads) clears, uregs.trans regs, umem.trans mem, ?_, ?_⟩
  · rw [rregs, load]
  · rw [rmem, load, State.clearRsc_mem]

/-! ### The obligation -/

theorem exec_pairHiWrite {who : Who} {r : Reg} {v : Word} {s : State} (ok : r.ok = true) {l : RegKind} (lo : r.kind.loOf = some l) :
    exec (.pairHiWrite who r.addr v) s = .next (s.writeBy who r.addr v) := by
  change Host.Outcome.next (State.when _ _ s) = _
  rw [addrHas_addr ok, lo]
  rfl

theorem pairsAndClearingReads : PairsAndClearingReads := by
  refine ⟨fun s who k l i j v lo hi => ⟨fun _ any reach => ?_, fun any plain reach => ?_, fun reads own keep => ?_,
    fun x reads own latched => ?_⟩, fun s who r reads own clears => ?_⟩
  · rw [exec_registerWrite, State.writeBy_lo reach hi any]
  · rw [exec_pairHiWrite (State.reaches_ok reach) lo, State.writeBy_eq_writeTo, State.writeTo_word_pair reach lo any,
      State.loadPair_plain _ _ _ plain]
  · rw [exec_pairLoRead (State.readsOut_ok reads) hi]
    have load := State.readFrom_load reads
    rw [State.loadReg_fst _ _ own, State.loadReg_lo _ _ own hi keep] at load
    refine (congrArg Host.Outcome.next load).trans ?_
    cases e : s.latched.find? fun e => decide (e.1 = ⟨l, i, j⟩) with
    | some x => simp only [State.shown, e]
    | none => simp only [State.shown, e]
  · rw [State.readFrom_load reads, State.loadReg_fst _ _ own, State.shown, latched]
  · obtain ⟨u, t, run, uregs, umem, tregs, tmem⟩ := rscRead_clears reads own clears
    refine ⟨t, run, fun f m acc => ?_, fun f m acc => ?_, fun q ne => ?_, tmem.trans umem⟩
    · rw [State.fld_congr tregs, State.fld_clearRsc _ _ m, if_pos acc]
    · rw [State.fld_congr tregs, State.fld_clearRsc _ _ m, if_neg acc, State.fld_congr uregs]
    · rw [State.reg_congr tregs, State.reg_clearRsc_other _ ne, State.reg_congr uregs]

/-- Settles O7: `registerWrite_putWord` with what a write does to each field, and the rules of pairs and clearing reads. -/
theorem registerWritesAndPairs : Obligations.RegisterWritesAndPairs := ⟨registerWrite, pairsAndClearingReads⟩

end Machine
end Sys2Proof
end

