-- ==== Sys2Proof/Proofs/IngestFrames.lean ====
section
/-!
PROOFS. Sys2Proof/Proofs/IngestFrames.lean: what stores, markers, release rows and dropped courses leave alone: registers, and the
ingest of a channel (R89, R91, R99, R101).
-/
namespace Sys2Proof.Machine

theorem Reg.ne_of_kind {k l : RegKind} {i j i' j' : Nat} (h : k ≠ l) : (⟨k, i, j⟩ : Reg) ≠ ⟨l, i', j'⟩ := fun e =>
  h (congrArg Reg.kind e)

/-! ### Stores -/

@[simp] theorem State.poke_regs (s : State) (a : Nat) (bs : List Byte) : (s.poke a bs).regs = s.regs := by
  unfold State.poke
  dsimp only
  repeat' split
  all_goals rfl

@[simp] theorem State.poke_ing (s : State) (a : Nat) (bs : List Byte) : (s.poke a bs).ing = s.ing := by
  unfold State.poke
  dsimp only
  repeat' split
  all_goals rfl

/-- From `s` to `t`, ingest and every register but the counts of discarded DDR lines stand. -/
def StoreKeeps (s t : State) : Prop := t.ing = s.ing ∧ ∀ r : Reg, r.kind ≠ .DDR_CH_CNT → t.reg r = s.reg r

theorem StoreKeeps.poke (s : State) (a : Nat) (bs : List Byte) : StoreKeeps s (s.poke a bs) :=
  ⟨s.poke_ing a bs, fun r _ => by simp [State.reg]⟩

theorem StoreKeeps.trans {s t u : State} (h : StoreKeeps s t) (k : StoreKeeps t u) : StoreKeeps s u :=
  ⟨k.1.trans h.1, fun r n => (k.2 r n).trans (h.2 r n)⟩

theorem StoreKeeps.store (s : State) (a : Nat) (bs : List Byte) : StoreKeeps s (s.store a bs) := by
  unfold State.store State.storeBy
  dsimp only
  split
  · refine List.foldlRecOn (motive := StoreKeeps s) _ _ ⟨rfl, fun _ _ => rfl⟩ fun t h x _ => h.trans ?_
    split
    · exact ⟨rfl, fun r n => State.reg_setFld_other _ fun e => n (e ▸ rfl)⟩
    · exact StoreKeeps.poke ..
  · exact StoreKeeps.poke ..
  · exact StoreKeeps.poke ..
  · exact StoreKeeps.poke ..
  · exact ⟨rfl, fun _ _ => rfl⟩

theorem State.reg_writeMarker (s : State) (n : Nat) (m : Marker) (bit cause wales ok bad : Nat) {r : Reg} (h : r.kind ≠ .DDR_CH_CNT) :
    (s.writeMarker n m bit cause wales ok bad).reg r = s.reg r := (StoreKeeps.store ..).2 r h

@[simp] theorem State.writeMarker_ing (s : State) (n : Nat) (m : Marker) (bit cause wales ok bad : Nat) :
    (s.writeMarker n m bit cause wales ok bad).ing = s.ing := (StoreKeeps.store ..).1

theorem State.ich_congr {s t : State} (h : s.ing = t.ing) (n : Nat) : s.ich n = t.ich n := by
  unfold State.ich; rw [h]

/-! ### Release rows (R91, R101) -/

theorem State.reg_flushWaiting (s : State) (n : Nat) {r : Reg} (h : r.kind ≠ .DDR_CH_CNT) : (s.flushWaiting n).reg r = s.reg r :=
  List.foldlRecOn (motive := fun t : State => t.reg r = s.reg r) _ _ rfl fun _ e _ _ => (State.reg_writeMarker _ _ _ _ _ _ _ _ h).trans e

theorem State.ich_flushWaiting_other (s : State) {n m : Nat} (h : m ≠ n) : (s.flushWaiting m).ich n = s.ich n :=
  List.foldlRecOn (motive := fun t : State => t.ich n = s.ich n) _ _ (State.ich_setIch_other _ _ h) fun _ e _ _ =>
    (State.ich_congr (State.writeMarker_ing ..) n).trans e

/-- A release row that rises shows its new value. -/
theorem State.relRow_raiseRel (s : State) {n k row : Nat} (rises : s.relRow n k < row) (fits : row < 2 ^ 64) :
    (s.raiseRel n k row).relRow n k = row := by
  have lo : F.CXP_CH_REL_LO.ok = true := rfl
  have hi : F.CXP_CH_REL_HI.ok = true := rfl
  have apart : F.CXP_CH_REL_HI.apart F.CXP_CH_REL_LO = true := rfl
  have flushed (s : State) (f : Fld) (i j : Nat) (h : f.k ≠ .DDR_CH_CNT) : (s.flushWaiting n).fld f i j = s.fld f i j := by
    unfold State.fld; rw [State.reg_flushWaiting _ _ h]
  unfold State.raiseRel
  rw [if_neg (Nat.not_le.2 rises), State.relRow, State.pair, flushed _ _ _ _ (by decide), flushed _ _ _ _ (by decide), State.setPair,
    State.fld_setFld_apart _ hi apart, State.fld_setFld _ _ _ _ _ lo, State.fld_setFld _ _ _ _ _ hi]
  simp only [F.CXP_CH_REL_LO, F.CXP_CH_REL_HI]
  omega

theorem State.reg_raiseRel (s : State) (n k row : Nat) {r : Reg} (h : r.kind = .CXP_CH_CONS) : (s.raiseRel n k row).reg r = s.reg r := by
  unfold State.raiseRel
  split
  · rfl
  · rw [State.reg_flushWaiting _ _ (by simp [h]), State.setPair, State.reg_setFld_other, State.reg_setFld_other]
    · rintro rfl; cases h
    · rintro rfl; cases h

theorem State.ich_raiseRel_other (s : State) {n m : Nat} (h : m ≠ n) (k row : Nat) : (s.raiseRel m k row).ich n = s.ich n := by
  unfold State.raiseRel
  split
  · rfl
  · exact State.ich_flushWaiting_other _ h

/-! ### Consumers -/

theorem State.consumers_congr {s t : State} {n : Nat} (h : s.consBits n = t.consBits n) : s.consumers n = t.consumers n := by
  unfold State.consumers State.consEn; rw [h]

/-- A channel without consumers has no ply-queue consumer. -/
theorem State.consPly_none {s : State} {n k : Nat} (h : s.consumers n = []) (lt : k < 4) : s.consPly n k = false := by
  have := List.filter_eq_nil_iff.1 h k (List.mem_range.2 lt)
  simp only [Bool.not_eq_true] at this
  rw [State.consPly, this, Bool.false_and]

/-- A row that a queue passes moves nothing on a channel without consumers. -/
theorem State.passRow_keeps (s : State) {n : Nat} (h : s.consumers n = []) (q row : Nat) :
    (s.passRow q row).ich n = s.ich n ∧ (s.passRow q row).consBits n = s.consBits n := by
  unfold State.passRow
  refine List.foldlRecOn (motive := fun t : State => t.ich n = s.ich n ∧ t.consBits n = s.consBits n) _ _ ⟨rfl, rfl⟩
    fun t keeps m _ => ?_
  refine List.foldlRecOn (motive := fun t : State => t.ich n = s.ich n ∧ t.consBits n = s.consBits n) _ _ keeps
    fun t ⟨ich, cons⟩ k lt => ?_
  split
  · rename_i c
    have other : m ≠ n := by
      rintro rfl
      have := State.consPly_none ((State.consumers_congr cons).trans h) (List.mem_range.1 lt)
      simp [this] at c
    exact ⟨(State.ich_raiseRel_other _ other _ _).trans ((State.ich_setIch_other _ _ other).trans ich),
      (congrArg BitVec.toNat (State.reg_raiseRel _ _ _ _ rfl)).trans cons⟩
  · exact ⟨ich, cons⟩

theorem State.foldl_passRow_ich (s : State) {n : Nat} (h : s.consumers n = []) (row : Nat) (qs : List Nat) :
    (qs.foldl (fun s q => s.passRow q row) s).ich n = s.ich n :=
  (List.foldlRecOn (motive := fun t : State => t.ich n = s.ich n ∧ t.consBits n = s.consBits n) _ _ ⟨rfl, rfl⟩
    fun t ⟨ich, cons⟩ q _ =>
    have keeps := t.passRow_keeps ((State.consumers_congr cons).trans h) q row
    ⟨keeps.1.trans ich, keeps.2.trans cons⟩).1

/-! ### Dropped courses (R67, R99) -/

@[simp] theorem State.applyAct_ing (s : State) (o : Nat) (ev : OutEv) : (s.applyAct o ev).ing = s.ing := by
  unfold State.applyAct
  cases ev.act <;> rfl

@[simp] theorem State.drivePin_ing (s : State) (o : Nat) : (s.drivePin o).ing = s.ing := by
  unfold State.drivePin
  dsimp only
  repeat' split
  all_goals rfl

@[simp] theorem State.raiseOut_ing (s : State) (o : Nat) : (s.raiseOut o).ing = s.ing := State.raise_ing ..

@[simp] theorem State.enterEv_ing (s : State) (o : Nat) (ev : OutEv) : (s.enterEv o ev).2.ing = s.ing := by
  unfold State.enterEv
  dsimp only
  repeat' split
  all_goals simp

@[simp] theorem State.present_ing (s : State) (o : Nat) (ev : OutEv) (cur : Half) : (s.present o ev cur).2.ing = s.ing := by
  unfold State.present
  dsimp only
  repeat' split
  all_goals simp

@[simp] theorem State.uninspected_ing (s : State) (o row : Nat) : (s.uninspected o row).ing = s.ing := by
  unfold State.uninspected
  dsimp only
  repeat' split
  all_goals simp

@[simp] theorem State.markUninspected_ing (s : State) (n row : Nat) : (s.markUninspected n row).ing = s.ing := by
  unfold State.markUninspected
  split
  · refine List.foldlRecOn (motive := fun t : State => t.ing = s.ing) _ _ rfl fun t h o _ => ?_
    split
    · exact (t.uninspected_ing o row).trans h
    · exact h
  · rfl

/-- A drop is counted and remembered; rows and finished courses stand. -/
theorem State.ich_recordDrop (s : State) (n row cause : Nat) :
    ((s.recordDrop n row cause).ich n).rows = (s.ich n).rows ∧
    ((s.recordDrop n row cause).ich n).completed = (s.ich n).completed ∧
    ((s.recordDrop n row cause).ich n).dropped = (s.ich n).dropped + 1 ∧
    ((s.recordDrop n row cause).ich n).lastDrop = some (row, cause) := by
  unfold State.recordDrop
  dsimp only
  rw [State.ich_congr (State.raise_ing ..), State.ich_congr (State.markUninspected_ing ..), State.ich_congr (State.bump_ing ..),
    State.ich_setIch]
  split
  · exact ⟨rfl, rfl, rfl, rfl⟩
  · simp

end Sys2Proof.Machine
end

