-- ==== Sys2Proof/Proofs/Courses.lean ====
section
/-!
PROOFS. Sys2Proof/Proofs/Courses.lean: how courses end, how release rows and drop logs move, and the bind-off of ingest (R91 to R108).
-/
namespace Sys2Proof.Machine
open Sys2Proof.Claims

/-! ### A channel's rows -/

@[simp] theorem State.rows_delRow (s : State) (n row : Nat) :
    ((s.delRow n row).ich n).rows = (s.ich n).rows.filter fun r => r.row != row := by
  simp [State.delRow]

@[simp] theorem State.completed_delRow (s : State) (n row : Nat) : ((s.delRow n row).ich n).completed = (s.ich n).completed := by
  simp [State.delRow]

@[simp] theorem State.dropped_delRow (s : State) (n row : Nat) : ((s.delRow n row).ich n).dropped = (s.ich n).dropped := by
  simp [State.delRow]

theorem State.headRow_nil {s : State} {n : Nat} (h : (s.ich n).rows = []) : s.headRow n = none := by
  rw [State.headRow, h]; rfl

/-- With no row in flight no marker is due. -/
theorem State.showHead_nil {s : State} {n : Nat} (h : (s.ich n).rows = []) : s.showHead n = s := by
  rw [State.showHead, State.headRow_nil h]

/-- A note of a final marker changes nothing but the last marker (0x6000). -/
theorem State.ich_noteFinal (s : State) (n : Nat) (m : Marker) :
    ((s.noteFinal n m).ich n).rows = (s.ich n).rows ∧ ((s.noteFinal n m).ich n).completed = (s.ich n).completed ∧
    ((s.noteFinal n m).ich n).dropped = (s.ich n).dropped := by
  unfold State.noteFinal
  dsimp only
  split
  all_goals split <;> simp

theorem State.noteFinal_regs (s : State) (n : Nat) (m : Marker) : (s.noteFinal n m).regs = s.regs := by
  unfold State.noteFinal
  dsimp only
  repeat' split
  all_goals rfl

/-! ### Release -/

/-- R93: on a channel without consumers a release marks or removes the row, and the next head shows. -/
theorem State.releaseRow_alone {s : State} {n : Nat} (h : s.consumers n = []) (r : IRow) :
    s.releaseRow n r =
      (if r.fin = some .spec then s.updRow n r.row fun r => { r with rel := true } else s.delRow n r.row).showHead n := by
  unfold State.releaseRow
  by_cases c : r.fin = some .spec
  · simp only [c, decide_true, if_true]
    change State.showHead (List.foldl _ _ (s.consumers n)) n = _
    rw [h]; rfl
  · simp only [c, decide_false, Bool.false_eq_true, if_false]
    change State.showHead (List.foldl _ _ (s.consumers n)) n = _
    rw [h]; rfl

theorem exec_courseRelease {s : State} {n : Nat} (lt : n < 16) {r : IRow} (head : s.headRow n = some r) :
    exec (.courseRelease n) s = .next (if r.fin.isSome then s.releaseRow n r else s) := by
  change Host.Outcome.next (State.when _ _ s) = _
  rw [decide_eq_true lt, State.when_true, head]

/-! ### CRC resolution of a released course (R97) -/

/-- A course that has been released: the command resolves it. -/
theorem exec_crcResolution {s : State} {n : Nat} (lt : n < 16) {r : IRow} (rows : (s.ich n).rows = [r]) (rel : r.rel = true) (ok : Bool) :
    exec (.crcResolution n r.row ok) s = .next (s.resolveCourse n r ok) := by
  change Host.Outcome.next (State.when _ _ s) = _
  rw [decide_eq_true lt, State.when_true, rows]
  simp [rel]

/-- The channel once a resolved course has left its rows: what R97 shows in SPEC_OPEN. -/
def State.leaveRow (s : State) (n row : Nat) : State :=
  let s := s.delRow n row
  s.setFld F.CXP_CH_ISTAT_SPECOPEN (b2n ((s.ich n).rows.any (·.open_))) n

/-- The last row leaves none behind and no speculative course open. -/
theorem State.leaveRow_last {s : State} {n : Nat} {r : IRow} (rows : (s.ich n).rows = [r]) :
    ((s.leaveRow n r.row).ich n).rows = [] ∧ (s.leaveRow n r.row).fld F.CXP_CH_ISTAT_SPECOPEN n = 0 := by
  have none : ((s.delRow n r.row).ich n).rows = [] := by simp [rows]
  refine ⟨none, ?_⟩
  unfold State.leaveRow
  dsimp only
  rw [State.fld_setFld _ _ _ _ _ rfl, none]
  rfl

theorem State.leaveRow_counts (s : State) (n row : Nat) :
    ((s.leaveRow n row).ich n).completed = (s.ich n).completed ∧ ((s.leaveRow n row).ich n).dropped = (s.ich n).dropped :=
  ⟨s.completed_delRow n row, s.dropped_delRow n row⟩

theorem State.leaveRow_consumers (s : State) (n row : Nat) : (s.leaveRow n row).consumers n = s.consumers n :=
  State.consumers_congr (congrArg BitVec.toNat (State.reg_setFld_other _ (Reg.ne_of_kind (by decide))))

/-- From `u` to `v` a final marker of channel `n` has been written and noted: its rows, its counts and the registers of ingest stand. -/
structure Sealed (n : Nat) (u v : State) : Prop where
  rows : (v.ich n).rows = (u.ich n).rows
  completed : (v.ich n).completed = (u.ich n).completed
  dropped : (v.ich n).dropped = (u.ich n).dropped
  reg : ∀ r : Reg, r.kind ≠ .DDR_CH_CNT → v.reg r = u.reg r

theorem Sealed.marker (n : Nat) (u : State) (m m' : Marker) (bit cause wales ok bad : Nat) :
    Sealed n u ((u.writeMarker n m bit cause wales ok bad).noteFinal n m') := by
  have same : (u.writeMarker n m bit cause wales ok bad).ich n = u.ich n := State.ich_congr (State.writeMarker_ing ..) n
  obtain ⟨rows, completed, dropped⟩ := (u.writeMarker n m bit cause wales ok bad).ich_noteFinal n m'
  rw [same] at rows completed dropped
  exact ⟨rows, completed, dropped, fun r h =>
    (State.reg_congr (State.noteFinal_regs ..) r).trans (State.reg_writeMarker _ _ _ _ _ _ _ _ h)⟩

theorem Sealed.fld {n : Nat} {u v : State} (h : Sealed n u v) {f : Fld} (k : f.k ≠ .DDR_CH_CNT) (i j : Nat) :
    v.fld f i j = u.fld f i j := by
  rw [State.fld, h.reg ⟨f.k, i, j⟩ k]; rfl

theorem Sealed.consumers {n : Nat} {u v : State} (h : Sealed n u v) : v.consumers n = u.consumers n :=
  State.consumers_congr (congrArg BitVec.toNat (h.reg ⟨.CXP_CH_CONS, n, 0⟩ nofun))

/-- A course's lines as the CRC of its last packets leaves them (R97). -/
def IRow.settled (r : IRow) (ok : Bool) : IRow :=
  { r with lines := r.lines.map fun e => (e.1, if e.2 = .unresolved then (if ok then LineSt.verified else .failed 2) else e.2) }

/-- A resolved course has left its channel's rows, and its final marker stands: status bit, cause and wales (R89, R97). -/
def State.sealCourse (s : State) (n : Nat) (r : IRow) (ok : Bool) (bit cause wales : Nat) : State :=
  let m := rowMasks (IRow.settled r ok)
  ((s.leaveRow n r.row).writeMarker n r.marker bit cause wales m.1 m.2).noteFinal n (sealMarker r.marker bit cause wales)

/-- A sealed course with a good CRC is counted, and queues that it fed need not speculate on it (R97). -/
def State.completeCourse (v : State) (n row : Nat) : State :=
  let c := v.ich n
  v.setIch n { c with
    completed := c.completed + 1
    feed := c.feed.map fun f => if f.row = row then { f with spec := false } else f }

/-- R97: a course whose CRC is good is completed. -/
theorem State.resolveCourse_good {s : State} {n : Nat} (h : s.consumers n = []) (r : IRow) :
    s.resolveCourse n r true =
      (s.sealCourse n r true 0 0 ((s.leaveRow n r.row).fld F.CXP_CH_WALES n)).completeCourse n r.row := by
  have alone : (s.leaveRow n r.row).consumers n = [] := (s.leaveRow_consumers n r.row).trans h
  change List.foldl _ (State.completeCourse _ n r.row) (List.map _ (List.filter _ ((s.leaveRow n r.row).consumers n))) = _
  rw [alone]
  rfl

theorem State.ich_completeCourse (v : State) (n row : Nat) :
    let x := (v.completeCourse n row).ich n
    x.rows = (v.ich n).rows ∧ x.completed = (v.ich n).completed + 1 ∧ x.dropped = (v.ich n).dropped := by
  unfold State.completeCourse
  dsimp only
  rw [State.ich_setIch]
  exact ⟨rfl, rfl, rfl⟩

theorem State.fld_completeCourse (v : State) (n row : Nat) (f : Fld) (i j : Nat) :
    (v.completeCourse n row).fld f i j = v.fld f i j := rfl

/-- A sealed course with a bad CRC is dropped with cause 2, and queues that waited for it pass its row (R53, R97). -/
def State.dropCourse (v : State) (n row : Nat) : State :=
  let c := v.ich n
  (((c.feed.filter fun f => f.row == row).map (·.q)).foldl (fun s q => s.passRow q row)
    (v.setIch n { c with feed := c.feed.filter fun f => f.row != row })).recordDrop n row 2

/-- R97: a course whose CRC is bad is dropped. -/
theorem State.resolveCourse_bad {s : State} {n : Nat} (h : s.consumers n = []) (r : IRow) :
    s.resolveCourse n r false = (s.sealCourse n r false 2 2 0).dropCourse n r.row := by
  have alone : (s.leaveRow n r.row).consumers n = [] := (s.leaveRow_consumers n r.row).trans h
  change State.dropCourse (List.foldl _ (s.sealCourse n r false 2 2 0)
    (List.map _ (List.filter _ ((s.leaveRow n r.row).consumers n)))) n r.row = _
  rw [alone, List.filter_nil, List.map_nil, List.foldl_nil]

/-- On a channel without consumers a drop moves no other count than that of drops. -/
theorem State.ich_dropCourse {v : State} {n : Nat} (h : v.consumers n = []) (row : Nat) :
    let x := (v.dropCourse n row).ich n
    x.rows = (v.ich n).rows ∧ x.completed = (v.ich n).completed ∧ x.dropped = (v.ich n).dropped + 1 ∧ x.lastDrop = some (row, 2) := by
  unfold State.dropCourse
  dsimp only
  generalize (v.ich n).feed.filter _ = feed
  generalize ((v.ich n).feed.filter _).map _ = qs
  have same : (v.setIch n { v.ich n with feed := feed }).consumers n = [] := (State.consumers_congr rfl).trans h
  have moved := State.foldl_passRow_ich _ same row qs
  rw [State.ich_setIch] at moved
  obtain ⟨rows, completed, dropped, last⟩ :=
    (qs.foldl (fun s q => s.passRow q row) (v.setIch n { v.ich n with feed := feed })).ich_recordDrop n row 2
  rw [moved] at rows completed dropped
  exact ⟨rows, completed, dropped, last⟩

/-! ### The watchdog of a course (R98) -/

theorem State.updRow_congr {s : State} {n : Nat} {r : IRow} (rows : (s.ich n).rows = [r]) {f g : IRow → IRow} (h : f r = g r) :
    s.updRow n r.row f = s.updRow n r.row g := by
  simp [State.updRow, rows, h]

/-- Before the watchdog's time nothing happens but that time passes. -/
theorem exec_courseWatchdog_early {s : State} {dt n : Nat} (lt : n < 16) {r : IRow} (rows : ((s.advance dt).ich n).rows = [r])
    (fin : r.fin = none) (early : (s.advance dt).now < r.marker.time.toNat + (s.advance dt).fld F.CXP_CH_CWD n * 1000) :
    exec (.courseWatchdog dt n) s = .next (s.advance dt) := by
  change Host.Outcome.next (State.when _ _ (s.advance dt)) = _
  rw [decide_eq_true lt, State.when_true, rows]
  simp only [List.find?_cons, fin, Option.isNone_none]
  rw [if_neg (Nat.not_le.2 early)]

/-- At the watchdog's time the one line that is still pending fails with cause 4, and the expiry is counted. -/
theorem exec_courseWatchdog_due {s : State} {dt n k : Nat} (lt : n < 16) {r : IRow} (rows : ((s.advance dt).ich n).rows = [r])
    (fin : r.fin = none) (lines : r.lines = [(k, .pending)]) (idle : ((s.advance dt).cam k).cur = none)
    (due : r.marker.time.toNat + (s.advance dt).fld F.CXP_CH_CWD n * 1000 ≤ (s.advance dt).now) :
    exec (.courseWatchdog dt n) s =
      .next ((((s.advance dt).count 0x13).updRow n r.row fun r => { r with lines := [(k, .failed 4)] }).checkRow n r.row) := by
  have still : (((s.advance dt).count 0x13).updRow n r.row fun r => { r with lines := r.lines.set k (.failed 4) }) =
      ((s.advance dt).count 0x13).updRow n r.row fun r => { r with lines := [(k, .failed 4)] } :=
    State.updRow_congr (s := (s.advance dt).count 0x13) rows (by simp [lines, KV.set])
  have free (f : IRow → IRow) : ((((s.advance dt).count 0x13).updRow n r.row f).cam k).cur = none := idle
  change Host.Outcome.next (State.when _ _ (s.advance dt)) = _
  rw [decide_eq_true lt, State.when_true, rows]
  simp only [List.find?_cons, fin, Option.isNone_none]
  rw [if_pos due]
  simp only [lines, List.filter_cons, List.filter_nil, if_true, List.foldl_cons, List.foldl_nil, State.expiry]
  rw [free, if_neg nofun, still]

/-- R97: the last released course of a channel without consumers ends as COMPLETE where its CRC is good. -/
theorem crcResolution_good {s : State} {n : Nat} (lt : n < 16) (alone : s.consumers n = []) {r : IRow} (rows : (s.ich n).rows = [r])
    (rel : r.rel = true) :
    ∃ t, exec (.crcResolution n r.row true) s = .next t ∧ (t.ich n).rows = [] ∧ (t.ich n).completed = (s.ich n).completed + 1 ∧
      (t.ich n).dropped = (s.ich n).dropped ∧ t.flag F.CXP_CH_ISTAT_SPECOPEN n = false := by
  have keeps : Sealed n (s.leaveRow n r.row) (s.sealCourse n r true 0 0 ((s.leaveRow n r.row).fld F.CXP_CH_WALES n)) :=
    Sealed.marker ..
  obtain ⟨empty, closed⟩ := State.leaveRow_last rows
  obtain ⟨completed, dropped⟩ := s.leaveRow_counts n r.row
  obtain ⟨crows, ccompleted, cdropped⟩ :=
    (s.sealCourse n r true 0 0 ((s.leaveRow n r.row).fld F.CXP_CH_WALES n)).ich_completeCourse n r.row
  refine ⟨_, (exec_crcResolution lt rows rel true).trans (congrArg _ (State.resolveCourse_good alone r)),
    crows.trans (keeps.rows.trans empty), ccompleted.trans (congrArg (· + 1) (keeps.completed.trans completed)),
    cdropped.trans (keeps.dropped.trans dropped), ?_⟩
  rw [State.flag, State.fld_completeCourse, keeps.fld (f := F.CXP_CH_ISTAT_SPECOPEN) nofun, closed]
  rfl

/-- R97: it ends as a dropped course with cause 2 where its CRC is bad. -/
theorem crcResolution_bad {s : State} {n : Nat} (lt : n < 16) (alone : s.consumers n = []) {r : IRow} (rows : (s.ich n).rows = [r])
    (rel : r.rel = true) :
    ∃ t, exec (.crcResolution n r.row false) s = .next t ∧ (t.ich n).rows = [] ∧ (t.ich n).completed = (s.ich n).completed ∧
      (t.ich n).dropped = (s.ich n).dropped + 1 ∧ (t.ich n).lastDrop = some (r.row, 2) := by
  have keeps : Sealed n (s.leaveRow n r.row) (s.sealCourse n r false 2 2 0) := Sealed.marker ..
  obtain ⟨empty, _⟩ := State.leaveRow_last rows
  obtain ⟨completed, dropped⟩ := s.leaveRow_counts n r.row
  obtain ⟨drows, dcompleted, ddropped, dlast⟩ :=
    State.ich_dropCourse (keeps.consumers.trans ((s.leaveRow_consumers n r.row).trans alone)) r.row
  exact ⟨_, (exec_crcResolution lt rows rel false).trans (congrArg _ (State.resolveCourse_bad alone r)),
    drows.trans (keeps.rows.trans empty), dcompleted.trans (keeps.completed.trans completed),
    ddropped.trans (congrArg (· + 1) (keeps.dropped.trans dropped)), dlast⟩

/-- The ends of courses: release, CRC resolution, watchdog. -/
theorem courseEnds : CourseEnds := by
  intro s dt n r lt alone
  dsimp only
  refine ⟨fun head fin => ?_, fun head fin => ?_, fun head fin => ?_, crcResolution_good lt alone, crcResolution_bad lt alone,
    fun k rows fin lines idle => ⟨exec_courseWatchdog_due lt rows fin lines idle, exec_courseWatchdog_early lt rows fin⟩⟩
  · rw [exec_courseRelease lt head, fin]; rfl
  · rw [exec_courseRelease lt head, State.releaseRow_alone alone]
    rcases fin with fin | fin <;> simp [fin]
  · rw [exec_courseRelease lt head, State.releaseRow_alone alone]
    simp [fin]

/-! ### Release rows and drop logs by register (R91, R101, R547) -/

/-- RELEASE_ROW_WRITE: both halves of the row, LO's held value first, reach the consumer's release row. -/
theorem exec_releaseRowWrite {s : State} {who : Who} {n k : Nat} {v : Word} (hn : n < 16) (hk : k < 4)
    (reach : s.reaches who ⟨.CXP_CH_REL_HI, n, k⟩ v = true) :
    exec (.releaseRowWrite who n k v) s =
      .next (({ s with held := s.held.del ⟨.CXP_CH_REL_HI, n, k⟩ } : State).writeRel n k
        ((s.held.get ⟨.CXP_CH_REL_HI, n, k⟩ (s.reg ⟨.CXP_CH_REL_LO, n, k⟩)).toNat + 2 ^ 32 * v.toNat)) := by
  change Host.Outcome.next (State.when _ _ s) = _
  rw [decide_eq_true hn, decide_eq_true hk, Bool.and_self, State.when_true, State.writeTo_word_pair reach rfl rfl]
  rfl

theorem State.writeRel_ignored {s : State} {n k row : Nat} (h : s.consPly n k = true ∨ row ≤ s.relRow n k) :
    s.writeRel n k row = s := by
  unfold State.writeRel State.raiseRel
  split
  · rfl
  · rename_i c
    exact if_pos (h.resolve_left c)

theorem State.writeRel_rises {s : State} {n k row : Nat} (ply : s.consPly n k = false) (rises : s.relRow n k < row) (fits : row < 2 ^ 64) :
    (s.writeRel n k row).relRow n k = row := by
  rw [State.writeRel, if_neg (by simp [ply]), State.relRow_raiseRel _ rises fits]

/-- A read of DLOG_HI pops the drop log. -/
theorem State.loadReg_dlog (s : State) (who : Who) (n : Nat) :
    ∃ l, (s.loadReg who ⟨.CXP_CH_DLOG_HI, n, 0⟩).2 = ({ s with latched := l } : State).popDrop n := by
  have own : s.aliased ⟨.CXP_CH_DLOG_HI, n, 0⟩ = ⟨.CXP_CH_DLOG_HI, n, 0⟩ := if_neg fun c => nomatch c.1
  refine ⟨s.latched.del ⟨.CXP_CH_DLOG_HI, n, 0⟩, ?_⟩
  unfold State.loadReg
  rw [own]
  change State.popDrop (State.clearRsc _ _) n = _
  rw [State.clearRsc_none _ rfl]
  rfl

/-- DROP_LOG_POP removes the head entry. -/
theorem dropLogPop_pops {s : State} {who : Who} {n : Nat} (lt : n < 16) (reads : s.readsOut who ⟨.CXP_CH_DLOG_HI, n, 0⟩ = true) :
    ∃ t, exec (.dropLogPop who n) s = .next t ∧ (t.ich n).dlog = (s.ich n).dlog.drop 1 ∧ t.mem = s.mem := by
  obtain ⟨l, load⟩ := s.loadReg_dlog who n
  have run : exec (.dropLogPop who n) s = .next (s.readFrom who .CXP_CH_DLOG_HI n 0) := by
    change Host.Outcome.next (State.when _ _ s) = _
    rw [decide_eq_true lt, State.when_true]
  refine ⟨_, run.trans (congrArg _ (State.readFrom_load reads)), ?_, ?_⟩
  · rw [load]
    exact congrArg IChan.dlog (State.ich_setIch ..)
  · rw [load]
    rfl

/-! ### Bind-off of ingest (R108) -/

/-- A write of ICTRL puts its bit 0 into EN. -/
theorem State.en_putReg (s : State) (who : Who) (n : Nat) (v : Word) :
    (s.putReg who ⟨.CXP_CH_ICTRL, n, 0⟩ v).flag F.CXP_CH_ICTRL_EN n = v.toNat.testBit 0 := by
  have en : (⟨0, 0, .rw, 0, 0, 4294967295, [], .always, false⟩ : Field) ∈ RegKind.CXP_CH_ICTRL.info.fields := by decide
  have bits : (s.putReg who ⟨.CXP_CH_ICTRL, n, 0⟩ v).fld F.CXP_CH_ICTRL_EN n = bitsOf v.toNat 0 0 := by
    have small := bitsOf_lt v.toNat 0 0
    have put := s.bitsOf_putWord who ⟨.CXP_CH_ICTRL, n, 0⟩ v en
    rw [State.newBits] at put
    dsimp only at put
    rw [if_pos ⟨Nat.zero_le _, by omega, rfl, rfl⟩] at put
    rw [State.fld, State.putReg]
    exact (congrArg (fun w : Word => bitsOf w.toNat 0 0) (State.reg_setReg ..)).trans put
  rw [State.flag, bits, Nat.testBit_zero]
  rfl

theorem State.fld_setReg_kind (s : State) {r : Reg} (v : Word) {f : Fld} (h : r.kind ≠ f.k) (i j : Nat) :
    (s.setReg r v).fld f i j = s.fld f i j := by
  rw [State.fld, State.reg_setReg_other s v fun e => h (congrArg Reg.kind e)]
  rfl

/-- INGEST_BINDOFF: with EN written 0 a channel that runs admits no row any more. -/
theorem exec_ingestBindoff {s : State} {who : Who} {n : Nat} {v : Word} (lt : n < 16)
    (reach : s.reaches who ⟨.CXP_CH_ICTRL, n, 0⟩ v = true) (off : v.toNat.testBit 0 = false) (en : s.flag F.CXP_CH_ICTRL_EN n = true)
    (run : s.flag F.CXP_CH_ISTAT_RUN n = true) :
    exec (.ingestBindoff who n v) s = .next
      (((s.putReg who ⟨.CXP_CH_ICTRL, n, 0⟩ v).setFld F.CXP_CH_ISTAT_RUN 0 n).setFld F.CXP_CH_ISTAT_BINDOFF 1 n) := by
  have runs : (s.putReg who ⟨.CXP_CH_ICTRL, n, 0⟩ v).flag F.CXP_CH_ISTAT_RUN n = true := by
    rw [State.flag, State.putReg, State.fld_setReg_kind _ _ (show RegKind.CXP_CH_ICTRL ≠ .CXP_CH_ISTAT by decide)]
    exact run
  change Host.Outcome.next (State.when _ _ s) = _
  rw [decide_eq_true lt, setBit, off, Bool.not_false, Bool.and_self, State.when_true, State.writeTo_word_act reach rfl rfl]
  change Host.Outcome.next (s.writeIctrl who ⟨.CXP_CH_ICTRL, n, 0⟩ v) = _
  rw [State.writeIctrl]
  dsimp only
  rw [en, State.en_putReg, off, State.startIngestBindoff, runs]
  rfl

/-- The end of ingest's bind-off where no queue is to bind off after it. -/
theorem State.endIngestBindoff_alone {s : State} {n : Nat} (h : ∀ q, q < 16 → (s.plq q).bindAfter = false) :
    s.endIngestBindoff n = ((s.setFld F.CXP_CH_ISTAT_BINDOFF 0 n).raise (128 + n)).settleChan n := by
  have ply : ((s.setFld F.CXP_CH_ISTAT_BINDOFF 0 n).raise (128 + n)).ply = s.ply := by simp
  unfold State.endIngestBindoff
  dsimp only
  generalize (s.setFld F.CXP_CH_ISTAT_BINDOFF 0 n).raise (128 + n) = u at ply ⊢
  refine congrArg (State.settleChan · n) (List.foldlRecOn (motive := fun t => t = u) _ _ rfl fun t e q lt => ?_)
  subst e
  have idle : (t.plq q).bindAfter = false := by
    rw [State.plq, ply]
    exact h q (List.mem_range.1 lt)
  rw [idle]
  rfl

theorem exec_ingestBindoffEnd {s : State} {n : Nat} (lt : n < 16) (going : s.flag F.CXP_CH_ISTAT_BINDOFF n = true) :
    exec (.ingestBindoffEnd n) s = .next (if (s.headRow n).isNone then s.endIngestBindoff n else s) := by
  change Host.Outcome.next (State.when _ _ s) = _
  rw [decide_eq_true lt, going]
  rfl

/-- The timeout of a bind-off with no row left is counted, and ends it. -/
theorem exec_ingestBindoffTimeout {s : State} {n : Nat} (lt : n < 16) (going : s.flag F.CXP_CH_ISTAT_BINDOFF n = true)
    (rows : (s.ich n).rows = []) :
    exec (.ingestBindoffTimeout n) s = .next (((s.bump F.TMO_CNT1_24).count 0x13).endIngestBindoff n) := by
  have rows' : (((s.bump F.TMO_CNT1_24).count 0x13).ich n).rows = [] := rows
  change Host.Outcome.next (State.when _ _ s) = _
  rw [decide_eq_true lt, going, Bool.and_self, State.when_true, State.expiry]
  dsimp only
  rw [rows', List.filter_nil, List.foldl_nil, State.showHead_nil rows']

theorem releaseAndIngestBindoff : ReleaseAndIngestBindoff := by
  intro s who n k v hn hk
  refine ⟨fun reach => ⟨fun ignored => ?_, fun ply rises => ?_⟩, dropLogPop_pops hn, fun reach off en run => ?_,
    fun going rows idle => ?_, fun going head => ?_⟩
  · rw [exec_releaseRowWrite hn hk reach]
    exact congrArg _ (State.writeRel_ignored ignored)
  · refine ⟨_, exec_releaseRowWrite hn hk reach, State.writeRel_rises ply rises ?_⟩
    have lo := BitVec.isLt (s.held.get ⟨.CXP_CH_REL_HI, n, k⟩ (s.reg ⟨.CXP_CH_REL_LO, n, k⟩))
    have hi := BitVec.isLt v
    omega
  · refine ⟨_, exec_ingestBindoff hn reach off en run, ?_, ?_, ?_, rfl⟩
    · rw [State.flag, State.fld_setFld_apart _ rfl rfl, State.fld_setFld_apart _ rfl rfl]
      exact (s.en_putReg who n v).trans off
    · rw [State.flag, State.fld_setFld_apart _ rfl rfl, State.fld_setFld _ _ _ _ _ rfl]
      rfl
    · rw [State.flag, State.fld_setFld _ _ _ _ _ rfl]
      rfl
  · refine ⟨?_, ?_⟩
    · rw [exec_ingestBindoffEnd hn going, State.headRow_nil rows, Option.isNone_none, if_pos rfl, State.endIngestBindoff_alone idle]
    · rw [exec_ingestBindoffTimeout hn going rows,
        State.endIngestBindoff_alone (s := (s.bump F.TMO_CNT1_24).count 0x13) idle]
  · rw [exec_ingestBindoffEnd hn going, if_neg (by simpa [Option.isSome_iff_ne_none] using head)]

/-- Settles O19: how courses end on a channel without consumers, and how release rows, drop logs and ingest's bind-off move. -/
theorem courseEndsAndReleases : Obligations.CourseEndsAndReleases := ⟨courseEnds, releaseAndIngestBindoff⟩

end Sys2Proof.Machine
end
